-- ==== Sys2Proof/Word.lean ====
section
/-! DEFINITION. Words, bytes, bit fields, and the two sparse canonical containers (SMap, Mem) that State is built from. -/

namespace Sys2Proof

/-- One byte. -/
abbrev Byte := BitVec 8
/-- A 32-bit register, accumulator or FP32 word. -/
abbrev W32 := BitVec 32
/-- A 64-bit scalar or address register. -/
abbrev W64 := BitVec 64
/-- A vector register (R146). -/
abbrev V2048 := BitVec 2048
/-- A green source mask (R414, R415). -/
abbrev Mask := BitVec 12

/-- Bits [hi:lo] of a number (R13). -/
def bits (x hi lo : Nat) : Nat := (x >>> lo) % 2 ^ (hi + 1 - lo)

/-- Bit i of a number. -/
def bit (x i : Nat) : Bool := (x >>> i) % 2 == 1

/-- The bytes of n, little-endian, in k bytes (R52, R125). -/
def leBytes : Nat → Nat → List Byte
  | 0, _ => []
  | k + 1, n => BitVec.ofNat 8 n :: leBytes k (n / 256)

/-- The number that little-endian bytes hold. -/
def leNat : List Byte → Nat
  | [] => 0
  | b :: bs => b.toNat + 256 * leNat bs

/-- A two's-complement reading of a w-bit field. -/
def signed (w n : Nat) : Int := if n % 2 ^ w < 2 ^ (w - 1) then (n % 2 ^ w : Nat) else (n % 2 ^ w : Nat) - (2 ^ w : Nat)

/-- The low w bits of an integer, in two's complement. -/
def wrapInt (w : Nat) (i : Int) : Nat := (i % (2 ^ w : Nat)).toNat

/-- ⌈a / b⌉. -/
def ceilDiv (a b : Nat) : Nat := (a + b - 1) / b

/-- n raised by k, saturating at top. -/
def satAdd (top n k : Nat) : Nat := if n + k ≤ top then n + k else top

/-- Sets bits [hi:lo] of a 32-bit word to v. -/
def setField (r : W32) (hi lo v : Nat) : W32 :=
  let m := BitVec.ofNat 32 ((2 ^ (hi + 1 - lo) - 1) <<< lo)
  (r &&& ~~~m) ||| (BitVec.ofNat 32 ((v % 2 ^ (hi + 1 - lo)) <<< lo))

/-- Bits [hi:lo] of a 32-bit word. -/
def field (r : W32) (hi lo : Nat) : Nat := bits r.toNat hi lo

/-- A finite map from numbers to values in canonical form: keys strictly rising, no value equal to the default. -/
abbrev SMap (α : Type) := List (Nat × α)

namespace SMap
variable {α : Type}

/-- The value at key j, or the default d. -/
def get (d : α) : SMap α → Nat → α
  | [], _ => d
  | (k, v) :: m, j => if j = k then v else get d m j

/-- Puts v at key k, in key order. -/
def ins : SMap α → Nat → α → SMap α
  | [], k, v => [(k, v)]
  | (j, w) :: m, k, v =>
    if k < j then (k, v) :: (j, w) :: m
    else if k = j then (k, v) :: m
    else (j, w) :: ins m k v

/-- Removes key k. -/
def del (m : SMap α) (k : Nat) : SMap α := m.filter (fun e => e.1 != k)

/-- Sets key k to v, keeping the canonical form. -/
def set [DecidableEq α] (d : α) (m : SMap α) (k : Nat) (v : α) : SMap α :=
  if v = d then del m k else ins m k v

/-- The canonical form: keys strictly rising and no value equal to the default. -/
def wf [DecidableEq α] (d : α) : SMap α → Bool
  | [] => true
  | [(_, v)] => decide (v ≠ d)
  | (k, v) :: (j, w) :: m => decide (v ≠ d) && decide (k < j) && wf d ((j, w) :: m)

end SMap

/-- A byte-addressed memory: a list of address and byte pairs, addresses strictly rising, no byte equal to 0, which is what
an unlisted address reads as. -/
abbrev Mem := List Host.Cell

namespace Mem

/-- The byte at address a. -/
def byte (m : Mem) (a : Nat) : Byte := SMap.get (0 : Byte) m a

/-- The cells that bytes bs occupy from address a, zero bytes left out. -/
def cells : Nat → List Byte → Mem
  | _, [] => []
  | a, b :: bs => if b = 0 then cells (a + 1) bs else (a, b) :: cells (a + 1) bs

/-- Writes bytes bs at address a upward. -/
def write (m : Mem) (a : Nat) (bs : List Byte) : Mem :=
  m.filter (fun c => decide (c.1 < a)) ++ cells a bs ++ m.filter (fun c => decide (a + bs.length ≤ c.1))

/-- Zeroes n bytes from address a. -/
def zero (m : Mem) (a n : Nat) : Mem := m.filter (fun c => decide (c.1 < a ∨ a + n ≤ c.1))

/-- Reads n bytes from address a upward. -/
def read (m : Mem) (a n : Nat) : List Byte :=
  let w := m.filter (fun c => decide (a ≤ c.1 ∧ c.1 < a + n))
  (List.range n).map (fun i => byte w (a + i))

/-- Reads n bytes as one little-endian number. -/
def readNat (m : Mem) (a n : Nat) : Nat := leNat (read m a n)

/-- Writes one little-endian number of n bytes. -/
def writeNat (m : Mem) (a n v : Nat) : Mem := write m a (leBytes n v)

/-- The canonical form of a memory. -/
def wf (m : Mem) : Bool := SMap.wf (0 : Byte) m

end Mem

/-- Replaces the element at index i of a list. -/
def listSet {α : Type} : List α → Nat → α → List α
  | [], _, _ => []
  | _ :: xs, 0, v => v :: xs
  | x :: xs, i + 1, v => x :: listSet xs i v

/-- Cuts a list into pieces of k (fuel = a bound on the number of pieces). -/
def chunks {α : Type} (k : Nat) : Nat → List α → List (List α)
  | 0, _ => []
  | _, [] => []
  | f + 1, xs => xs.take k :: chunks k f (xs.drop k)

/-- Puts n into a rising list of distinct numbers. -/
def insNat : List Nat → Nat → List Nat
  | [], n => [n]
  | m :: ms, n => if n < m then n :: m :: ms else if n = m then m :: ms else m :: insNat ms n

end Sys2Proof
end

