-- ==== Sys2Proof/Fields.lean ====
section
/-! DEFINITION. The operand records that commands carry: bundle headers, slot fields (Tables 7.2 to 7.13), link frames (Table 14.2) and girt words. Field widths are the encoding's, so no value outside the encoding can be written. -/

namespace Sys2Proof

/-- Bundle header bits that act on an issue (Table 7.2): GROUP and the predicate. -/
structure Hdr where
  group : Bool := false
  predEn : Bool := false
  predReg : BitVec 5 := 0
  predNeg : Bool := false
  deriving DecidableEq, Repr, Inhabited

/-- LDS and LDST fields (Table 7.6). -/
structure LdF where
  xb : BitVec 4
  xp : BitVec 4
  xs : BitVec 4
  rows : BitVec 7
  fmt : BitVec 4
  inc : Bool
  deriving DecidableEq, Repr, Inhabited

/-- STRM fields (Table 7.6). -/
structure StrmF where
  xsrc : BitVec 4
  n : BitVec 12
  fmt : BitVec 4
  a : BitVec 12
  form : Bool
  ssrc : Bool
  xsc : BitVec 4
  deriving DecidableEq, Repr, Inhabited

/-- STRD fields (Table 7.6). -/
structure StrdF where
  sn : BitVec 5
  fmt : BitVec 4
  a : BitVec 12
  form : Bool
  deriving DecidableEq, Repr, Inhabited

/-- EPI fields (Table 7.6). -/
structure EpiF where
  xd : BitVec 4
  off : BitVec 8
  deriving DecidableEq, Repr, Inhabited

/-- SCLR fields (Table 7.6). -/
structure SclrF where
  reg : BitVec 6
  cnt : BitVec 6
  deriving DecidableEq, Repr, Inhabited

/-- SEXP fields (Table 7.6). -/
structure SexpF where
  reg : BitVec 6
  cnt : BitVec 4
  deriving DecidableEq, Repr, Inhabited

/-- VX fields (Table 7.8). -/
structure VxF where
  vd : BitVec 6
  vs1 : BitVec 6
  vs2 : BitVec 6
  vs3 : BitVec 6
  rnd : BitVec 2
  ty : BitVec 2
  ms : Bool
  md : Bool
  inc : Bool
  sx : BitVec 5
  deriving DecidableEq, Repr, Inhabited

/-- DT fields (R187). -/
structure DtF where
  xa : BitVec 4
  xb : BitVec 4
  xc : BitVec 4
  sn : BitVec 5
  mode : BitVec 4
  a : BitVec 12
  form : Bool
  deriving DecidableEq, Repr, Inhabited

/-- MV fields (Table 7.11). -/
structure MvF where
  xs : BitVec 4
  xd : BitVec 4
  len : BitVec 16
  st : BitVec 5
  ctr : BitVec 4
  cls : BitVec 2
  inc : Bool
  form : Bool
  deriving DecidableEq, Repr, Inhabited

/-- WAITM fields (Table 7.13). -/
structure WaitmF where
  kind : BitVec 2
  role : Bool
  lm : BitVec 4
  base : BitVec 32
  deriving DecidableEq, Repr, Inhabited

/-- WAITR and RCSET fields (Table 7.13). -/
structure CtrF where
  ctr : BitVec 4
  value : BitVec 32
  deriving DecidableEq, Repr, Inhabited

/-- BARA and BARW fields (Table 7.13): scope false = bay hub, true = root hub. -/
structure BarF where
  scope : Bool
  bctr : BitVec 6
  deriving DecidableEq, Repr, Inhabited

/-- LOOP fields (Table 7.13). -/
structure LoopF where
  lvl : BitVec 2
  count : BitVec 24
  body : BitVec 13
  deriving DecidableEq, Repr, Inhabited

/-- MSTR fields (Table 7.13). -/
structure MstrF where
  lvl : BitVec 2
  stride : BitVec 32
  deriving DecidableEq, Repr, Inhabited

/-- Scalar register form (Table 7.13): 0 to 31 name S, 32 to 47 name X, 48 to 63 fail. -/
structure ScalF where
  d : BitVec 6
  a : BitVec 6
  b : BitVec 6
  deriving DecidableEq, Repr, Inhabited

/-- Scalar immediate form (Table 7.13). -/
structure ScalI where
  d : BitVec 6
  a : BitVec 6
  imm : BitVec 30
  deriving DecidableEq, Repr, Inhabited

/-- LOGV fields (Table 7.13). -/
structure LogF where
  a : BitVec 6
  tag : BitVec 16
  deriving DecidableEq, Repr, Inhabited

/-- A link frame's header and payload (Table 14.2). side holds the 16 side bytes as one little-endian number. -/
structure Frame where
  side : BitVec 128
  seq : Nat
  object : Nat
  version : Nat
  typ : Nat
  vc : Nat
  index : Nat
  last : Bool
  response : Bool
  backward : Bool
  resend : Bool
  payload : List Byte
  deriving DecidableEq, Repr, Inhabited

/-- Byte range of a frame's side field: n bytes from offset o, little-endian. -/
def Frame.sideNat (f : Frame) (o n : Nat) : Nat := bits f.side.toNat (8 * (o + n) - 1) (8 * o)

/-- Byte range of a frame's payload. -/
def Frame.payNat (f : Frame) (o n : Nat) : Nat := leNat ((f.payload.drop o).take n)

/-- A sync network token (Table 13.9). -/
structure Token where
  typ : Nat
  head : Nat
  a : Nat
  b : Nat
  c : Nat := 0
  deriving DecidableEq, Repr, Inhabited

end Sys2Proof
end

