-- ==== Sys2Proof/Syntax.lean ====
section
/-! DEFINITION. The commands of the module: one constructor per row of the opcode table, with the row's operands. p is a physical core number (bay * 48 + index), l a landing, h a bundle header; further operands are documented at the meaning. -/

namespace Sys2Proof

/-- Where a frame is lost, and whether by an uncorrectable codeword, else by its CRC (R369). -/
structure LossAt where
  land : Nat
  unc : Bool
  deriving DecidableEq, Repr, Inhabited

/-- Why a board's role ends: 0 heartbeat lost, 1 PRESENT_L of a board deasserts, 2 handover; and the board that 1 names (R482, R549). -/
structure BoardOut where
  cause : Nat
  board : Nat
  deriving DecidableEq, Repr, Inhabited

/-- A channel of a bay stack, and the row in which an access finds a correctable error: 1 + its number, 0 for none (R406). -/
structure ChAccess where
  ch : Nat
  ce : Nat
  deriving DecidableEq, Repr, Inhabited

/-- A command: an operation a core issues, a host command, a link frame, a register access, or an event of the module (spec/opcode_table.json). -/
inductive Instr where
  /-- LDS (R93). -/
  | lds (p : Nat) (h : Hdr) (f : LdF)
  /-- LDST (R95). -/
  | ldst (p : Nat) (h : Hdr) (f : LdF)
  /-- STRM (R90). -/
  | strm (p : Nat) (h : Hdr) (f : StrmF)
  /-- STRD (R221). -/
  | strd (p : Nat) (h : Hdr) (f : StrdF)
  /-- EPI (R112). -/
  | epi (p : Nat) (h : Hdr) (f : EpiF)
  /-- SCLR (R74). -/
  | sclr (p : Nat) (h : Hdr) (f : SclrF)
  /-- SEXP (R181). -/
  | sexp (p : Nat) (h : Hdr) (f : SexpF)
  /-- VMOV (R183). -/
  | vmov (p : Nat) (h : Hdr) (f : VxF)
  /-- VADD (R138). -/
  | vadd (p : Nat) (h : Hdr) (f : VxF)
  /-- VSUB (R138). -/
  | vsub (p : Nat) (h : Hdr) (f : VxF)
  /-- VMUL (R138). -/
  | vmul (p : Nat) (h : Hdr) (f : VxF)
  /-- VFMA (R138). -/
  | vfma (p : Nat) (h : Hdr) (f : VxF)
  /-- VFNMA (R138). -/
  | vfnma (p : Nat) (h : Hdr) (f : VxF)
  /-- VMIN (R141). -/
  | vmin (p : Nat) (h : Hdr) (f : VxF)
  /-- VMAX (R141). -/
  | vmax (p : Nat) (h : Hdr) (f : VxF)
  /-- VAMX (R141). -/
  | vamx (p : Nat) (h : Hdr) (f : VxF)
  /-- VCMP (R141). -/
  | vcmp (p : Nat) (h : Hdr) (f : VxF)
  /-- VSEL (R182). -/
  | vsel (p : Nat) (h : Hdr) (f : VxF)
  /-- VDIV (R140). -/
  | vdiv (p : Nat) (h : Hdr) (f : VxF)
  /-- VSQRT (R140). -/
  | vsqrt (p : Nat) (h : Hdr) (f : VxF)
  /-- VHSUM (R152). -/
  | vhsum (p : Nat) (h : Hdr) (f : VxF)
  /-- VHSSQ (R153). -/
  | vhssq (p : Nat) (h : Hdr) (f : VxF)
  /-- VHAMX (R141). -/
  | vhamx (p : Nat) (h : Hdr) (f : VxF)
  /-- VSPL (R182). -/
  | vspl (p : Nat) (h : Hdr) (f : VxF)
  /-- VCVT (R185). -/
  | vcvt (p : Nat) (h : Hdr) (f : VxF)
  /-- VRUPD (R157). -/
  | vrupd (p : Nat) (h : Hdr) (f : VxF)
  /-- VRCMB (R156). -/
  | vrcmb (p : Nat) (h : Hdr) (f : VxF)
  /-- VVARP (R158). -/
  | vvarp (p : Nat) (h : Hdr) (f : VxF)
  /-- VVARS (R158). -/
  | vvars (p : Nat) (h : Hdr) (f : VxF)
  /-- VRNG (R186). -/
  | vrng (p : Nat) (h : Hdr) (f : VxF)
  /-- VAND (R182). -/
  | vand (p : Nat) (h : Hdr) (f : VxF)
  /-- VOR (R182). -/
  | vor (p : Nat) (h : Hdr) (f : VxF)
  /-- VXOR (R182). -/
  | vxor (p : Nat) (h : Hdr) (f : VxF)
  /-- DTLD (R211). -/
  | dtld (p : Nat) (h : Hdr) (f : DtF)
  /-- DTCLR (R212). -/
  | dtclr (p : Nat) (h : Hdr) (f : DtF)
  /-- DTMAT (R213). -/
  | dtmat (p : Nat) (h : Hdr) (f : DtF)
  /-- DTSTR (R217). -/
  | dtstr (p : Nat) (h : Hdr) (f : DtF)
  /-- DTGAT (R223). -/
  | dtgat (p : Nat) (h : Hdr) (f : DtF)
  /-- DTGAT_CHECK (R229). -/
  | dtgatCheck (p : Nat) (h : Hdr) (f : DtF)
  /-- DTSCT (R232). -/
  | dtsct (p : Nat) (h : Hdr) (f : DtF)
  /-- DTSRT (R235). -/
  | dtsrt (p : Nat) (h : Hdr) (f : DtF)
  /-- DTCMP (R238). -/
  | dtcmp (p : Nat) (h : Hdr) (f : DtF)
  /-- DTEXP (R241). -/
  | dtexp (p : Nat) (h : Hdr) (f : DtF)
  /-- MCPY (R188). -/
  | mcpy (p : Nat) (h : Hdr) (f : MvF)
  /-- MSLD (R188). -/
  | msld (p : Nat) (h : Hdr) (f : MvF)
  /-- MSST (R188). -/
  | msst (p : Nat) (h : Hdr) (f : MvF)
  /-- MSEND (R190). -/
  | msend (p : Nat) (h : Hdr) (f : MvF)
  /-- MSRD (R189). -/
  | msrd (p : Nat) (h : Hdr) (f : MvF)
  /-- MSWR (R256). -/
  | mswr (p : Nat) (h : Hdr) (f : MvF)
  /-- MOVE_TRANSFER_DONE (R188). -/
  | moveTransferDone (p : Nat)
  /-- MSEND_DELIVERY (R190). -/
  | msendDelivery (p : Nat) (t : Nat)
  /-- WAITM (R37). -/
  | waitm (p : Nat) (h : Hdr) (f : WaitmF)
  /-- WAITR (R193). -/
  | waitr (p : Nat) (h : Hdr) (f : CtrF)
  /-- BARA (R199). -/
  | bara (p : Nat) (h : Hdr) (f : BarF)
  /-- BARW (R199). -/
  | barw (p : Nat) (h : Hdr) (f : BarF)
  /-- FENCE (R193). -/
  | fence (p : Nat) (h : Hdr)
  /-- LOOP (R197). -/
  | loop (p : Nat) (h : Hdr) (f : LoopF)
  /-- MSTR (R198). -/
  | mstr (p : Nat) (h : Hdr) (f : MstrF)
  /-- TREL (R200). -/
  | trel (p : Nat) (h : Hdr)
  /-- ENDSTEP (R201). -/
  | endstep (p : Nat) (h : Hdr)
  /-- LOGV (R202). -/
  | logv (p : Nat) (h : Hdr) (f : LogF)
  /-- RCSET (R190). -/
  | rcset (p : Nat) (h : Hdr) (f : CtrF)
  /-- SADD (R192). -/
  | sadd (p : Nat) (h : Hdr) (f : ScalF)
  /-- SSUB (R192). -/
  | ssub (p : Nat) (h : Hdr) (f : ScalF)
  /-- SMUL (R192). -/
  | smul (p : Nat) (h : Hdr) (f : ScalF)
  /-- SAND (R192). -/
  | sand (p : Nat) (h : Hdr) (f : ScalF)
  /-- SOR (R192). -/
  | sor (p : Nat) (h : Hdr) (f : ScalF)
  /-- SXOR (R192). -/
  | sxor (p : Nat) (h : Hdr) (f : ScalF)
  /-- SSHL (R192). -/
  | sshl (p : Nat) (h : Hdr) (f : ScalF)
  /-- SSHR (R192). -/
  | sshr (p : Nat) (h : Hdr) (f : ScalF)
  /-- SCEQ (R192). -/
  | sceq (p : Nat) (h : Hdr) (f : ScalF)
  /-- SCLT (R192). -/
  | sclt (p : Nat) (h : Hdr) (f : ScalF)
  /-- SADDI (R192). -/
  | saddi (p : Nat) (h : Hdr) (f : ScalI)
  /-- SXORI (R192). -/
  | sxori (p : Nat) (h : Hdr) (f : ScalI)
  /-- SLI (R192). -/
  | sli (p : Nat) (h : Hdr) (f : ScalI)
  /-- SLUI (R192). -/
  | slui (p : Nat) (h : Hdr) (f : ScalI)
  /-- SLD (R192). -/
  | sld (p : Nat) (h : Hdr) (f : ScalI)
  /-- SST (R192). -/
  | sst (p : Nat) (h : Hdr) (f : ScalI)
  /-- SRD (R176). -/
  | srd (p : Nat) (h : Hdr) (f : ScalI)
  /-- LOAD_COMPLETE (R171). -/
  | loadComplete (p : Nat)
  /-- COLUMN_ENTER (R102). -/
  | columnEnter (p : Nat)
  /-- REGION_CLEAR_DONE (R74). -/
  | regionClearDone (p : Nat)
  /-- EPI_ATTEMPT_DONE (R118). -/
  | epiAttemptDone (p : Nat)
  /-- SCATTER_RECORD_TAKEN (R233). -/
  | scatterRecordTaken (p : Nat) (bank : Nat)
  /-- DOVETAIL_DONE (R221). -/
  | dovetailDone (p : Nat)
  /-- SPAD_PROMOTE (R68). -/
  | spadPromote (p : Nat) (req : Nat) (bank : Nat) (n : Nat)
  /-- SLOT_RELEASE (R200). -/
  | slotRelease (p : Nat)
  /-- ENDSTEP_RESTART (R175). -/
  | endstepRestart (p : Nat)
  /-- MARK_STALL (R41). -/
  | markStall (p : Nat)
  /-- SEG_OVERRUN (R46). -/
  | segOverrun (p : Nat) (len : Nat)
  /-- WATCHDOG_EXPIRY (R433). -/
  | watchdogExpiry (p : Nat)
  /-- BIST_PASS (R432). -/
  | bistPass (p : Nat) (ok : Bool) (ended : Bool)
  /-- CORE_MEMORY_ERROR (R86). -/
  | coreMemoryError (p : Nat) (mem : Nat) (ue : Bool)
  /-- ECC_LIMIT (R431). -/
  | eccLimit (p : Nat)
  /-- SYNC_LINK_TIMEOUT (R431). -/
  | syncLinkTimeout (p : Nat)
  /-- SISTERING (R437). -/
  | sistering (p : Nat)
  /-- ROLE_SWITCH (R439). -/
  | roleSwitch (p : Nat)
  /-- PLANK_ISSUE (R26). -/
  | plankIssue (l : Nat)
  /-- STACK_PLANK_READ (R28). -/
  | stackPlankRead (role : Nat) (plank : Nat)
  /-- PLANK_START (R334). -/
  | plankStart (p : Nat) (pl : Nat)
  /-- FORWARD_BEAT (R333). -/
  | forwardBeat (p : Nat) (pl : Nat) (b : Nat)
  /-- CONFIRM (R416). -/
  | confirm (p : Nat) (pl : Nat)
  /-- DENY (R428). -/
  | deny (p : Nat) (pl : Nat)
  /-- ROLLBACK (R428). -/
  | rollback (p : Nat)
  /-- RELEASE_COUNT_UPDATE (R336). -/
  | releaseCountUpdate (l : Nat) (half : Nat) (p : Nat) (count : Nat)
  /-- RETURN_BAND_FILL (R342). -/
  | returnBandFill (p : Nat)
  /-- RETURN_BEAT (R343). -/
  | returnBeat (p : Nat)
  /-- LANDING_EXA_ADD (R273). -/
  | landingExaAdd (l : Nat) (half : Nat)
  /-- RING_GROUP_FORWARD (R276). -/
  | ringGroupForward (l : Nat) (obj : Nat) (g : Nat)
  /-- OWNER_ROUNDING (R279). -/
  | ownerRounding (l : Nat)
  /-- LUU_UPDATE (R292). -/
  | luuUpdate (l : Nat)
  /-- GLOBAL_MARK_UPDATE (R39). -/
  | globalMarkUpdate (l : Nat) (role : Nat) (pos : Nat)
  /-- GLOBAL_MARK (R40). -/
  | globalMark (target : Nat) (crossing : Nat) (plank : Nat)
  /-- BAR_ARRIVE (R361). -/
  | barArrive (hub : Nat) (ctr : Nat) (who : Nat)
  /-- BAR_DONE (R361). -/
  | barDone (unit : Nat) (scope : Bool) (ctr : Nat) (count : Nat)
  /-- FENCE_NOTICE (R360). -/
  | fenceNotice (bay : Nat) (idx : Nat)
  /-- ALARM (R434). -/
  | alarm (bay : Nat) (code : Nat) (detail : Nat)
  /-- FLIT_FORWARD (R349). -/
  | flitForward (p : Nat) (o : Nat)
  /-- MULTICAST_ESCAPE (R355). -/
  | multicastEscape (p : Nat) (o : Nat)
  /-- LINK_RETRY (R395). -/
  | linkRetry (p : Nat) (o : Nat)
  /-- COMMIT_READY (R314). -/
  | commitReady (l : Nat) (frame : Frame)
  /-- COMMIT_REPEAT (R314). -/
  | commitRepeat (l : Nat)
  /-- COMMIT_DONE (R314). -/
  | commitDone (l : Nat) (frame : Frame)
  /-- PLANK_FRAME (R374). -/
  | plankFrame (l : Nat) (frame : Frame)
  /-- FREIGHT (R375). -/
  | freight (l : Nat) (frame : Frame)
  /-- CREDIT (R371). -/
  | credit (l : Nat) (frame : Frame)
  /-- HOLD_FRAME (R387). -/
  | holdFrame (l : Nat) (frame : Frame)
  /-- HAIL (R380). -/
  | hail (l : Nat) (frame : Frame)
  /-- PROBE (R386). -/
  | probe (l : Nat) (frame : Frame)
  /-- BARRIER_FRAME (R393). -/
  | barrierFrame (l : Nat) (frame : Frame)
  /-- REGWRITE (R392). -/
  | regwrite (l : Nat) (frame : Frame)
  /-- REGREAD (R392). -/
  | regread (l : Nat) (frame : Frame)
  /-- SNAP_FRAME (R446). -/
  | snapFrame (l : Nat) (frame : Frame)
  /-- REVERTED (R453). -/
  | reverted (l : Nat) (frame : Frame)
  /-- BAD_FRAME (R370). -/
  | badFrame (l : Nat) (frame : Frame)
  /-- FRAME_LOSS (R380). -/
  | frameLoss (x : LossAt)
  /-- NAK_REPEAT (R380). -/
  | nakRepeat (l : Nat)
  /-- HAIL_ACK_DUE (R381). -/
  | hailAckDue (l : Nat)
  /-- REPLAY_TIMEOUT (R382). -/
  | replayTimeout (l : Nat)
  /-- HAIL_IDLE (R385). -/
  | hailIdle (l : Nat)
  /-- HOLD (R387). -/
  | hold (l : Nat) (vc : Nat) (cause : Nat) (bay : Nat)
  /-- PARTNER_LOST (R390). -/
  | partnerLost (l : Nat)
  /-- LANE_GROUP_DOWN (R367). -/
  | laneGroupDown (l : Nat) (g : Nat)
  /-- LINK_TRAINED (R367). -/
  | linkTrained (l : Nat) (g : Nat)
  /-- FRAME_SEND (R383). -/
  | frameSend (l : Nat)
  /-- STACK_ACCESS (R401). -/
  | stackAccess (bay : Nat) (x : ChAccess)
  /-- STACK_CHANNEL_LOST (R402). -/
  | stackChannelLost (bay : Nat) (ch : Nat)
  /-- STACK_REPAIR (R407). -/
  | stackRepair (bay : Nat) (ch : Nat) (row : Nat)
  /-- STACK_UE (R409). -/
  | stackUe (bay : Nat) (ch : Nat) (addr : Nat) (master : Nat)
  /-- PATROL_SCRUB (R406). -/
  | patrolScrub (bay : Nat) (ch : Nat) (row : Nat) (err : Nat)
  /-- STACK_REFRESH (R410). -/
  | stackRefresh (bay : Nat) (ch : Nat)
  /-- STACK_THERMAL (R411). -/
  | stackThermal (bay : Nat) (temp : Int)
  /-- BAY_LOSS (R442). -/
  | bayLoss (bay : Nat)
  /-- SUPPLY_TRIP (R462). -/
  | supplyTrip (bay : Nat) (rail : Nat)
  /-- PHASE_LOST (R461). -/
  | phaseLost (bay : Nat) (phase : Nat)
  /-- BUS_CONVERTER_LOST (R461). -/
  | busConverterLost (bay : Nat) (conv : Nat)
  /-- CURRENT_GUARD (R467). -/
  | currentGuard (bay : Nat) (ma : Nat)
  /-- DROOP (R468). -/
  | droop (bay : Nat) (mv : Nat)
  /-- CRACK_SUSPECT (R469). -/
  | crackSuspect (bay : Nat) (g : Nat)
  /-- PACE_CHANGE (R464). -/
  | paceChange (bay : Nat)
  /-- HDR_STAGE (R470). -/
  | hdrStage (p : Nat)
  /-- HDR_DEFER (R471). -/
  | hdrDefer (p : Nat)
  /-- SPARE_DAILY_TEST (R473). -/
  | spareDailyTest (p : Nat) (ok : Bool)
  /-- JUNCTION_SAMPLE (R477). -/
  | junctionSample (bay : Nat) (temp : Int) (hot : Nat)
  /-- POWER_GUARD (R459). -/
  | powerGuard (w54 : Nat) (w12 : Nat)
  /-- COOLANT_MONITOR (R479). -/
  | coolantMonitor (wf : Nat) (pf : Nat) (wi : Nat) (pi : Nat)
  /-- INPUT_LOST (R458). -/
  | inputLost (kind : Nat) (n : Nat)
  /-- CLOCK_FAILOVER (R475). -/
  | clockFailover (bay : Nat)
  /-- BOARD_FAILOVER (R482). -/
  | boardFailover (x : BoardOut)
  /-- BOARD_READY (R483). -/
  | boardReady (b : Nat)
  /-- BOARD_RESET (R528). -/
  | boardReset (b : Nat)
  /-- START_UP_TEST (R531). -/
  | startUpTest (fails : List (Nat × Nat))
  /-- STACK_TRAINING (R533). -/
  | stackTraining (bay : Nat) (ch : Nat) (ok : Bool)
  /-- LANDING_TRAINING (R534). -/
  | landingTraining (l : Nat) (groups : Nat)
  /-- JOB_LOAD (R58). -/
  | jobLoad (b : Nat) (n : Nat) (data : Option (List Byte))
  /-- JOB_START (R490). -/
  | jobStart (b : Nat) (n : Nat) (data : Option (List Byte))
  /-- JOB_HOLD (R490). -/
  | jobHold (b : Nat) (n : Nat)
  /-- JOB_RELEASE (R490). -/
  | jobRelease (b : Nat) (n : Nat)
  /-- JOB_DIRECT (R492). -/
  | jobDirect (b : Nat) (n : Nat)
  /-- JOB_STOP (R490). -/
  | jobStop (b : Nat) (n : Nat)
  /-- JOB_ALTERNATE (R490). -/
  | jobAlternate (b : Nat) (n : Nat) (data : Option (List Byte))
  /-- CORE_FENCE (R490). -/
  | coreFence (b : Nat) (n : Nat)
  /-- CORE_QUERY (R490). -/
  | coreQuery (b : Nat) (n : Nat)
  /-- BAY_SPARES (R490). -/
  | baySpares (b : Nat) (n : Nat)
  /-- BAY_QUERY (R490). -/
  | bayQuery (b : Nat) (n : Nat)
  /-- STACK_MAPOUT (R403). -/
  | stackMapout (b : Nat) (n : Nat)
  /-- STACK_QUERY (R490). -/
  | stackQuery (b : Nat) (n : Nat)
  /-- LANDING_ACCEPT (R388). -/
  | landingAccept (b : Nat) (n : Nat)
  /-- LANDING_RETAKE (R391). -/
  | landingRetake (b : Nat) (n : Nat)
  /-- LANDING_HOLD (R490). -/
  | landingHold (b : Nat) (n : Nat)
  /-- LANDING_RELEASE (R490). -/
  | landingRelease (b : Nat) (n : Nat)
  /-- LANDING_RETRAIN (R490). -/
  | landingRetrain (b : Nat) (n : Nat)
  /-- POWER_PACE (R490). -/
  | powerPace (b : Nat) (n : Nat)
  /-- POWER_CEILING (R490). -/
  | powerCeiling (b : Nat) (n : Nat)
  /-- POWER_LIMIT (R490). -/
  | powerLimit (b : Nat) (n : Nat)
  /-- SNAP_NOW (R490). -/
  | snapNow (b : Nat) (n : Nat)
  /-- SNAP_RESTORE (R490). -/
  | snapRestore (b : Nat) (n : Nat)
  /-- QUERY_STATUS (R490). -/
  | queryStatus (b : Nat) (n : Nat)
  /-- QUERY_IDENTITY (R490). -/
  | queryIdentity (b : Nat) (n : Nat)
  /-- QUERY_CAPACITY (R490). -/
  | queryCapacity (b : Nat) (n : Nat)
  /-- FW_STAGE (R504). -/
  | fwStage (b : Nat) (n : Nat) (data : Option (List Byte))
  /-- FW_ACTIVATE (R539). -/
  | fwActivate (b : Nat) (n : Nat)
  /-- FW_HANDOVER (R482). -/
  | fwHandover (b : Nat) (n : Nat)
  /-- INJECT_LANDING (R394). -/
  | injectLanding (b : Nat) (n : Nat)
  /-- INJECT_LINK (R395). -/
  | injectLink (b : Nat) (n : Nat)
  /-- INJECT_FAILURE (R490). -/
  | injectFailure (b : Nat) (n : Nat)
  /-- DOORBELL (R487). -/
  | doorbell (b : Nat) (n : Nat)
  /-- MAILBOX_WRITE (R486). -/
  | mailboxWrite (b : Nat) (off : Nat) (bytes : List Byte)
  /-- EVQ_CONS (R496). -/
  | evqCons (b : Nat) (v : W32)
  /-- EVQ_CTRL (R495). -/
  | evqCtrl (b : Nat) (v : W32)
  /-- EVQ_COALESCE_TIMER (R497). -/
  | evqCoalesceTimer (b : Nat)
  /-- BAR_ACCESS (R485). -/
  | barAccess (b : Nat) (bar : Nat) (off : Nat) (rw : Bool) (size : Nat) (data : List Byte)
  /-- SMBUS_READ (R551). -/
  | smbusRead (b : Nat) (off : Nat)
  /-- TIME_IN_EDGE (R526). -/
  | timeInEdge (b : Nat)
  /-- CORE_RUN (R207). -/
  | coreRun (p : Nat) (v : Bool)
  /-- CORE_STEP (R207). -/
  | coreStep (p : Nat)
  /-- ISTORE_DATA (R85). -/
  | istoreData (p : Nat) (wr : Option W32)
  /-- TAP_CTRL (R80). -/
  | tapCtrl (p : Nat) (v : W32)
  /-- GREEN_CTRL (R423). -/
  | greenCtrl (p : Nat) (v : W32)
  /-- STACK_MAPOUT_REQUEST (R403). -/
  | stackMapoutRequest (bay : Nat) (v : W32)
  /-- MEMORY_WINDOW (R510). -/
  | memoryWindow (master : Nat) (p : Nat) (off : Nat) (size : Nat) (wr : Option Nat)
  /-- TIMER_START (R520). -/
  | timerStart (p : Nat)
  /-- WINDOW_END (R520). -/
  | windowEnd (p : Nat)
  /-- TIMER_CLAIM (R521). -/
  | timerClaim (p : Nat)
  /-- BW_CTRL (R522). -/
  | bwCtrl (addr : Nat) (v : W32)
  /-- BW_WINDOW_END (R522). -/
  | bwWindowEnd (addr : Nat)
  /-- RC_READ (R17). -/
  | rcRead (addr : Nat)
  /-- REGISTER_WRITE (R17). -/
  | registerWrite (addr : Nat) (v : W32) (master : Nat)
  /-- RESULT_LANDS (R150). -/
  | resultLands (p : Nat)
  /-- REVERT_REPEAT (R454). -/
  | revertRepeat (l : Nat)
  /-- INPUT_RESTORED (R550). -/
  | inputRestored (kind : Nat) (n : Nat)
  /-- INPUT_OUT_OF_RANGE (R548). -/
  | inputOutOfRange (kind : Nat) (out : Bool)
  /-- BOARD_INSERTED (R483). -/
  | boardInserted (b : Nat) (fwok : Bool)
  /-- BIST_PASS_START (R432). -/
  | bistPassStart (p : Nat)
  /-- RETURN_OBJECT_START (R343). -/
  | returnObjectStart (half : Nat)
  /-- GREEN_FRAME_LATE (R379). -/
  | greenFrameLate (l : Nat)
  /-- CORE_SUPPLY_FAULT (R431). -/
  | coreSupplyFault (p : Nat)
  /-- TIMER_CLAIM_END (R521). -/
  | timerClaimEnd (p : Nat)
  /-- INJECTED_DELAY_END (R394). -/
  | injectedDelayEnd (l : Nat)
  /-- HEARTBEAT (R481). -/
  | heartbeat (b : Nat)
  /-- PLL_LOCK (R529). -/
  | pllLock (bay : Nat)
  /-- WATCH_EVALUATION (R305). -/
  | watchEvaluation
  /-- FORMAT_SELECTION (R311). -/
  | formatSelection
  /-- ROOT_FAILOVER (R363). -/
  | rootFailover
  /-- CROSSING_END (R44). -/
  | crossingEnd
  /-- STEP_BOUNDARY (R61). -/
  | stepBoundary
  /-- COMMIT_DECISION (R315). -/
  | commitDecision
  /-- COMMIT_STALLED (R314). -/
  | commitStalled
  /-- SNAP_GUARD_WRITE (R447). -/
  | snapGuardWrite
  /-- SNAPSHOT (R446). -/
  | snapshot
  /-- RESTORE (R454). -/
  | restore
  /-- LOSS_COMPARE (R455). -/
  | lossCompare
  /-- RISK_SAMPLE (R450). -/
  | riskSample
  /-- MODULE_RESET (R528). -/
  | moduleReset
  /-- POWER_ON (R529). -/
  | powerOn
  /-- BAY_ENABLE (R530). -/
  | bayEnable
  /-- NO_54V_RESUME (R545). -/
  | no54vResume
  /-- READY (R535). -/
  | ready
  /-- EVENT_DELIVERY (R495). -/
  | eventDelivery
  deriving DecidableEq, Repr, Inhabited

end Sys2Proof
end

