-- ==== Sys2Proof/Decode.lean ====
section
/-! DEFINITION. Decoding: no row of the opcode table has bits, so no word spells a command; and the bundles of the instruction store, decoded and encoded by Tables 7.1 to 7.14. -/

namespace Sys2Proof

/-- The command a word spells by the table's bits: the table gives no row any bits. -/
def decodeTableWord (_nbits _w : Nat) : Option Instr := none

/-- A 48-bit slot value (R166). -/
abbrev Slot := BitVec 48

/-- A bundle: header and five slots (Table 7.1). -/
structure Bundle where
  hdr : BitVec 16
  ar : Slot
  vx : Slot
  dt : Slot
  mv : Slot
  ct : Slot
  deriving DecidableEq, Repr, Inhabited

/-- The fields of a header that act on issue (Table 7.2). -/
def decodeHdr (h : BitVec 16) : Hdr :=
  { group := h.getLsbD 5, predReg := h.extractLsb' 6 5, predEn := h.getLsbD 11, predNeg := h.getLsbD 12 }

/-- A header from its VALID bits and fields; reserved bits 0 (Table 7.2). -/
def encodeHdr (valid : BitVec 5) (h : Hdr) : BitVec 16 :=
  (0 : BitVec 3) ++ BitVec.ofBool h.predNeg ++ BitVec.ofBool h.predEn ++ h.predReg ++ BitVec.ofBool h.group ++ valid

/-- A bundle from its 32 bytes, byte n holding bits [8n+7:8n] (R166, Table 7.1). -/
def bundleOf (n : Nat) : Bundle :=
  let w := BitVec.ofNat 256 n
  { hdr := w.extractLsb' 0 16, ar := w.extractLsb' 16 48, vx := w.extractLsb' 64 48, dt := w.extractLsb' 112 48,
    mv := w.extractLsb' 160 48, ct := w.extractLsb' 208 48 }

/-- The number of a bundle's 32 bytes. -/
def Bundle.toNat (b : Bundle) : Nat := (b.ct ++ b.mv ++ b.dt ++ b.vx ++ b.ar ++ b.hdr).toNat

/-- The opcode of a slot, bits [47:42] (R167). -/
def Slot.op (w : Slot) : Nat := (w.extractLsb' 42 6).toNat

/-- LdF fields of a slot value. -/
def LdF.ofSlot (w : Slot) : LdF :=
  { xb := w.extractLsb' 38 4, xp := w.extractLsb' 34 4, xs := w.extractLsb' 30 4, rows := w.extractLsb' 23 7, fmt := w.extractLsb' 19 4, inc := w.getLsbD 18 }
/-- The slot value of an opcode with LdF fields, reserved bits 0. -/
def LdF.toSlot (op : BitVec 6) (f : LdF) : Slot :=
  op ++ f.xb ++ f.xp ++ f.xs ++ f.rows ++ f.fmt ++ BitVec.ofBool f.inc ++ (0 : BitVec 18)

/-- StrmF fields of a slot value. -/
def StrmF.ofSlot (w : Slot) : StrmF :=
  { xsrc := w.extractLsb' 38 4, n := w.extractLsb' 26 12, fmt := w.extractLsb' 22 4, a := w.extractLsb' 10 12, form := w.getLsbD 9, ssrc := w.getLsbD 8, xsc := w.extractLsb' 4 4 }
/-- The slot value of an opcode with StrmF fields, reserved bits 0. -/
def StrmF.toSlot (op : BitVec 6) (f : StrmF) : Slot :=
  op ++ f.xsrc ++ f.n ++ f.fmt ++ f.a ++ BitVec.ofBool f.form ++ BitVec.ofBool f.ssrc ++ f.xsc ++ (0 : BitVec 4)

/-- StrdF fields of a slot value. -/
def StrdF.ofSlot (w : Slot) : StrdF :=
  { sn := w.extractLsb' 37 5, fmt := w.extractLsb' 33 4, a := w.extractLsb' 21 12, form := w.getLsbD 20 }
/-- The slot value of an opcode with StrdF fields, reserved bits 0. -/
def StrdF.toSlot (op : BitVec 6) (f : StrdF) : Slot :=
  op ++ f.sn ++ f.fmt ++ f.a ++ BitVec.ofBool f.form ++ (0 : BitVec 20)

/-- EpiF fields of a slot value. -/
def EpiF.ofSlot (w : Slot) : EpiF :=
  { xd := w.extractLsb' 38 4, off := w.extractLsb' 30 8 }
/-- The slot value of an opcode with EpiF fields, reserved bits 0. -/
def EpiF.toSlot (op : BitVec 6) (f : EpiF) : Slot :=
  op ++ f.xd ++ f.off ++ (0 : BitVec 30)

/-- SclrF fields of a slot value. -/
def SclrF.ofSlot (w : Slot) : SclrF :=
  { reg := w.extractLsb' 36 6, cnt := w.extractLsb' 30 6 }
/-- The slot value of an opcode with SclrF fields, reserved bits 0. -/
def SclrF.toSlot (op : BitVec 6) (f : SclrF) : Slot :=
  op ++ f.reg ++ f.cnt ++ (0 : BitVec 30)

/-- SexpF fields of a slot value. -/
def SexpF.ofSlot (w : Slot) : SexpF :=
  { reg := w.extractLsb' 36 6, cnt := w.extractLsb' 32 4 }
/-- The slot value of an opcode with SexpF fields, reserved bits 0. -/
def SexpF.toSlot (op : BitVec 6) (f : SexpF) : Slot :=
  op ++ f.reg ++ f.cnt ++ (0 : BitVec 32)

/-- VxF fields of a slot value. -/
def VxF.ofSlot (w : Slot) : VxF :=
  { vd := w.extractLsb' 36 6, vs1 := w.extractLsb' 30 6, vs2 := w.extractLsb' 24 6, vs3 := w.extractLsb' 18 6, rnd := w.extractLsb' 16 2, ty := w.extractLsb' 14 2, ms := w.getLsbD 13, md := w.getLsbD 12, inc := w.getLsbD 11, sx := w.extractLsb' 6 5 }
/-- The slot value of an opcode with VxF fields, reserved bits 0. -/
def VxF.toSlot (op : BitVec 6) (f : VxF) : Slot :=
  op ++ f.vd ++ f.vs1 ++ f.vs2 ++ f.vs3 ++ f.rnd ++ f.ty ++ BitVec.ofBool f.ms ++ BitVec.ofBool f.md ++ BitVec.ofBool f.inc ++ f.sx ++ (0 : BitVec 6)

/-- DtF fields of a slot value. -/
def DtF.ofSlot (w : Slot) : DtF :=
  { xa := w.extractLsb' 38 4, xb := w.extractLsb' 34 4, xc := w.extractLsb' 30 4, sn := w.extractLsb' 25 5, mode := w.extractLsb' 21 4, a := w.extractLsb' 9 12, form := w.getLsbD 8 }
/-- The slot value of an opcode with DtF fields, reserved bits 0. -/
def DtF.toSlot (op : BitVec 6) (f : DtF) : Slot :=
  op ++ f.xa ++ f.xb ++ f.xc ++ f.sn ++ f.mode ++ f.a ++ BitVec.ofBool f.form ++ (0 : BitVec 8)

/-- MvF fields of a slot value. -/
def MvF.ofSlot (w : Slot) : MvF :=
  { xs := w.extractLsb' 38 4, xd := w.extractLsb' 34 4, len := w.extractLsb' 18 16, st := w.extractLsb' 13 5, ctr := w.extractLsb' 9 4, cls := w.extractLsb' 7 2, inc := w.getLsbD 6, form := w.getLsbD 5 }
/-- The slot value of an opcode with MvF fields, reserved bits 0. -/
def MvF.toSlot (op : BitVec 6) (f : MvF) : Slot :=
  op ++ f.xs ++ f.xd ++ f.len ++ f.st ++ f.ctr ++ f.cls ++ BitVec.ofBool f.inc ++ BitVec.ofBool f.form ++ (0 : BitVec 5)

/-- WaitmF fields of a slot value. -/
def WaitmF.ofSlot (w : Slot) : WaitmF :=
  { kind := w.extractLsb' 40 2, role := w.getLsbD 39, lm := w.extractLsb' 35 4, base := w.extractLsb' 0 32 }
/-- The slot value of an opcode with WaitmF fields, reserved bits 0. -/
def WaitmF.toSlot (op : BitVec 6) (f : WaitmF) : Slot :=
  op ++ f.kind ++ BitVec.ofBool f.role ++ f.lm ++ (0 : BitVec 3) ++ f.base

/-- CtrF fields of a slot value. -/
def CtrF.ofSlot (w : Slot) : CtrF :=
  { ctr := w.extractLsb' 38 4, value := w.extractLsb' 0 32 }
/-- The slot value of an opcode with CtrF fields, reserved bits 0. -/
def CtrF.toSlot (op : BitVec 6) (f : CtrF) : Slot :=
  op ++ f.ctr ++ (0 : BitVec 6) ++ f.value

/-- BarF fields of a slot value. -/
def BarF.ofSlot (w : Slot) : BarF :=
  { scope := w.getLsbD 41, bctr := w.extractLsb' 35 6 }
/-- The slot value of an opcode with BarF fields, reserved bits 0. -/
def BarF.toSlot (op : BitVec 6) (f : BarF) : Slot :=
  op ++ BitVec.ofBool f.scope ++ f.bctr ++ (0 : BitVec 35)

/-- LoopF fields of a slot value. -/
def LoopF.ofSlot (w : Slot) : LoopF :=
  { lvl := w.extractLsb' 40 2, count := w.extractLsb' 16 24, body := w.extractLsb' 3 13 }
/-- The slot value of an opcode with LoopF fields, reserved bits 0. -/
def LoopF.toSlot (op : BitVec 6) (f : LoopF) : Slot :=
  op ++ f.lvl ++ f.count ++ f.body ++ (0 : BitVec 3)

/-- MstrF fields of a slot value. -/
def MstrF.ofSlot (w : Slot) : MstrF :=
  { lvl := w.extractLsb' 40 2, stride := w.extractLsb' 0 32 }
/-- The slot value of an opcode with MstrF fields, reserved bits 0. -/
def MstrF.toSlot (op : BitVec 6) (f : MstrF) : Slot :=
  op ++ f.lvl ++ (0 : BitVec 8) ++ f.stride

/-- ScalF fields of a slot value. -/
def ScalF.ofSlot (w : Slot) : ScalF :=
  { d := w.extractLsb' 36 6, a := w.extractLsb' 30 6, b := w.extractLsb' 24 6 }
/-- The slot value of an opcode with ScalF fields, reserved bits 0. -/
def ScalF.toSlot (op : BitVec 6) (f : ScalF) : Slot :=
  op ++ f.d ++ f.a ++ f.b ++ (0 : BitVec 24)

/-- ScalI fields of a slot value. -/
def ScalI.ofSlot (w : Slot) : ScalI :=
  { d := w.extractLsb' 36 6, a := w.extractLsb' 30 6, imm := w.extractLsb' 0 30 }
/-- The slot value of an opcode with ScalI fields, reserved bits 0. -/
def ScalI.toSlot (op : BitVec 6) (f : ScalI) : Slot :=
  op ++ f.d ++ f.a ++ f.imm

/-- LogF fields of a slot value. -/
def LogF.ofSlot (w : Slot) : LogF :=
  { a := w.extractLsb' 30 6, tag := w.extractLsb' 0 16 }
/-- The slot value of an opcode with LogF fields, reserved bits 0. -/
def LogF.toSlot (op : BitVec 6) (f : LogF) : Slot :=
  op ++ (0 : BitVec 6) ++ f.a ++ (0 : BitVec 14) ++ f.tag

/-- The operation of a AR slot, for core p; none for NOP and for a reserved opcode (Tables 7.7 to 7.14). -/
def decodeAr (p : Nat) (h : Hdr) (w : Slot) : Option Instr :=
  match w.op with
  | 1 => some (.lds p h (LdF.ofSlot w))
  | 2 => some (.ldst p h (LdF.ofSlot w))
  | 3 => some (.strm p h (StrmF.ofSlot w))
  | 4 => some (.strd p h (StrdF.ofSlot w))
  | 5 => some (.epi p h (EpiF.ofSlot w))
  | 6 => some (.sclr p h (SclrF.ofSlot w))
  | 7 => some (.sexp p h (SexpF.ofSlot w))
  | _ => none

/-- The operation of a VX slot, for core p; none for NOP and for a reserved opcode (Tables 7.7 to 7.14). -/
def decodeVx (p : Nat) (h : Hdr) (w : Slot) : Option Instr :=
  match w.op with
  | 1 => some (.vmov p h (VxF.ofSlot w))
  | 2 => some (.vadd p h (VxF.ofSlot w))
  | 3 => some (.vsub p h (VxF.ofSlot w))
  | 4 => some (.vmul p h (VxF.ofSlot w))
  | 5 => some (.vfma p h (VxF.ofSlot w))
  | 6 => some (.vfnma p h (VxF.ofSlot w))
  | 7 => some (.vmin p h (VxF.ofSlot w))
  | 8 => some (.vmax p h (VxF.ofSlot w))
  | 9 => some (.vamx p h (VxF.ofSlot w))
  | 10 => some (.vcmp p h (VxF.ofSlot w))
  | 11 => some (.vsel p h (VxF.ofSlot w))
  | 12 => some (.vdiv p h (VxF.ofSlot w))
  | 13 => some (.vsqrt p h (VxF.ofSlot w))
  | 14 => some (.vhsum p h (VxF.ofSlot w))
  | 15 => some (.vhssq p h (VxF.ofSlot w))
  | 16 => some (.vhamx p h (VxF.ofSlot w))
  | 17 => some (.vspl p h (VxF.ofSlot w))
  | 18 => some (.vcvt p h (VxF.ofSlot w))
  | 19 => some (.vrupd p h (VxF.ofSlot w))
  | 20 => some (.vrcmb p h (VxF.ofSlot w))
  | 21 => some (.vvarp p h (VxF.ofSlot w))
  | 22 => some (.vvars p h (VxF.ofSlot w))
  | 23 => some (.vrng p h (VxF.ofSlot w))
  | 24 => some (.vand p h (VxF.ofSlot w))
  | 25 => some (.vor p h (VxF.ofSlot w))
  | 26 => some (.vxor p h (VxF.ofSlot w))
  | _ => none

/-- The operation of a DT slot, for core p; none for NOP and for a reserved opcode (Tables 7.7 to 7.14). -/
def decodeDt (p : Nat) (h : Hdr) (w : Slot) : Option Instr :=
  match w.op with
  | 1 => some (.dtld p h (DtF.ofSlot w))
  | 2 => some (.dtclr p h (DtF.ofSlot w))
  | 3 => some (.dtmat p h (DtF.ofSlot w))
  | 4 => some (.dtstr p h (DtF.ofSlot w))
  | 5 => some (.dtgat p h (DtF.ofSlot w))
  | 6 => some (.dtsct p h (DtF.ofSlot w))
  | 7 => some (.dtsrt p h (DtF.ofSlot w))
  | 8 => some (.dtcmp p h (DtF.ofSlot w))
  | 9 => some (.dtexp p h (DtF.ofSlot w))
  | _ => none

/-- The operation of a MV slot, for core p; none for NOP and for a reserved opcode (Tables 7.7 to 7.14). -/
def decodeMv (p : Nat) (h : Hdr) (w : Slot) : Option Instr :=
  match w.op with
  | 1 => some (.mcpy p h (MvF.ofSlot w))
  | 2 => some (.msld p h (MvF.ofSlot w))
  | 3 => some (.msst p h (MvF.ofSlot w))
  | 4 => some (.msend p h (MvF.ofSlot w))
  | 5 => some (.msrd p h (MvF.ofSlot w))
  | 6 => some (.mswr p h (MvF.ofSlot w))
  | _ => none

/-- The operation of a CT slot, for core p; none for NOP and for a reserved opcode (Tables 7.7 to 7.14). -/
def decodeCt (p : Nat) (h : Hdr) (w : Slot) : Option Instr :=
  match w.op with
  | 1 => some (.waitm p h (WaitmF.ofSlot w))
  | 2 => some (.waitr p h (CtrF.ofSlot w))
  | 3 => some (.bara p h (BarF.ofSlot w))
  | 4 => some (.barw p h (BarF.ofSlot w))
  | 5 => some (.fence p h)
  | 6 => some (.loop p h (LoopF.ofSlot w))
  | 7 => some (.mstr p h (MstrF.ofSlot w))
  | 8 => some (.trel p h)
  | 9 => some (.endstep p h)
  | 10 => some (.logv p h (LogF.ofSlot w))
  | 11 => some (.rcset p h (CtrF.ofSlot w))
  | 16 => some (.sadd p h (ScalF.ofSlot w))
  | 17 => some (.ssub p h (ScalF.ofSlot w))
  | 18 => some (.smul p h (ScalF.ofSlot w))
  | 19 => some (.sand p h (ScalF.ofSlot w))
  | 20 => some (.sor p h (ScalF.ofSlot w))
  | 21 => some (.sxor p h (ScalF.ofSlot w))
  | 22 => some (.sshl p h (ScalF.ofSlot w))
  | 23 => some (.sshr p h (ScalF.ofSlot w))
  | 24 => some (.sceq p h (ScalF.ofSlot w))
  | 25 => some (.sclt p h (ScalF.ofSlot w))
  | 26 => some (.saddi p h (ScalI.ofSlot w))
  | 27 => some (.sxori p h (ScalI.ofSlot w))
  | 28 => some (.sli p h (ScalI.ofSlot w))
  | 29 => some (.slui p h (ScalI.ofSlot w))
  | 30 => some (.sld p h (ScalI.ofSlot w))
  | 31 => some (.sst p h (ScalI.ofSlot w))
  | 32 => some (.srd p h (ScalI.ofSlot w))
  | _ => none

/-- The slot (0 AR, 1 VX, 2 DT, 3 MV, 4 CT) and slot value of an operation a bundle can hold; none for any other command. -/
def encodeSlot (i : Instr) : Option (Nat × Slot) :=
  match i with
  | .lds _ _ f => some (0, f.toSlot 1)
  | .ldst _ _ f => some (0, f.toSlot 2)
  | .strm _ _ f => some (0, f.toSlot 3)
  | .strd _ _ f => some (0, f.toSlot 4)
  | .epi _ _ f => some (0, f.toSlot 5)
  | .sclr _ _ f => some (0, f.toSlot 6)
  | .sexp _ _ f => some (0, f.toSlot 7)
  | .vmov _ _ f => some (1, f.toSlot 1)
  | .vadd _ _ f => some (1, f.toSlot 2)
  | .vsub _ _ f => some (1, f.toSlot 3)
  | .vmul _ _ f => some (1, f.toSlot 4)
  | .vfma _ _ f => some (1, f.toSlot 5)
  | .vfnma _ _ f => some (1, f.toSlot 6)
  | .vmin _ _ f => some (1, f.toSlot 7)
  | .vmax _ _ f => some (1, f.toSlot 8)
  | .vamx _ _ f => some (1, f.toSlot 9)
  | .vcmp _ _ f => some (1, f.toSlot 10)
  | .vsel _ _ f => some (1, f.toSlot 11)
  | .vdiv _ _ f => some (1, f.toSlot 12)
  | .vsqrt _ _ f => some (1, f.toSlot 13)
  | .vhsum _ _ f => some (1, f.toSlot 14)
  | .vhssq _ _ f => some (1, f.toSlot 15)
  | .vhamx _ _ f => some (1, f.toSlot 16)
  | .vspl _ _ f => some (1, f.toSlot 17)
  | .vcvt _ _ f => some (1, f.toSlot 18)
  | .vrupd _ _ f => some (1, f.toSlot 19)
  | .vrcmb _ _ f => some (1, f.toSlot 20)
  | .vvarp _ _ f => some (1, f.toSlot 21)
  | .vvars _ _ f => some (1, f.toSlot 22)
  | .vrng _ _ f => some (1, f.toSlot 23)
  | .vand _ _ f => some (1, f.toSlot 24)
  | .vor _ _ f => some (1, f.toSlot 25)
  | .vxor _ _ f => some (1, f.toSlot 26)
  | .dtld _ _ f => some (2, f.toSlot 1)
  | .dtclr _ _ f => some (2, f.toSlot 2)
  | .dtmat _ _ f => some (2, f.toSlot 3)
  | .dtstr _ _ f => some (2, f.toSlot 4)
  | .dtgat _ _ f => some (2, f.toSlot 5)
  | .dtsct _ _ f => some (2, f.toSlot 6)
  | .dtsrt _ _ f => some (2, f.toSlot 7)
  | .dtcmp _ _ f => some (2, f.toSlot 8)
  | .dtexp _ _ f => some (2, f.toSlot 9)
  | .mcpy _ _ f => some (3, f.toSlot 1)
  | .msld _ _ f => some (3, f.toSlot 2)
  | .msst _ _ f => some (3, f.toSlot 3)
  | .msend _ _ f => some (3, f.toSlot 4)
  | .msrd _ _ f => some (3, f.toSlot 5)
  | .mswr _ _ f => some (3, f.toSlot 6)
  | .waitm _ _ f => some (4, f.toSlot 1)
  | .waitr _ _ f => some (4, f.toSlot 2)
  | .bara _ _ f => some (4, f.toSlot 3)
  | .barw _ _ f => some (4, f.toSlot 4)
  | .fence _ _ => some (4, (5 : BitVec 6) ++ (0 : BitVec 42))
  | .loop _ _ f => some (4, f.toSlot 6)
  | .mstr _ _ f => some (4, f.toSlot 7)
  | .trel _ _ => some (4, (8 : BitVec 6) ++ (0 : BitVec 42))
  | .endstep _ _ => some (4, (9 : BitVec 6) ++ (0 : BitVec 42))
  | .logv _ _ f => some (4, f.toSlot 10)
  | .rcset _ _ f => some (4, f.toSlot 11)
  | .sadd _ _ f => some (4, f.toSlot 16)
  | .ssub _ _ f => some (4, f.toSlot 17)
  | .smul _ _ f => some (4, f.toSlot 18)
  | .sand _ _ f => some (4, f.toSlot 19)
  | .sor _ _ f => some (4, f.toSlot 20)
  | .sxor _ _ f => some (4, f.toSlot 21)
  | .sshl _ _ f => some (4, f.toSlot 22)
  | .sshr _ _ f => some (4, f.toSlot 23)
  | .sceq _ _ f => some (4, f.toSlot 24)
  | .sclt _ _ f => some (4, f.toSlot 25)
  | .saddi _ _ f => some (4, f.toSlot 26)
  | .sxori _ _ f => some (4, f.toSlot 27)
  | .sli _ _ f => some (4, f.toSlot 28)
  | .slui _ _ f => some (4, f.toSlot 29)
  | .sld _ _ f => some (4, f.toSlot 30)
  | .sst _ _ f => some (4, f.toSlot 31)
  | .srd _ _ f => some (4, f.toSlot 32)
  | _ => none

/-- Decodes slot k of a bundle. -/
def decodeSlot (k p : Nat) (h : Hdr) (w : Slot) : Option Instr :=
  match k with
  | 0 => decodeAr p h w
  | 1 => decodeVx p h w
  | 2 => decodeDt p h w
  | 3 => decodeMv p h w
  | _ => decodeCt p h w

/-- The valid slots of a bundle that hold an operation or a reserved opcode, with their numbers: an opcode of 0 is NOP, and a slot
whose VALID bit is 0 is ignored (R167). none stands for a reserved opcode. -/
def Bundle.slots (b : Bundle) (p : Nat) : List (Nat × Option Instr) :=
  let h := decodeHdr b.hdr
  ([b.ar, b.vx, b.dt, b.mv, b.ct].zipIdx.filter (fun e => b.hdr.getLsbD e.2 && e.1.op != 0)).map (fun e => (e.2, decodeSlot e.2 p h e.1))

end Sys2Proof
end

