-- ==== Sys2Proof/Config.lean ====
section
/-! DEFINITION. Free values: what the spec leaves open, as constants without a body, so that nothing can be proved about them. -/

namespace Sys2Proof

/-- GELU in its tanh form of an FP32 code, for the finite nonzero inputs that R114 gives no exact result for, as far as it lies within R114's bound (log entry 5). -/
opaque Config.gelu : W32 → W32

/-- SiLU of an FP32 code, for the finite nonzero inputs that R114 gives no exact result for, as far as it lies within R114's bound (log entry 5). -/
opaque Config.silu : W32 → W32

/-- A byte that the spec leaves open, drawn by State.freeCtr (log entry 5). -/
opaque Config.freeByte : Nat → Byte

/-- The weight of link (from, to) when firmware chooses the n-th spanning tree of the escape routes: the least weighted link joins the
tree first, so some weights give every spanning tree (R353, log entry 5). -/
opaque Config.linkWeight : Nat → Nat → Nat → Nat

/-- The input position n steps after the position p that JOB_START named; the spec gives no unit for it and no advance (log entry 5). -/
opaque Config.inputAt : Nat → Nat → Nat

/-- The mirror format that a firmware body declares to write and the oldest it reads (R538); the spec gives no layout of a body (log entry 5). -/
opaque Config.fwMirror : List Byte → Nat × Nat

/-- Bytes of a row of a stack channel; the spec gives no row size (log entry 5). -/
opaque Config.rowBytes : Nat

/-- The bank of a row of a stack channel; the spec gives no bank layout (log entry 5). -/
opaque Config.bankOf : Nat → Nat

/-- The byte that JOB_HALTED carries for its reason: 1 a program fault, 2 RESTORE_FAILED; the spec gives the reasons no codes (R491, log
entry 14). -/
opaque Config.haltReason : Nat → Byte

/-- The byte that BOARD_FAILOVER carries for its cause, in the order of R482 from 0; the spec gives the causes no codes (log entry 14). -/
opaque Config.failoverCause : Nat → Byte

/-- The byte that PACE_CEILING carries for the ceiling that set the pace: 1 host, 2 phase, 3 thermal, 4 module; the spec gives the
ceilings no codes (R463, log entry 14). -/
opaque Config.ceilingCode : Nat → Byte

/-- The resistance that the n-th calibration of a start-up found for a bump group of a bay; the spec gives the measurement no numbers (R469,
log entry 5). -/
opaque Config.crackOhm : Nat → Nat → Nat → Nat

/-- The scratchpad lines that a core's arbiter refuses in the clk of a 10 ns tick; the model has no clk inside an operation (R67, Table 20.13,
log entries 5 and 6). -/
opaque Config.refusedLines : Nat → Nat → Nat

/-- The TAG that a master chooses for a control network access, of its number, the address and the OP (Table 13.8, log entry 5). -/
opaque Config.cnTag : Nat → Nat → Nat → BitVec 12

/-- What JOB_STOP answers as the last committed step of a job that has committed none (Table 19.7, log entry 5). -/
opaque Config.noCommittedStep : BitVec 64

end Sys2Proof
end

