-- ==== Sys2Proof/Machine/Flags.lean ====
section
/-! DEFINITION. Number formats, rounding and flags (R124 to R145): every value is decoded to an exact dyadic number, computed exactly and rounded once. Flag sets are FP_STATUS bit masks (Table 5.5). -/

namespace Sys2Proof.Machine

/-- The exact value of an encoding: NaN, a signed infinity, or (-1)^neg * m * 2^e. -/
inductive Num where
  | nan
  | inf (neg : Bool)
  | fin (neg : Bool) (m : Nat) (e : Int)
  deriving DecidableEq, Repr, Inhabited

/-- What codes above the largest finite value mean (Table 5.1). -/
inductive Specials where
  | ieee   -- exponent all ones: mantissa 0 infinity, else NaN
  | e4m3   -- only the all-ones code is NaN, no infinity
  | none   -- no infinity and no NaN
  deriving DecidableEq, Repr, Inhabited

/-- A floating element format (Table 5.1). -/
structure Fmt where
  width : Nat
  eb : Nat
  mb : Nat
  bias : Nat
  sp : Specials
  deriving DecidableEq, Repr, Inhabited

def fFP32 : Fmt := ⟨32, 8, 23, 127, .ieee⟩
def fBF16 : Fmt := ⟨16, 8, 7, 127, .ieee⟩
def fFP16 : Fmt := ⟨16, 5, 10, 15, .ieee⟩
def fE4M3 : Fmt := ⟨8, 4, 3, 7, .e4m3⟩
def fE5M2 : Fmt := ⟨8, 5, 2, 15, .ieee⟩
def fE2M3 : Fmt := ⟨6, 2, 3, 1, .none⟩
def fE3M2 : Fmt := ⟨6, 3, 2, 3, .none⟩
def fE2M1 : Fmt := ⟨4, 2, 1, 1, .none⟩

/-- The magnitude code of the largest finite value (Table 5.1). -/
def Fmt.maxCode (f : Fmt) : Nat :=
  match f.sp with
  | .ieee => (2 ^ f.eb - 1) * 2 ^ f.mb - 1
  | .e4m3 => 2 ^ (f.eb + f.mb) - 2
  | .none => 2 ^ (f.eb + f.mb) - 1

/-- The canonical NaN of a format (R127). -/
def Fmt.nanCode (f : Fmt) : Nat :=
  match f.sp with
  | .ieee => (2 ^ f.eb - 1) * 2 ^ f.mb + 2 ^ (f.mb - 1)
  | .e4m3 => 2 ^ (f.eb + f.mb) - 1
  | .none => 0

/-- The sign bit of a format. -/
def Fmt.signCode (f : Fmt) (neg : Bool) : Nat := if neg then 2 ^ (f.eb + f.mb) else 0

/-- The infinity code of a format that has one. -/
def Fmt.infCode (f : Fmt) (neg : Bool) : Nat := f.signCode neg + (2 ^ f.eb - 1) * 2 ^ f.mb

/-- The value an encoding has (R124). -/
def Fmt.decode (f : Fmt) (code : Nat) : Num :=
  let neg := bit code (f.eb + f.mb)
  let ex := bits code (f.eb + f.mb - 1) f.mb
  let mant := code % 2 ^ f.mb
  let finite := if ex = 0 then Num.fin neg mant (1 - (f.bias : Int) - f.mb)
    else Num.fin neg (2 ^ f.mb + mant) ((ex : Int) - f.bias - f.mb)
  match f.sp with
  | .ieee => if ex = 2 ^ f.eb - 1 then (if mant = 0 then .inf neg else .nan) else finite
  | .e4m3 => if code % 2 ^ (f.eb + f.mb) = 2 ^ (f.eb + f.mb) - 1 then .nan else finite
  | .none => finite

/-- INT8 as an exact value. -/
def int8Num (code : Nat) : Num :=
  let i := signed 8 code
  .fin (decide (i < 0)) i.natAbs 0

/-- Rounding modes (Table 5.4), by code. -/
inductive Rnd where
  | rne | rtz | rup | rdn
  deriving DecidableEq, Repr, Inhabited

def Rnd.ofCode (c : Nat) : Rnd :=
  match c % 4 with
  | 0 => .rne
  | 1 => .rtz
  | 2 => .rup
  | _ => .rdn

/-- m / 2^k as an integer, rounded in the mode for a value of the given sign. -/
def roundShift (mode : Rnd) (neg : Bool) (m : Nat) (k : Int) : Nat :=
  if k ≤ 0 then m * 2 ^ (-k).toNat
  else
    let kn := k.toNat
    let q := m / 2 ^ kn
    let rem := m % 2 ^ kn
    let half := 2 ^ (kn - 1)
    let up := match mode with
      | .rne => decide (half < rem) || (rem == half && q % 2 == 1)
      | .rtz => false
      | .rup => rem != 0 && !neg
      | .rdn => rem != 0 && neg
    if up then q + 1 else q

/-- Whether m / 2^k is not an integer. -/
def lossy (m : Nat) (k : Int) : Bool := if k ≤ 0 then false else m % 2 ^ k.toNat != 0

/-- A rounded magnitude: its code, and whether it overflowed, was tiny, was inexact (R133). -/
structure Rounded where
  code : Nat
  tooBig : Bool
  tiny : Bool
  inexact : Bool
  deriving DecidableEq, Repr

/-- Rounds the nonzero magnitude m * 2^e once to the format (R131, R133); over says that the unbounded result exceeds the
largest finite value. -/
def roundMag (f : Fmt) (mode : Rnd) (neg : Bool) (m : Nat) (e : Int) : Rounded :=
  let top : Int := (Nat.log2 m : Int) + e
  let qn : Int := top - f.mb
  let qmin : Int := 1 - (f.bias : Int) - f.mb
  let mn := roundShift mode neg m (qn - e)
  -- tiny: after rounding with unbounded exponent the magnitude is below 2^(1 - bias)
  let tiny := decide (qn < qmin) && !(mn == 2 ^ (f.mb + 1) && qn + 1 == qmin)
  if qn < qmin then
    let ms := roundShift mode neg m (qmin - e)
    ⟨ms, decide (f.maxCode < ms), tiny, lossy m (qmin - e)⟩
  else
    let code := ((qn - qmin).toNat) * 2 ^ f.mb + mn
    ⟨code, decide (f.maxCode < code), false, lossy m (qn - e)⟩

/-- FP_STATUS bits (Table 5.5). -/
abbrev Fl := BitVec 8
def flInvalid : Fl := 1
def flDivZero : Fl := 2
def flOverflow : Fl := 4
def flUnderflow : Fl := 8
def flInexact : Fl := 16
def flSaturate : Fl := 32
def flNanIn : Fl := 64
def flScaleNan : Fl := 128

/-- A result code and the flags of its case. -/
abbrev FR := Nat × Fl

/-- A NaN result with flags. -/
def frNan (f : Fmt) (fl : Fl) : FR := (f.nanCode, fl)

/-- A zero of the given sign. -/
def zeroCode (f : Fmt) (neg : Bool) : Nat := f.signCode neg

/-- Overflow of a target that has infinity (R133). -/
def overCode (f : Fmt) (mode : Rnd) (neg : Bool) : Nat :=
  let toInf := match mode with
    | .rne => true
    | .rtz => false
    | .rup => !neg
    | .rdn => neg
  if toInf then f.infCode neg else f.signCode neg + f.maxCode

/-- Rounds an exact finite value to an arithmetic target, FP32 or BF16, with the last five rows of Table 5.8. -/
def roundFin (f : Fmt) (mode : Rnd) (neg : Bool) (m : Nat) (e : Int) : FR :=
  if m = 0 then (zeroCode f neg, 0)
  else
    let r := roundMag f mode neg m e
    if r.tooBig then (overCode f mode neg, flOverflow ||| flInexact)
    else (f.signCode neg + r.code,
      (if r.inexact then flInexact else 0) ||| (if r.tiny && r.inexact then flUnderflow else 0))

/-- Exact product of two finite values. -/
def mulFin (a b : Bool × Nat × Int) : Bool × Nat × Int := (a.1 != b.1, a.2.1 * b.2.1, a.2.2 + b.2.2)

/-- A finite value as a signed integer over 2^e, for e no greater than its own exponent. -/
def scaledInt (neg : Bool) (m : Nat) (e at_ : Int) : Int :=
  let v : Int := (m * 2 ^ (e - at_).toNat : Nat)
  if neg then -v else v

/-- The exact sum of two finite values as (negative, magnitude, exponent); a zero sum has magnitude 0. -/
def addFin (a b : Bool × Nat × Int) : Bool × Nat × Int :=
  let e := min a.2.2 b.2.2
  let s := scaledInt a.1 a.2.1 a.2.2 e + scaledInt b.1 b.2.1 b.2.2 e
  (decide (s < 0), s.natAbs, e)

/-- The sign of an exact zero sum (R139). -/
def zeroSumSign (mode : Rnd) (a b : Bool × Nat × Int) : Bool :=
  if a.2.1 = 0 ∧ b.2.1 = 0 ∧ a.1 = b.1 then a.1 else mode == .rdn

/-- Rounds a product-plus-addend of finite terms (Table 5.8, R139). -/
def sumRound (f : Fmt) (mode : Rnd) (p c : Bool × Nat × Int) : FR :=
  let s := addFin p c
  if s.2.1 = 0 then (zeroCode f (zeroSumSign mode p c), 0) else roundFin f mode s.1 s.2.1 s.2.2

/-- a + c (Table 5.8). -/
def fpAdd (f : Fmt) (mode : Rnd) (a c : Num) : FR :=
  match a, c with
  | .nan, _ => frNan f flNanIn
  | _, .nan => frNan f flNanIn
  | .inf x, .inf y => if x = y then (f.infCode x, 0) else frNan f flInvalid
  | .inf x, _ => (f.infCode x, 0)
  | _, .inf y => (f.infCode y, 0)
  | .fin n m e, .fin n' m' e' => sumRound f mode (n, m, e) (n', m', e')

/-- The value with its sign turned round. -/
def Num.neg : Num → Num
  | .nan => .nan
  | .inf n => .inf (!n)
  | .fin n m e => .fin (!n) m e

/-- The magnitude of a value. -/
def Num.abs : Num → Num
  | .nan => .nan
  | .inf _ => .inf false
  | .fin _ m e => .fin false m e

/-- a × b (Table 5.8). -/
def fpMul (f : Fmt) (mode : Rnd) (a b : Num) : FR :=
  match a, b with
  | .nan, _ => frNan f flNanIn
  | _, .nan => frNan f flNanIn
  | .inf x, .inf y => (f.infCode (x != y), 0)
  | .inf x, .fin y m _ => if m = 0 then frNan f flInvalid else (f.infCode (x != y), 0)
  | .fin x m _, .inf y => if m = 0 then frNan f flInvalid else (f.infCode (x != y), 0)
  | .fin n m e, .fin n' m' e' => let p := mulFin (n, m, e) (n', m', e'); roundFin f mode p.1 p.2.1 p.2.2

/-- Whether a × b is infinity × 0. -/
def infTimesZero : Num → Num → Bool
  | .inf _, .fin _ m _ => m == 0
  | .fin _ m _, .inf _ => m == 0
  | _, _ => false

/-- The exact product of two values neither NaN nor infinity × 0. -/
def mulNum : Num → Num → Num
  | .nan, _ => .nan
  | _, .nan => .nan
  | .inf x, .inf y => .inf (x != y)
  | .inf x, .fin y m _ => if m = 0 then .nan else .inf (x != y)
  | .fin x m _, .inf y => if m = 0 then .nan else .inf (x != y)
  | .fin n m e, .fin n' m' e' => .fin (n != n') (m * m') (e + e')

/-- a × b + c with one rounding (Table 5.8, first matching row). -/
def fpFma (f : Fmt) (mode : Rnd) (a b c : Num) : FR :=
  if infTimesZero a b then frNan f (flInvalid ||| (if c = .nan then flNanIn else 0))
  else if a = .nan ∨ b = .nan ∨ c = .nan then frNan f flNanIn
  else fpAdd f mode (mulNum a b) c

/-- x / y (Table 5.9). The quotient keeps 64 bits beyond the target and a sticky bit, so that it rounds once. -/
def fpDiv (f : Fmt) (mode : Rnd) (x y : Num) : FR :=
  match x, y with
  | .nan, _ => frNan f flNanIn
  | _, .nan => frNan f flNanIn
  | .inf _, .inf _ => frNan f flInvalid
  | .inf a, .fin b _ _ => (f.infCode (a != b), 0)
  | .fin a _ _, .inf b => (zeroCode f (a != b), 0)
  | .fin a m e, .fin b m' e' =>
    if m' = 0 then (if m = 0 then frNan f flInvalid else (f.infCode (a != b), flDivZero))
    else if m = 0 then (zeroCode f (a != b), 0)
    else
      let sh : Nat := 128
      let q := (m * 2 ^ sh) / m'
      let st := if (m * 2 ^ sh) % m' = 0 then 0 else 1
      roundFin f mode (a != b) (2 * q + st) (e - e' - sh - 1)

/-- Integer square root by bisection over 2^k (structural). -/
def isqrtFrom (n : Nat) : Nat → Nat → Nat
  | 0, r => if (r + 1) * (r + 1) ≤ n then r + 1 else r
  | k + 1, r => let c := r + 2 ^ (k + 1); isqrtFrom n k (if c * c ≤ n then c else r)

/-- ⌊√n⌋ for n below 2^400. -/
def isqrt (n : Nat) : Nat := isqrtFrom n 200 0

/-- √x (Table 5.9). -/
def fpSqrt (f : Fmt) (mode : Rnd) (x : Num) : FR :=
  match x with
  | .nan => frNan f flNanIn
  | .inf true => frNan f flInvalid
  | .inf false => (f.infCode false, 0)
  | .fin neg m e =>
    if m = 0 then (zeroCode f neg, 0)
    else if neg then frNan f flInvalid
    else
      -- make the exponent even and widen to an exact root prefix plus a sticky bit
      let m1 := if e % 2 = 0 then m else 2 * m
      let e1 : Int := if e % 2 = 0 then e else e - 1
      let big := m1 * 2 ^ 128
      let r := isqrt big
      let st := if r * r = big then 0 else 1
      roundFin f mode false (2 * r + st) (e1 / 2 - 64 - 1)

/-- Comparison of two values that are not NaN: less, equal or greater, with +0 = −0. -/
def cmpNum (a b : Num) : Ordering :=
  match a, b with
  | .inf x, .inf y => if x = y then .eq else if x then .lt else .gt
  | .inf x, _ => if x then .lt else .gt
  | _, .inf y => if y then .gt else .lt
  | .fin n m e, .fin n' m' e' =>
    let at_ := min e e'
    compare (scaledInt n m e at_) (scaledInt n' m' e' at_)
  | _, _ => .eq

/-- The sign of a value, false for NaN. -/
def Num.isNeg : Num → Bool
  | .nan => false
  | .inf n => n
  | .fin n _ _ => n

/-- max of two encodings (Table 5.10): max(+0, −0) is +0. -/
def fpMax (f : Fmt) (x y : Nat) : FR :=
  let a := f.decode x
  let b := f.decode y
  if a = .nan ∨ b = .nan then frNan f flNanIn
  else match cmpNum a b with
    | .lt => (y, 0)
    | .gt => (x, 0)
    | .eq => (if a.isNeg then y else x, 0)

/-- min of two encodings (Table 5.10): min(+0, −0) is −0. -/
def fpMin (f : Fmt) (x y : Nat) : FR :=
  let a := f.decode x
  let b := f.decode y
  if a = .nan ∨ b = .nan then frNan f flNanIn
  else match cmpNum a b with
    | .lt => (x, 0)
    | .gt => (y, 0)
    | .eq => (if a.isNeg then x else y, 0)

/-- Largest magnitude, made positive (Table 5.10). -/
def fpAmax (f : Fmt) (x y : Nat) : FR :=
  let a := (f.decode x).abs
  let b := (f.decode y).abs
  if a = .nan ∨ b = .nan then frNan f flNanIn
  else
    let pick := match cmpNum a b with
      | .lt => y
      | _ => x
    (pick % 2 ^ (f.eb + f.mb), 0)

/-- Compare conditions =, ≠, <, ≤, >, ≥ by RND and MODE code (R182): 0 equal, 1 not equal, 2 less, 3 less or equal,
4 greater, 5 greater or equal. -/
def cmpHolds (c : Nat) (o : Ordering) : Bool :=
  match c, o with
  | 0, .eq => true
  | 1, .lt => true
  | 1, .gt => true
  | 2, .lt => true
  | 3, .lt => true
  | 3, .eq => true
  | 4, .gt => true
  | 5, .gt => true
  | 5, .eq => true
  | _, _ => false

/-- One lane of a compare (Table 5.10): whether it holds, and NAN_IN when an operand is NaN. -/
def fpCmp (f : Fmt) (c : Nat) (x y : Nat) : Bool × Fl :=
  let a := f.decode x
  let b := f.decode y
  if a = .nan ∨ b = .nan then (c == 1, flNanIn) else (cmpHolds c (cmpNum a b), 0)

/-- Narrowing of a value to BF16, FP16, FP8 E4M3 or E5M2, and of an epilogue element to FP6 and FP4 (Table 5.11, R117). -/
def narrow (f : Fmt) (mode : Rnd) (x : Num) : FR :=
  match x with
  | .nan => (f.nanCode, flNanIn)
  | .inf n => if f.sp = .ieee then (f.infCode n, 0) else (f.nanCode, flInvalid)
  | .fin n m e =>
    if m = 0 then (zeroCode f n, 0)
    else
      let r := roundMag f mode n m e
      if r.tooBig then
        (if f.width = 16 ∨ f.width = 32 then (overCode f mode n, flOverflow ||| flInexact)
         else (f.signCode n + f.maxCode, flSaturate ||| flInexact))
      else (f.signCode n + r.code,
        (if r.inexact then flInexact else 0) ||| (if r.tiny && r.inexact then flUnderflow else 0))

/-- The flags an exact or widening conversion keeps (R142): NaN sources set NAN_IN, range overflow sets OVERFLOW and INEXACT. -/
def widen (f : Fmt) (mode : Rnd) (x : Num) : FR := narrow f mode x

/-- An MX element under its E8M0 scale (R126). -/
def mxNum (f : Fmt) (code scale : Nat) : Num :=
  if scale = 255 then .nan
  else match f.decode code with
    | .fin n m e => .fin n m (e + (scale : Int) - 127)
    | x => x

/-- Conversion to INT8 (Table 5.12). -/
def toInt8 (mode : Rnd) (x : Num) : FR :=
  match x with
  | .nan => (0, flInvalid ||| flNanIn)
  | .inf false => (127, flInvalid)
  | .inf true => (128, flInvalid)
  | .fin n m e =>
    let r := roundShift mode n m (-e)
    let inex := lossy m (-e)
    if n then
      if 128 < r then (128, flSaturate ||| flInexact) else (wrapInt 8 (-(r : Int)), if inex then flInexact else 0)
    else
      if 127 < r then (127, flSaturate ||| flInexact) else (r, if inex then flInexact else 0)

/-- Stochastic rounding to a format with infinity by a 16-bit draw (R132): the code and whether it overflowed. -/
def roundSR (f : Fmt) (draw : Nat) (x : Num) : Nat × Bool :=
  match x with
  | .nan => (f.nanCode, false)
  | .inf n => (f.infCode n, false)
  | .fin n m e =>
    if m = 0 then (zeroCode f n, false)
    else
      let qmin : Int := 1 - (f.bias : Int) - f.mb
      let q : Int := max ((Nat.log2 m : Int) + e - f.mb) qmin
      -- |x| / 2^(q - 16), exact when e ≥ q - 16, else over a common finer unit
      let unit : Int := min e (q - 16)
      let tot := m * 2 ^ (e - unit).toNat + draw * 2 ^ (q - 16 - unit).toNat
      let exact := !(lossy m (q - e))
      let k := (q - unit).toNat
      let r := if exact then (m * 2 ^ (e - unit).toNat) / 2 ^ k else tot / 2 ^ k
      let code := (q - qmin).toNat * 2 ^ f.mb + r
      if f.maxCode < code then (f.infCode n, true) else (f.signCode n + code, false)

/-- FP32 of an unsigned count, RNE (R156, R160). -/
def countFp32 (n : Nat) : Nat := (roundFin fFP32 .rne false n 0).1

/-- FP32 addition with RNE as the adder tree and the sill do it (Table 5.7). -/
def add32 (a b : Nat) : Nat := (fpAdd fFP32 .rne (fFP32.decode a) (fFP32.decode b)).1

/-- One level of an adjacent-pair tree. -/
def pairUp (op : Nat → Nat → FR) : List Nat → List Nat × Fl
  | x :: y :: rest =>
    let r := op x y
    let t := pairUp op rest
    (r.1 :: t.1, r.2 ||| t.2)
  | [x] => ([x], 0)
  | [] => ([], 0)

/-- A fixed tree of k levels over the lanes (R152). -/
def treeFold (op : Nat → Nat → FR) : Nat → List Nat → Fl → List Nat × Fl
  | 0, xs, fl => (xs, fl)
  | k + 1, xs, fl => let t := pairUp op xs; treeFold op k t.1 (fl ||| t.2)

/-- The n lanes of width w of a register, lane 0 first (R146). -/
def lanes (w n : Nat) (v : Nat) : List Nat := (List.range n).map (fun i => (v >>> (w * i)) % 2 ^ w)

/-- A register from its lanes of width w, lane 0 first. -/
def unlanes (w : Nat) : List Nat → Nat
  | [] => 0
  | x :: xs => x % 2 ^ w + 2 ^ w * unlanes w xs

/-- Applies a lane operation to up to three lane lists, gathering flags. -/
def mapLanes (op : Nat → Nat → Nat → FR) : List Nat → List Nat → List Nat → List Nat × Fl
  | a :: as, b :: bs, c :: cs =>
    let r := op a b c
    let t := mapLanes op as bs cs
    (r.1 :: t.1, r.2 ||| t.2)
  | _, _, _ => ([], 0)

/-- BF16 code widened to FP32 (R142, R149). -/
def bf16To32 (x : Nat) : Nat :=
  match fBF16.decode x with
  | .nan => fFP32.nanCode
  | _ => x * 65536

/-- One lane of a record combine (R156), counts as exact numbers: (mean, M2) and flags. -/
def recLane (nf nbf naf mua m2a mub m2b : Nat) : Nat × Nat × Fl :=
  let f := fFP32
  let d := f.decode
  let delta := fpAdd f .rne (d mub) (d mua).neg
  let fr := fpDiv f .rne (d nbf) (d nf)
  let mu := fpFma f .rne (d delta.1) (d fr.1) (d mua)
  let g := fpMul f .rne (d naf) (d fr.1)
  let t := fpMul f .rne (d delta.1) (d g.1)
  let s := fpAdd f .rne (d m2a) (d m2b)
  let m2 := fpFma f .rne (d t.1) (d delta.1) (d s.1)
  (mu.1, m2.1, delta.2 ||| fr.2 ||| mu.2 ||| g.2 ||| t.2 ||| s.2 ||| m2.2)

/-- Applies recLane across lanes. -/
def recLanes (nf nbf naf : Nat) : List Nat → List Nat → List Nat → List Nat → List Nat × List Nat × Fl
  | a :: as, b :: bs, c :: cs, e :: es =>
    let r := recLane nf nbf naf a b c e
    let t := recLanes nf nbf naf as bs cs es
    (r.1 :: t.1, r.2.1 :: t.2.1, r.2.2 ||| t.2.2)
  | _, _, _, _ => ([], [], 0)

end Sys2Proof.Machine
end

