-- ==== Sys2Proof/Machine/State.lean ====
section
/-! DEFINITION. The state of the module as plain data: cores, routers, bays, landings, girts, job, boards and the whole register space, with the queue of commands, the reasons a command can stop, and the state after reset. -/

namespace Sys2Proof.Machine

/-- Scoreboard footprint of an operation in flight (R87, Table 3.13): granules and regions it will read and write, and the
registers it will write (0–63 V, 64–95 S, 96–111 X); the tap slots it reads (R81); the green log lines it has reserved (R425); the
granules and regions among gw and rw that it overwrites whole (R203). -/
structure Foot where
  gr : List Nat := []
  gw : List Nat := []
  rr : List Nat := []
  rw : List Nat := []
  regs : List Nat := []
  sl : List Nat := []
  lines : Nat := 0
  gwAll : List Nat := []
  rwAll : List Nat := []
  deriving DecidableEq, Repr, Inhabited

/-- The stationary tile (R93): element codes of the 128 rows, each row packed with element k at bit w*k; scale codes of each
row, block q at bits [8q+7:8q]. -/
structure Tile where
  fmt : Nat
  rows : Nat
  els : List Nat
  scs : List Nat
  deriving DecidableEq, Repr, Inhabited

/-- An operation of the multiply unit: kind 0 LDS, 1 LDST, 2 STRM, 3 STRD, 4 SCLR. -/
structure MulOp where
  kind : Nat
  base : Nat := 0
  pitch : Nat := 0
  scale : Nat := 0
  rows : Nat := 0
  fmt : Nat := 0
  n : Nat := 0
  a : Nat := 0
  acc : Bool := false
  expl : Bool := false
  next : Nat := 0
  touched : List Nat := []
  reg : Nat := 0
  cnt : Nat := 0
  ser : Nat := 0
  mask : Mask := 0
  pt : Nat := 0
  foot : Foot := {}
  deriving DecidableEq, Repr, Inhabited

/-- An epilogue operation with its descriptor as read at issue (R113, Table 4.5) and the attempt in hand. -/
structure EpiOp where
  addr : Nat
  sillBase : Nat
  cols : Nat
  rows : Nat
  fmt : Nat
  act : Nat
  d : Int
  outA : Nat
  scA : Nat
  bias : Option Nat
  mult : Option Nat
  maskA : Option Nat
  perRow : Bool
  scalarMult : Bool
  step : Nat
  attempt : Nat
  bundle : Nat
  ser : Nat := 0
  mask : Mask := 0
  pt : Nat := 0
  foot : Foot := {}
  deriving DecidableEq, Repr, Inhabited

/-- A vector-engine result, or an SLD load or SST store, that has not landed (R150). -/
structure VRes where
  eng : Nat := 2
  regs : List (Nat × Nat) := []
  spad : List (Nat × List Byte) := []
  fl : BitVec 8 := 0
  vs : Nat := 0
  mask : Mask := 0
  pt : Nat := 0
  foot : Foot := {}
  deriving DecidableEq, Repr, Inhabited

/-- A dovetail descriptor (Table 8.2). -/
structure DtDesc where
  kLen : Nat
  fmt : Nat
  tap : Bool
  pitch : Nat
  scA : Nat
  scStride : Nat
  maskA : Nat
  outSc : Nat
  deriving DecidableEq, Repr, Inhabited

/-- A dovetail operation: opc is its opcode (Table 7.10); n is S[SN] at issue; prog counts columns placed or records distributed; begun
tells that a scatter has counted its chunks (R234). The descriptor at xc is read when it starts executing (R215). -/
structure DtOp where
  opc : Nat
  xa : Nat
  xb : Nat
  xc : Nat := 0
  n : Nat
  sn : Nat
  mode : Nat
  a : Nat
  acc : Bool
  desc : Option DtDesc
  prog : Nat := 0
  begun : Bool := false
  mask : Mask := 0
  pt : Nat := 0
  foot : Foot := {}
  deriving DecidableEq, Repr, Inhabited

/-- A compacted column of the array queue (R219, R221). -/
structure QCol where
  fmt : Nat
  els : List Nat
  scs : List Nat
  mask : Mask
  deriving DecidableEq, Repr, Inhabited

/-- A record in a bank's scatter queue (R233). -/
structure ScRec where
  bank : Nat
  addr : Nat
  val : Nat
  acc : Bool
  mask : Mask
  pt : Nat := 0
  deriving DecidableEq, Repr, Inhabited

/-- An open prediction entry (R228). -/
structure Pred where
  maskA : Nat
  kLen : Nat
  deriving DecidableEq, Repr, Inhabited

/-- A move transfer (R188): kind is its opcode (Table 7.12); dsts are targets still to be delivered, with flits outstanding. -/
structure Xfer where
  kind : Nat
  src : Nat
  dst : Nat
  lines : Nat
  acc : Bool
  cls : Nat := 0
  ctr : Nat := 0
  msg : Nat := 0
  left : Nat := 0
  dsts : List (Nat × Nat) := []
  mask : Mask := 0
  pt : Nat := 0
  foot : Foot := {}
  deriving DecidableEq, Repr, Inhabited

/-- One loop level (R197). -/
structure LoopSt where
  active : Bool := false
  start : Nat := 0
  last : Nat := 0
  count : Nat := 0
  idx : Nat := 0
  stride : Nat := 0
  deriving DecidableEq, Repr, Inhabited

/-- A tap slot (R79 to R82): what plank it holds, how many beats have entered, and where its release stands. -/
structure TapSlot where
  used : Bool := false
  role : Nat := 0
  plank : Nat := 0
  fmt : Nat := 0
  beats : Nat := 0
  green : Bool := false
  denied : Bool := false
  deriving DecidableEq, Repr, Inhabited

/-- A SEXP waiting to bind or bound to a plank (R181): regions first..first+cnt-1 in order. bufs holds the tap's band buffers by band: the
sill lines that a filled band was read from (R342); faulted says that its region count has been reported (R181, R206). -/
structure Export where
  reg : Nat
  cnt : Nat
  bundle : Nat
  plank : Option Nat := none
  bands : Nat := 0
  beats : Nat := 0
  pt : Nat := 0
  bufs : SMap Mem := []
  faulted : Bool := false
  deriving DecidableEq, Repr, Inhabited

/-- One entry of the green log (R422, R423): a scratchpad line (sill = false) or a sill image line, and the scratchpad address at_ in the
log area where its old bytes stand. -/
structure LogEnt where
  sill : Bool
  addr : Nat
  at_ : Nat
  deriving DecidableEq, Repr, Inhabited

/-- A rollback point (R419): shadow registers, loop state, the region state and fresh marks saved at first writes, the TRELs that had
issued before it (R429), and the log lines reserved since it was taken (R425). -/
structure Point where
  bundle : Nat
  v : SMap V2048
  s : SMap W64
  x : SMap W64
  loops : List LoopSt
  strides : List Nat
  seg : Nat
  segRole : Nat
  lastLoad : Option MulOp
  loadAfter : Bool := false
  log : List LogEnt := []
  regions : List (Nat × W32 × Bool) := []
  rel : Nat := 0
  res : Nat := 0
  deriving DecidableEq, Repr, Inhabited

/-- A mark (R32): crossing number and plank number. -/
abbrev Mark := Nat × Nat

/-- What a held bundle waits on (R37, R193): enough to evaluate the wait again and to name it in MARK_STALL. -/
inductive WaitFor where
  | none
  | mark (kind : Nat) (m : Mark)
  | recv (ctr : Nat) (value : Nat)
  | barrier (scope : Bool) (ctr : Nat)
  deriving DecidableEq, Repr, Inhabited

/-- The part of a core that belongs to one role and moves on a role switch (R439): memories, registers, loop state, match table,
marks and waits. -/
structure Ctx where
  role : Option Nat := none
  v : SMap V2048 := []
  s : SMap W64 := []
  x : SMap W64 := []
  spad : Mem := []
  sill : Mem := []
  istore : Mem := []
  regions : SMap W32 := []
  dtab : SMap (Nat × Nat) := []
  loops : List LoopSt := [{}, {}, {}, {}]
  strides : List Nat := [0, 0, 0, 0]
  pcReg : W32 := 0
  wait : WaitFor := .none
  relIssued : Nat := 0
  relDone : Nat := 0
  relCount : Nat := 0
  retM : Option Mark := none
  arrB : SMap Nat := []
  exports : List Export := []
  seg : Nat := 0
  segRole : Nat := 0
  endHold : Bool := false
  restart : Bool := false
  pcEnd : Bool := false
  bound : Nat := 0
  fresh : List Nat := []
  tile : Option Tile := none
  lastFmt : Option Nat := none
  lastLoad : Option MulOp := none
  dq : List QCol := []
  preds : List (Option Pred) := [none, none, none, none]
  deriving DecidableEq, Repr, Inhabited

/-- A core: everything of it that is not a register of its register blocks (R146, R147, R64, R71, R84, R93, R171, R197, R415). -/
structure Core where
  v : SMap V2048 := []
  s : SMap W64 := []
  x : SMap W64 := []
  spad : Mem := []
  sill : Mem := []
  istore : Mem := []
  roles : List Nat := []
  curRole : Option Nat := none
  stored : Option Ctx := none
  tile : Option Tile := none
  tileMask : Mask := 0
  lastFmt : Option Nat := none
  lastLoad : Option MulOp := none
  mulX : Option MulOp := none
  mulP : Option MulOp := none
  epiX : Option EpiOp := none
  epiP : Option EpiOp := none
  fresh : List Nat := []
  bist : Bool := false
  serial : Nat := 0
  raised : List Nat := []
  logWaited : Bool := false
  vpipe : List VRes := []
  dtab : SMap (Nat × Nat) := []
  dtX : Option DtOp := none
  dtP : Option DtOp := none
  dq : List QCol := []
  preds : List (Option Pred) := [none, none, none, none]
  scq : List ScRec := []
  xfers : List Xfer := []
  msgSeq : Nat := 0
  loops : List LoopSt := [{}, {}, {}, {}]
  strides : List Nat := [0, 0, 0, 0]
  arrB : SMap Nat := []
  doneB : SMap Nat := []
  endHold : Bool := false
  restart : Bool := false
  stalled : Bool := false
  pcEnd : Bool := false
  wait : WaitFor := .none
  arrM : Option Mark := none
  seaM : Option Mark := none
  retM : Option Mark := none
  gloM : Option Mark := none
  slots : SMap TapSlot := []
  nextFill : Nat := 0
  relIssued : Nat := 0
  relDone : Nat := 0
  relCount : Nat := 0
  noCopy : Bool := false
  part : Bool := false
  seen : Nat := 0
  bound : Nat := 0
  passing : Option (Nat × Nat × Nat) := none
  exports : List Export := []
  gv : SMap Mask := []
  gg : SMap Mask := []
  gr : SMap Mask := []
  openSrc : Mask := 0
  greenEv : List (Mask × Nat × List (Nat × Nat)) := []
  point : Option Point := none
  ptSeq : Nat := 0
  cntSince : List Bool := []
  suppress : List Bool := []
  rolling : Bool := false
  glogInForce : W32 := 0
  tapInForce : W32 := 0x2000
  seg : Nat := 0
  segRole : Nat := 0
  ceTimes : List Nat := []
  badTimes : List Nat := []
  deriving DecidableEq, Repr, Inhabited

/-- One value of the exact path (R263 to R267): cls 0 finite with value val * 2^-160, 1 NaN, 2 plus infinity, 3 minus infinity,
with the origin record of Table 10.3 for the last three; 4 a reserved window code (R268). The WCF encoding of the others is unique (R266). -/
structure XV where
  cls : Nat := 0
  val : Int := 0
  origin : Nat := 0xFFFF
  nanSeen : Bool := false
  deriving DecidableEq, Repr, Inhabited

/-- A plank-order entry (Table 2.12). -/
structure Entry where
  plank : Nat
  object : Nat
  offset : Nat
  halves : Nat
  role : Nat
  fmt : Nat
  owner : Nat
  grain : Nat
  source : Nat
  flags : Nat
  tagGroup : Nat
  variant : Nat
  stackAddr : Nat
  deriving DecidableEq, Repr, Inhabited

/-- A plank order: the landing's entries for one role and the barrier counter that starts its crossing (Table 2.11). -/
structure Order where
  startBar : Nat := 0
  entries : List Entry := []
  deriving DecidableEq, Repr, Inhabited

/-- A girt schedule (Tables 13.4 and 13.5); entries are (role, plank, flags, variant). -/
structure Sched where
  fwdLanding : Nat
  bwdLanding : Nat
  flags : Nat
  tapBase : Nat
  tapSlots : Nat
  fwd : List (Nat × Nat × Nat)
  bwd : List (Nat × Nat × Nat)
  deriving DecidableEq, Repr, Inhabited

/-- A layer tag group (Table 11.10). -/
structure TagGroup where
  program : Nat
  flags : Nat
  initCode : Nat
  initERef : Int
  rhoLo : Nat
  rhoHi : Nat
  rhoFloor : Nat
  ks : List Nat
  deriving DecidableEq, Repr, Inhabited

/-- An LUU program (Table 11.4). -/
structure Prog where
  count : Nat
  uses : Nat
  pass1 : Nat
  code : List Nat
  deriving DecidableEq, Repr, Inhabited

/-- LUU microcode (Tables 11.3 and 11.5). -/
structure Micro where
  progs : List Prog
  masterForm : Nat
  momentForm : Nat
  betaP1 : Nat
  betaP2 : Nat
  p1Init : Nat
  p2Init : Nat
  sched : List (Nat × Nat × Nat)
  deriving DecidableEq, Repr, Inhabited

/-- A ledger range (Table 10.12). -/
structure LedgerRange where
  first : Nat
  count : Nat
  base : Nat
  fmt : Nat
  owner : Nat
  deriving DecidableEq, Repr, Inhabited

/-- The ledger layout (Table 10.11). -/
structure Ledger where
  form : Nat
  escBase : List Nat
  escImages : Nat
  ranges : List LedgerRange
  deriving DecidableEq, Repr, Inhabited

/-- A variant (Table 12.2). -/
structure Variant where
  tag : Nat
  frozen : Bool
  first : Nat
  objects : Nat
  blockLen : Nat
  base : Nat
  copyLen : Nat
  deriving DecidableEq, Repr, Inhabited

/-- What one section of a manifest is: its table entry (Table 2.8) and its bytes. -/
structure Section where
  typ : Nat
  flags : Nat
  inst : Nat
  alt : Nat
  bytes : List Byte
  deriving DecidableEq, Repr, Inhabited

/-- A manifest that has passed its checks: header fields and sections (Tables 2.7 to 2.9). -/
structure Manifest where
  mid : List Byte
  logical : Nat
  fwdPlanks : Nat
  bwdPlanks : Nat
  thinN : Nat
  minSpares : Nat
  flags : Nat
  bayCores : List Nat
  altCount : Nat
  lat : List Nat
  secs : List Section
  deriving DecidableEq, Repr, Inhabited

/-- The manifest or alternate in use, with its sections parsed (R62, R555). -/
structure Loaded where
  man : Manifest
  alt : Nat
  logical : Nat
  place : List (Nat × Nat)
  orders : SMap Order := []
  scheds : SMap (Option Sched) := []
  micro : Option Micro := none
  groups : List TagGroup := []
  zeroRunK : Nat := 1
  tailLimit : Nat := 0
  statsOff : Nat := 0
  fmtOff : Nat := 0
  ledger : Option Ledger := none
  variants : List Variant := []
  assign : List Nat := []
  segs : SMap (List (Nat × Nat × Nat)) := []
  deriving DecidableEq, Repr, Inhabited

/-- A snapshot (R444, Table 17.7): its header fields, the image, what of it has been sent, and the pairs that have answered. ends gives each
guarded stack block with the image offset at which its part ends (R447). -/
structure Snap where
  number : Nat
  version : Nat
  alt : Nat
  step : Nat
  len : Nat
  image : List Byte := []
  sent : Nat := 0
  answered : List Nat := []
  via : SMap Nat := []
  again : List Nat := []
  ends : List (Nat × Nat) := []
  taken : Bool := false
  deriving DecidableEq, Repr, Inhabited

/-- A loss record (Table 17.20), with the attempt that logged it. -/
structure LossRec where
  step : Nat
  core : Nat
  tag : Nat
  value : Nat
  att : Nat := 0
  deriving DecidableEq, Repr, Inhabited

/-- A command that waits for the step boundary (R488): board, mailbox, code and host data; its arguments stand frozen in its slot. -/
structure Waiting where
  board : Nat
  slot : Nat
  code : Nat
  data : List Byte := []
  deriving DecidableEq, Repr, Inhabited

/-- The job as the active MP holds it (R480, Table 19.8). overwritten are the resident planks whose location holds another version than the
current one (R29); startSeen, by root counter, 1 + the completion on which landings began their forward orders (R42); rewritten those whose location the attempt has given the next version; lostPlanks those whose bay went dark or lost a channel (R30). lostIn gives, by step, 1 + the landing that lost input of
it (R331); lossAtt, by step, 1 + the attempt whose loss records stand for it; askLog says that the MP's copy of the loss log may lack steps,
as after a module reset (R455). -/
structure Job where
  st : Nat := 0
  step : Nat := 0
  firstStep : Nat := 0
  inputPos : Nat := 0
  version : Nat := 0
  attempt : Nat := 0
  attemptTop : SMap Nat := []
  seedLo : Nat := 0
  seedHi : Nat := 0
  jobPace : Nat := 0
  carry : List (Nat × Nat) := []
  loaded : Option Loaded := none
  nextLoad : Option Loaded := none
  holding : Bool := false
  holdStep : Option Nat := none
  between : Bool := false
  haltDue : Nat := 0
  crossing : Option Nat := none
  startCount : Nat × Nat := (64, 0)
  startSeen : SMap Nat := []
  crossStart : Nat := 0
  crossDone : List Nat := []
  slipMax : Nat := 0
  slipLanding : Nat := 0
  slipped : Bool := false
  fencedSince : Bool := false
  committed : Bool := false
  lastCommit : Option Nat := none
  aborted : Bool := false
  prepared : SMap (Option Nat) := []
  readyCnt : SMap (Option Nat) := []
  doneL : List Nat := []
  bwdIssued : List Nat := []
  watch : SMap (XV × XV × XV) := []
  watchDone : Bool := false
  zeroRun : SMap Nat := []
  zeroRunOld : SMap Nat := []
  fmt : SMap Nat := []
  ratioEvents : Nat := 0
  snaps : List Snap := []
  snapNext : Nat := 1
  lastSnapStep : Nat := 0
  snapDue : Bool := false
  guard : List Nat := []
  losses : List LossRec := []
  replayEnd : Nat := 0
  attLosses : List LossRec := []
  lossAtt : SMap Nat := []
  lossOk : Bool := false
  lossAsk : Bool := false
  lossIn : SMap (List Byte) := []
  lossGot : Bool := false
  need : Nat := 0
  restoreNo : Nat := 0
  restoring : Option Nat := none
  restIn : SMap (List Byte) := []
  reverted : List Nat := []
  restVia : SMap Nat := []
  mismatched : Bool := false
  askLog : Bool := false
  atBoundary : List Waiting := []
  stalledRaised : Bool := false
  capRaised : Bool := false
  formatDone : Bool := false
  lostIn : SMap Nat := []
  overwritten : List Nat := []
  rewritten : List Nat := []
  lostPlanks : List Nat := []
  deriving DecidableEq, Repr, Inhabited

/-- A plank a landing has requested or holds: frames received, elements from 0 and side fields from 65536 (R373); version is that of its
frame 0 (R374), stack tells that the plank comes from a stack (R28). -/
structure PlankBuf where
  role : Nat
  idx : Nat
  object : Nat
  frames : Nat := 0
  data : Mem := []
  bad : Bool := false
  refused : Nat := 0
  full : Bool := false
  issued : Bool := false
  version : Nat := 0
  stack : Bool := false
  deriving DecidableEq, Repr, Inhabited

/-- A plank on the girts with the fields of its tag word (Table 13.2); verdict: none unconfirmed, some true confirmed, some false denied. -/
structure Flight where
  landing : Nat
  role : Nat
  plank : Nat
  fmt : Nat
  variant : Nat
  lastUse : Bool
  grain : Bool
  near : Nat
  far : Nat
  green : Bool := false
  verdict : Option Bool := none
  avail : Nat := 256
  data : Mem := []
  deriving DecidableEq, Repr, Inhabited

/-- One beat on a return girt: the plank of its object, its index, and at_, the tap position it has just passed (0 = at the landing
after the nearest tap, so the next tap is at_ − 1); supp is the double sister whose supplement pass it belongs to (R441); tag is the
RETURN_START word that accompanies beat 0 (R334, R341). -/
structure RetBeat where
  plank : Nat
  b : Nat
  at_ : Nat
  vals : List XV
  supp : Option Nat := none
  tag : Option W64 := none
  deriving DecidableEq, Repr, Inhabited

/-- A return girt, kept at the serving landing's half: the object the far tap is sending, the beats it has started, the objects
started in the crossing, and the beats on the girt in the order they were started. -/
structure RetGirt where
  plank : Option Nat := none
  next : Nat := 0
  idx : Nat := 0
  beats : List RetBeat := []
  deriving DecidableEq, Repr, Inhabited

/-- A reduction slot (R273): the landing's own sum by element, the beats received from each half (key half) and from each supplement
pass (key 1000 + core), the incoming ring sum, the groups received, the groups forwarded or completed, and the NAN_POLICY in force when
the reduction began (R283). -/
structure RSlot where
  object : Nat
  plank : Nat
  fmt : Nat
  own : SMap XV := []
  beats : SMap Nat := []
  ring : SMap XV := []
  ringG : List Nat := []
  sentG : List Nat := []
  policy : Nat := 0
  deriving DecidableEq, Repr, Inhabited

/-- An object waiting for its LUU update: gradients in element order as FP32 codes (R293). -/
structure LuuObj where
  object : Nat
  fmt : Nat
  group : Nat
  variant : Nat
  grads : SMap Nat
  deriving DecidableEq, Repr, Inhabited

/-- State tensors of one object arriving for the LUU (R294): per tensor code the image so far, its length, and LAST seen. -/
structure StateBuf where
  object : Nat
  want : List Nat
  tens : SMap Mem := []
  done : List Nat := []
  deriving DecidableEq, Repr, Inhabited

/-- A landing: everything of it that is not a register (R365 to R395, R273, R292); faulted tells that a fault of it has been reported to
its bay hub and it has stopped working (R347, R443). -/
structure Landing where
  present : Bool := true
  txSeq : Nat := 0
  rxExpect : Nat := 0
  nakWanted : Bool := false
  ackDue : Bool := false
  credit : SMap Nat := []
  grantIn : SMap Nat := []
  outQ : List Frame := []
  replay : List Frame := []
  resendIdx : Option Nat := none
  probeQ : List Frame := []
  wire : List (Nat × Frame) := []
  win3 : Nat := 1024
  rot : Nat := 0
  planks : List PlankBuf := []
  reqIdx : Nat := 0
  issueIdx : Nat := 0
  started : Bool := false
  takes : Bool := false
  halted : Bool := false
  partnerSeen : Bool := false
  hostHold : W32 := 0
  ihCount : SMap Nat := []
  relSeen : SMap Nat := []
  shSlots : SMap Nat := []
  rslots : List RSlot := []
  luuQ : List LuuObj := []
  luuStepDone : Bool := false
  sbuf : List StateBuf := []
  pendObjs : Nat := 0
  pendDone : List Nat := []
  doneBar : SMap Nat := []
  heldStep : Bool := false
  nonfin : Nat := 0
  p1Old : W32 := 0
  p2Old : W32 := 0
  commitRep : Option Frame := none
  revertRep : Option Frame := none
  injCount : Nat := 0
  injHeldIn : List Frame := []
  injHeldOut : List Frame := []
  injSwap : List Frame := []
  injSwapIn : List Frame := []
  swallow : Bool := false
  sits : Bool := false
  protoTimes : List Nat := []
  gloM : Mark := (0, 0xFFFFFFFF)
  fencedHere : List Nat := []
  faulted : Bool := false
  deriving DecidableEq, Repr, Inhabited

/-- A bulk network flit (R348): source message, destination core, class 0 slotted 1 best-effort 2 multicast 3 escape 4 escape on a
multicast tree (R355), group, packet of its message (16 flits each), and up to 256 bytes bound for scratchpad address addr; of a held
copy, the input at which it was copied. -/
structure Flit where
  src : Nat
  msg : Nat
  dst : Nat
  cls : Nat
  grp : Nat := 0
  pkt : Nat := 0
  addr : Nat
  data : List Byte
  inp : Nat := 0
  deriving DecidableEq, Repr, Inhabited

/-- A core's router (R348 to R355): input buffers by port (0 local, 1 north, 2 east, 3 south, 4 west), flits held in order; retry
counters per output; held multicast copies as (output, flit); wait holds the flits that the core's move unit has cut and that its local
input has no room for yet (R348). -/
structure Router where
  inb : SMap (List Flit) := []
  held : List (Nat × Flit) := []
  rr : SMap Nat := []
  inj : SMap Nat := []
  retry : SMap (List Flit) := []
  delayed : SMap Nat := []
  wait : List Flit := []
  deriving DecidableEq, Repr, Inhabited

/-- An access to a bay stack waiting at its hub (R401, R403, R412, R447). Kind 0 is a move unit's line: core, write or read, line address,
scratchpad address. The other kinds wait only while the hub holds accesses: 1 a write of data by master core, 2 a BAR4 read of spad bytes by
master core, 3 the access frame (type spad mod 16, payload data) of the partner of landing core, whose record spad / 16 is next, 4 the read
of stack-sourced plank spad of role core, 5 the arrival at counter spad of the partner of landing core, which follows input still waiting
(R377), 6 input of landing core, number spad of those that wait (R376). -/
structure SReq where
  core : Nat
  wr : Bool
  addr : Nat
  spad : Nat
  data : List Byte
  kind : Nat := 0
  deriving DecidableEq, Repr, Inhabited

/-- Bytes from its address that a waiting access touches. -/
def SReq.span (r : SReq) : Nat := match r.kind with
  | 2 => r.spad
  | 3 => if ((r.data.getD (r.spad / 16 * 16 + 6) 0).toNat) ≤ 2 then 4 else 8
  | 4 => 69632
  | 5 => 1
  | _ => if r.wr then r.data.length else 64

/-- A bay: stack, power, clock and thermal state not held in its hub's registers. sample is the last VCORE current in mA; guardCur, guardFail
and guardHdr tell what engaged the current guard: a sample, a failure whose pace change it awaits, quarter stages (R467, R471); hdrDue are
the cores whose stage is due (R470), paceMove the ceiling that moved last (R463). -/
structure Bay where
  enabled : Bool := false
  dark : Bool := false
  lossDue : Bool := false
  q : List SReq := []
  held : Bool := false
  failedCh : List Nat := []
  softRows : List (Nat × Nat) := []
  rowCe : SMap Nat := []
  scrubbed : List Nat := []
  ueRecent : List (Nat × Nat) := []
  trainedCh : List Nat := []
  target : Nat := 0
  hotMs : Nat := 0
  coolMs : Nat := 0
  hot112 : Nat := 0
  convLost : List Nat := []
  clkFrac : Nat := 0
  clkPart : Nat := 0
  slot : Nat := 0
  lostSrc : List Nat := []
  paceBy : Nat := 0
  highAt : Option Nat := none
  droopAt : Option Nat := none
  hdrSince : Nat := 0
  hdr : List (Nat × Nat) := []
  hdrQuarter : List Nat := []
  doubles : Nat := 0
  powered : List Nat := []
  modCeilPow : Nat := 0
  modCeilCool : Nat := 0
  sample : Nat := 0
  guardCur : Bool := false
  guardFail : Bool := false
  guardHdr : List Nat := []
  hdrDue : List Nat := []
  paceMove : Nat := 0
  deriving DecidableEq, Repr, Inhabited

/-- A barrier counter of a hub (R361): participants P, the arrivals of the open phase, and completions D. -/
structure BarSt where
  p : Nat := 0
  arr : List Nat := []
  d : Nat := 0
  deriving DecidableEq, Repr, Inhabited

/-- A firmware image in flash (Table 19.18): what admission keeps of it; mirrorW and mirrorR are the mirror format it writes and the
oldest it reads (R538). -/
structure FwImage where
  version : Nat
  security : Nat
  advance : Bool
  mirrorW : Nat := 0
  mirrorR : Nat := 0
  deriving DecidableEq, Repr, Inhabited

/-- A management board (R480, Table 19.4): mbx holds the bytes of its 64 mailbox slots and regs its other BAR0 registers by offset; ring
is the event ring in host memory by index, prodCopy the copy of the producer index there (R495); ready tells that it holds a role (R483),
staged that the slot it does not run from holds an image admitted by FW_STAGE (R504); pulseEnd and trace are its TIME_OUT pin (R526).
fuseKeys, revoked and secCtr are the fuses of its controller chip: key digests, a revocation bit per key, the security counter (R503);
supply tells that its own supplies are good (R548). -/
structure Board where
  present : Bool := true
  booted : Bool := false
  ready : Bool := false
  fwInvalid : Bool := false
  slotRun : Nat := 0
  flash : List (Option FwImage) := [some { version := 0x1000000, security := 0, advance := false }, none]
  preferred : Nat := 0
  staged : Bool := false
  mbx : Mem := []
  regs : SMap W32 := []
  ring : SMap (List Byte) := []
  prodCopy : Nat := 0
  held : List (List Byte) := []
  lost : Nat := 0
  unsig : Nat := 0
  msix0 : Nat := 0
  msix1 : Nat := 0
  lpddr : Mem := []
  mpBad : Bool := false
  rangeAt : Option Nat := none
  beat : Option Nat := none
  pulseEnd : Nat := 0
  trace : List Bool := []
  fuseKeys : List (List Byte) := []
  revoked : Nat := 0
  secCtr : Nat := 0
  supply : Bool := true
  deriving DecidableEq, Repr, Inhabited

/-- An event raised and not yet delivered (Table 19.14). -/
structure Event where
  code : Nat
  board : Nat
  seq : Nat
  time : Nat
  step : Nat
  version : Nat
  unit : Nat := 200
  payload : List Byte
  deriving DecidableEq, Repr, Inhabited

/-- The repair record of both boards (R435, R404, R408, R461, R469, R530). crackCal names, with 1 added, the calibration of a bay's crack model
(Config.crackOhm). -/
structure Repair where
  fence : SMap Nat := []
  chOut : SMap Nat := []
  softRows : SMap (List (Nat × Nat)) := []
  hardRows : SMap (List (Nat × Nat)) := []
  phases : SMap Nat := []
  darkBays : List Nat := []
  testRes : SMap Nat := []
  crackCal : SMap Nat := []
  deriving DecidableEq, Repr, Inhabited

/-- The header of a control network access or of its reply (Table 13.8): address, OP, MASTER and TAG, which the master chooses (log entry 5). -/
structure CnHead where
  addr : Nat
  op : Nat
  master : Nat
  tag : Nat := (Config.cnTag master addr op).toNat
  deriving DecidableEq, Repr, Inhabited

/-- The header word (Table 13.8). -/
def CnHead.word (h : CnHead) : W64 :=
  BitVec.ofNat 64 (h.addr % 2 ^ 32 + 2 ^ 32 * (h.op % 8) + 2 ^ 35 * (h.master % 256) + 2 ^ 43 * (h.tag % 4096))

/-- The header of the reply to an access: a response or an error response, with the access's TAG (R358, R359). -/
def CnHead.reply (h : CnHead) (err : Bool) : CnHead := { h with op := if err then 5 else 4 }

/-- The result of the last access that returns data: value and whether it was an error response (R359). -/
structure ReadBack where
  data : List Byte := []
  err : Bool := false
  deriving DecidableEq, Repr, Inhabited

/-- Power and module inputs (R457, R548, R550). cool1 and cool3 are the readings left until the rows of Table 18.10 for P1 and P3 have been clear
for 10 s, coolBad tells that a condition of that table held at the last reading (R479, R550); smbAge is the time with 12 V on before the
last module reset (R551). -/
structure Inputs where
  on12 : Bool := false
  ok54 : Bool := true
  lost54 : List Nat := []
  lost12 : List Nat := []
  outRange : List Nat := []
  stopped : Bool := false
  coolant : Nat := 0
  cool1 : Nat := 0
  cool3 : Nat := 0
  coolBad : Bool := false
  coolLow : Nat := 0
  powOver : Nat := 0
  no54 : Bool := false
  smbAge : Nat := 0
  deriving DecidableEq, Repr, Inhabited

/-- Why a command stops with a fault. -/
inductive Fault where
  /-- Raised by every command an MP serves after a master has written that MP's LPDDR: its behaviour is not defined until the
  next reset of the board (Table 19.17). Safe. -/
  | mpUndefined
  deriving DecidableEq, Repr, Inhabited

/-- Why a command is refused. -/
inductive Refusal where
  /-- Raised by an arm whose command has no meaning yet. Safe. -/
  | notModelled (mnemonic : String)
  /-- Raised by a command that names a core, bay, landing, channel or board that no module has. Safe. -/
  | noSuchUnit
  deriving DecidableEq, Repr, Inhabited

/-- The module. regs is the whole register space by register address (R505); an address not listed holds its reset value. joins are the
join modes of the rows in force in the open crossing, and joinSet the rows whose ROW_JOIN a master has written since it began (R337).
ledEsc gives the place of the image of each escaped ledger entry: 1 + n + 2^32 l for image n of landing l (R285, R287). snFenced are the
routers, one bit each, that the SN route tables in force go around (R360). posted holds (time, board, slot) of posted commands (R487);
startFenced are the cores fenced in orders 5 to 9 of a start (R537), startOuts the channels mapped out in it (R535).
mpEsc and mpSeek are orders that no MP was there to give: escape tables to rewrite, and a placement to seek, with a restore or not (R480). -/
structure State where
  pending : List Instr := []
  freeCtr : Nat := 0
  time : Nat := 0
  regs : SMap W32 := []
  memPage : SMap Nat := []
  cores : SMap Core := []
  routers : SMap Router := []
  bays : SMap Bay := []
  lands : SMap Landing := []
  bars : SMap BarSt := []
  barsSb : SMap BarSt := []
  rootPos : SMap (Option Nat) := []
  rootPosSb : SMap (Option Nat) := []
  rootMark : SMap (Option Nat) := []
  sn : List Token := []
  flights : List Flight := []
  rets : SMap RetGirt := []
  stack : Mem := []
  ledEsc : SMap Nat := []
  joins : SMap Nat := []
  joinSet : List Nat := []
  job : Job := {}
  boards : SMap Board := []
  active : Option Nat := none
  posted : List (Nat × Nat × Nat) := []
  epochObjs : List (Nat × Nat) := []
  epochOf : Nat := 0
  evPending : List Event := []
  evSeq : Nat := 0
  evLost : Nat := 0
  rep : Repair := {}
  inp : Inputs := {}
  phase : Nat := 0
  readyUp : Bool := false
  startFenced : List Nat := []
  startOuts : Nat := 0
  mpEsc : Bool := false
  mpSeek : Option Bool := none
  back : ReadBack := {}
  cn : Option CnHead := none
  cnBack : Option CnHead := none
  liveOrder : Nat := 0
  liveBoard : Nat := 0
  liveWhich : Nat := 0
  liveCmd : Option (Nat × Nat) := none
  stackStops : List Nat := []
  handover : Option Nat := none
  handCmd : Option (Nat × Nat) := none
  riskLog : List (Nat × Nat × Nat) := []
  riskBand : Nat := 0
  escParent : SMap Nat := []
  escW : SMap (Option W32) := []
  pathLong : Bool := false
  snFenced : Nat := 0
  bwAcc : SMap Nat := []
  deriving DecidableEq, Repr, Inhabited

/-- The module as it stands before 12 V is applied: every register at its reset value, every memory empty (R527), job state NONE. -/
def State.reset : State := {}

end Sys2Proof.Machine
end

