-- ==== Sys2Proof/Machine/Regs.lean ====
section
/-! DEFINITION. The register space (R505 to R514): wafer geometry, register addresses, and for each register its reset value and the access code of each bit (R17). -/

namespace Sys2Proof.Machine

/-- x and y of bay n (R396, Table 15.1). -/
def bayX (n : Nat) : Nat := if n < 6 then n + 1 else if n < 54 then (n - 6) % 8 else n - 53
def bayY (n : Nat) : Nat := if n < 6 then 0 else if n < 54 then (n - 6) / 8 + 1 else 7

/-- The bay at B(x,y), none at the four absent corners and off the grid (R396). -/
def bayAt (x y : Nat) : Option Nat :=
  if x > 7 ∨ y > 7 then none
  else if y = 0 then (if x = 0 ∨ x = 7 then none else some (x - 1))
  else if y = 7 then (if x = 0 ∨ x = 7 then none else some (53 + x))
  else some (6 + 8 * (y - 1) + x)

/-- The neighbour of bay n: 0 north, 1 east, 2 south, 3 west. -/
def bayNbr (n d : Nat) : Option Nat :=
  let x := bayX n
  let y := bayY n
  match d with
  | 0 => if y = 0 then none else bayAt x (y - 1)
  | 1 => bayAt (x + 1) y
  | 2 => bayAt x (y + 1)
  | _ => if x = 0 then none else bayAt (x - 1) y

/-- A physical core is numbered bay * 48 + index (R20). -/
def coreBay (p : Nat) : Nat := p / 48
def coreIdx (p : Nat) : Nat := p % 48
/-- Column and row of a physical core (R20). -/
def coreCol (p : Nat) : Nat := 8 * bayX (coreBay p) + coreIdx p % 8
def coreRow (p : Nat) : Nat := 6 * bayY (coreBay p) + coreIdx p / 8

/-- The physical core at C(col,row), if present (R20). -/
def coreAt (col row : Nat) : Option Nat :=
  (bayAt (col / 8) (row / 6)).map (fun b => b * 48 + (row % 6) * 8 + col % 8)

/-- The girt half of a core: 0 to 47 west, 48 to 95 east (R332). -/
def coreHalf (p : Nat) : Nat := if coreCol p < 32 then coreRow p else 48 + coreRow p

/-- Cores in a half (R20). -/
def halfLen (h : Nat) : Nat := let r := h % 48; if r < 6 ∨ 42 ≤ r then 24 else 32

/-- The tap position of a core in its half (R332). -/
def tapPos (p : Nat) : Nat :=
  let edge := if halfLen (coreHalf p) = 24 then 8 else 0
  if coreCol p < 32 then coreCol p - edge else 63 - edge - coreCol p

/-- The core at tap position k of half h. -/
def halfCore (h k : Nat) : Option Nat :=
  let edge := if halfLen h = 24 then 8 else 0
  if halfLen h ≤ k then none
  else if h < 48 then coreAt (edge + k) h else coreAt (63 - edge - k) (h - 48)

/-- The cores of a half from the landing end. -/
def halfCores (h : Nat) : List Nat := (List.range (halfLen h)).filterMap (halfCore h)

/-- The landing that serves a half when each half is served by its own landing (Table 1.1). -/
def halfLanding (h : Nat) : Nat := if h < 48 then h / 12 else 4 + (h - 48) / 12
/-- The half that is number i of landing l, in row order. -/
def landingHalf (l i : Nat) : Nat := if l < 4 then 12 * l + i else 48 + 12 * (l - 4) + i
/-- The paired landing (Table 1.1). -/
def pairOf (l : Nat) : Nat := if l < 4 then l + 4 else l - 4

/-- The host bay of a landing (Table 1.1). -/
def landingBay (l : Nat) : Nat := ([6, 22, 30, 46, 13, 29, 37, 53][l]?).getD 0
/-- The landing a bay hosts. -/
def bayLanding (b : Nat) : Option Nat := (List.range 8).find? (fun l => landingBay l == b)

/-- The ring order of R274 and the next landing in it. -/
def ringOrder : List Nat := [0, 1, 2, 3, 7, 6, 5, 4]
def ringNext (l : Nat) : Nat := ([1, 2, 3, 7, 0, 4, 5, 6][l]?).getD 0

/-- Register addresses (Table 20.1). -/
def mkAddr (bay unit blk off : Nat) : Nat := bay * 2 ^ 26 + unit * 2 ^ 20 + blk * 2 ^ 16 + off
def coreReg (p blk off : Nat) : Nat := mkAddr (coreBay p) (coreIdx p) blk off
def hubReg (b off : Nat) : Nat := mkAddr b 48 0 off
def landReg (l off : Nat) : Nat := mkAddr 60 l 0 off
def gloReg (off : Nat) : Nat := mkAddr 63 0 0 off

/-- The access of a register's bits: reset value, and the bits that are RW, W1C and RC; every other bit is RO, WO or reserved. -/
structure RegDef where
  blk : Nat
  off : Nat
  n : Nat
  stride : Nat
  reset : Nat
  rw : Nat
  w1c : Nat
  rc : Nat
  deriving DecidableEq, Repr, Inhabited

/-- Core registers of blocks 0 to 4 (Tables 3.4 to 3.12, 4.6 to 4.9, 5.5, 6.3, 6.5, 7.17 to 7.20, 8.10 to 8.12, 12.5, 12.6,
16.4 to 16.7, 17.15, 2.15). -/
def coreDefsA : List RegDef := [
  ⟨0, 0x00, 1, 4, 0, 1, 0, 0⟩, ⟨0, 0x04, 1, 4, 0, 0, 0, 0⟩, ⟨0, 0x08, 1, 4, 0, 0, 0x1000000, 0⟩,
  ⟨0, 0x40, 1, 4, 16, 0xFF, 0, 0⟩, ⟨0, 0x48, 1, 4, 0, 0, 0x7000000, 0xFFFFFF⟩,
  ⟨0, 0x50, 1, 4, 0x80000000, 0x8003FFFC, 0, 0⟩, ⟨0, 0x54, 1, 4, 0, 0, 0, 0⟩,
  ⟨0, 0x60, 1, 4, 0, 0x1FFFF, 0, 0⟩, ⟨0, 0x70, 1, 4, 0, 0x3FFFF, 0, 0⟩, ⟨0, 0x74, 1, 4, 0, 0, 0, 0⟩,
  ⟨0, 0x78, 1, 4, 0, 0, 0, 0xFFFFFFFF⟩, ⟨0, 0x7C, 1, 4, 0, 0, 0, 0⟩, ⟨0, 0x80, 1, 4, 0, 0, 0, 0x7FFF8⟩,
  ⟨0, 0x88, 1, 4, 0, 0, 0x20000000, 0xFFFF⟩,
  ⟨1, 0x00, 1, 4, 0, 0, 0xF, 0⟩, ⟨1, 0x10, 1, 4, 4, 0xF, 0, 0⟩, ⟨1, 0x14, 1, 4, 0, 0, 0x1000000, 0xFFFFFF⟩,
  ⟨1, 0x400, 64, 4, 0, 0, 0xE000, 0⟩, ⟨1, 0x500, 64, 4, 0, 0, 0, 0⟩,
  ⟨2, 0x80, 1, 4, 0, 0, 0xFF, 0⟩, ⟨2, 0x84, 1, 4, 0, 0, 7, 0⟩,
  ⟨3, 0x00, 1, 4, 0, 0, 0xFF, 0⟩, ⟨3, 0x04, 1, 4, 0, 0, 0, 0⟩, ⟨3, 0x08, 1, 4, 0, 0, 0, 0xFFFFFFFF⟩,
  ⟨4, 0x100, 16, 4, 0, 0xFFFFFFFF, 0, 0⟩]

/-- Core registers of blocks 5, 7 and 8 (Tables 20.9 to 20.17, 3.8, 3.9, 10.18, 13.12, 13.13, 14.27, and the router tables). -/
def coreDefsB : List RegDef := [
  ⟨5, 0x00, 2, 4, 0, 0xFFFFFFFF, 0, 0⟩, ⟨5, 0x08, 1, 4, 0x40, 0x1FF, 0, 0⟩, ⟨5, 0x0C, 1, 4, 0, 0, 0x7F, 0⟩,
  ⟨5, 0x10, 6, 4, 0, 0xFFFF01FF, 0, 0⟩, ⟨5, 0x40, 6, 8, 0, 0xFFFFFFFF, 0, 0⟩, ⟨5, 0x44, 6, 8, 0, 0xFFFF, 0, 0⟩,
  ⟨5, 0x80, 1, 4, 0x28, 0x1BF, 0, 0⟩, ⟨5, 0x84, 1, 4, 0, 0xFFFFFFFF, 0, 0⟩, ⟨5, 0x88, 1, 4, 0, 0, 6, 0⟩,
  ⟨5, 0xC0, 1, 4, 0x3F14, 0x3F3F, 0, 0⟩, ⟨5, 0xC8, 2, 4, 0, 0, 0, 0⟩, ⟨5, 0xD0, 1, 4, 0, 0, 0, 0xFFFFFFFF⟩,
  ⟨5, 0xD4, 1, 4, 0, 0, 0, 0xFFFF⟩, ⟨5, 0xD8, 2, 4, 0, 0, 0, 0⟩, ⟨5, 0xE0, 1, 4, 0, 0, 0, 0xFFFFFFFF⟩,
  ⟨5, 0xE4, 1, 4, 0, 0, 0, 0xFFFF⟩,
  ⟨7, 0x00, 1, 4, 0x2000, 0xFFFF, 0, 0⟩, ⟨7, 0x04, 1, 4, 0, 0, 0x1000, 0⟩, ⟨7, 0x08, 1, 4, 0, 0, 0x30000, 0xFFFF⟩,
  ⟨8, 0x00, 1, 4, 0, 0x1F, 0, 0⟩, ⟨8, 0x04, 1, 4, 0, 0, 0, 0xFFFFFF⟩, ⟨8, 0x104, 4, 4, 0x408000, 0xFFFFFFFF, 0, 0⟩,
  ⟨8, 0x1000, 336, 4, 0, 0xFFFFFFFF, 0, 0⟩, ⟨8, 0x2000, 1440, 4, 0, 0xFFFFFFFF, 0, 0⟩,
  ⟨8, 0x4000, 720, 4, 0, 0xFFFFFFFF, 0, 0⟩]

/-- Bay hub registers (Tables 13.14, 15.4 to 15.10, 17.12 to 17.14, 18.11 to 18.21, 20.16, 20.17). -/
def hubDefs : List RegDef := [
  ⟨0, 0x200, 64, 4, 0, 0xFFF, 0, 0⟩, ⟨0, 0x400, 1, 4, 0x2040, 0, 0, 0⟩, ⟨0, 0x404, 1, 4, 0xFFFFFFFF, 0, 0, 0⟩,
  ⟨0, 0x408, 1, 4, 0, 0xFFFFFFFF, 0, 0⟩, ⟨0, 0x40C, 1, 4, 0, 0, 0xC00, 0⟩, ⟨0, 0x410, 1, 4, 0, 0, 0, 0xFFFFFF⟩,
  ⟨0, 0x414, 1, 4, 0, 0, 0, 0⟩, ⟨0, 0x418, 1, 4, 0x13, 0x1F, 0, 0⟩,
  ⟨0, 0x500, 1, 4, 0x051003E8, 0x3FFFFFFF, 0, 0⟩, ⟨0, 0x504, 2, 4, 0, 0, 0, 0⟩, ⟨0, 0x50C, 1, 4, 0, 0, 0x400, 0⟩,
  ⟨0, 0x600, 1, 4, 0, 3, 0, 0⟩, ⟨0, 0x604, 1, 4, 0, 0, 0, 0⟩, ⟨0, 0x608, 1, 4, 0x09000000, 0, 0, 0⟩,
  ⟨0, 0x60C, 1, 4, 0, 0, 0, 0⟩, ⟨0, 0x610, 1, 4, 0, 0, 0, 0⟩, ⟨0, 0x614, 1, 4, 0x01283214, 0x1FFFFFF, 0, 0⟩,
  ⟨0, 0x618, 1, 4, 0, 0, 0, 0xFFFF00⟩, ⟨0, 0x61C, 1, 4, 0, 0, 0, 0xFFFFFFFF⟩, ⟨0, 0x620, 1, 4, 0, 0, 0x4000, 0⟩,
  ⟨0, 0x628, 1, 4, 0, 0, 0, 0xFF00⟩,
  ⟨5, 0xC0, 1, 4, 0x3F14, 0x3F3F, 0, 0⟩, ⟨5, 0xC8, 2, 4, 0, 0, 0, 0⟩, ⟨5, 0xD0, 1, 4, 0, 0, 0, 0xFFFFFFFF⟩,
  ⟨5, 0xD4, 1, 4, 0, 0, 0, 0xFFFF⟩, ⟨5, 0xD8, 2, 4, 0, 0, 0, 0⟩, ⟨5, 0xE0, 1, 4, 0, 0, 0, 0xFFFFFFFF⟩,
  ⟨5, 0xE4, 1, 4, 0, 0, 0, 0xFFFF⟩]

/-- Landing registers (Tables 9.4, 9.8, 10.14 to 10.17, 11.16 to 11.18, 12.7, 13.11, 14.13 to 14.26, 17.16, 20.16, 20.17). -/
def landDefs : List RegDef := [
  ⟨0, 0x00, 1, 4, 0x19143220, 0xFFFFFFFF, 0, 0⟩, ⟨0, 0x04, 1, 4, 0, 0, 0x100000, 0⟩, ⟨0, 0x08, 2, 4, 0, 0, 0, 0⟩,
  ⟨0, 0x10, 3, 4, 0, 0, 0, 0xFFFFFFFF⟩, ⟨0, 0x20, 2, 4, 0, 0, 0, 0⟩, ⟨0, 0x28, 2, 4, 0, 0xFFFFFFFF, 0, 0⟩,
  ⟨0, 0x400, 1, 4, 0, 0, 0, 0xFFFFFF⟩, ⟨0, 0x404, 1, 4, 0, 0xFFFF, 0x1000000, 0xFF0000⟩,
  ⟨0, 0x500, 1, 4, 0, 3, 0, 0⟩, ⟨0, 0x504, 1, 4, 0, 0, 0x2F, 0⟩, ⟨0, 0x508, 2, 4, 0, 0, 0, 0xFFFFFFFF⟩,
  ⟨0, 0x600, 1, 4, 0, 0, 0x3F, 0⟩, ⟨0, 0x604, 2, 4, 0x3F800000, 0xFFFFFFFF, 0, 0⟩, ⟨0, 0x60C, 1, 4, 0, 0, 0, 0xFFFFFFFF⟩,
  ⟨0, 0x700, 1, 4, 0, 0, 0, 0xFFFF⟩, ⟨0, 0x710, 1, 4, 0, 0xFFF, 0, 0⟩, ⟨0, 0x800, 12, 4, 0, 0, 0x2000, 0⟩,
  ⟨0, 0x900, 1, 4, 0, 0x3F, 0, 0⟩, ⟨0, 0x904, 1, 4, 0xFF00, 0xFFFF, 0, 0⟩, ⟨0, 0x908, 1, 4, 0, 0x1FFFF, 0, 0⟩,
  ⟨0, 0x90C, 1, 4, 1, 0xFFFFFF, 0, 0⟩, ⟨0, 0x910, 1, 4, 1, 0x7F, 0, 0⟩, ⟨0, 0x914, 1, 4, 0, 0, 0, 0xFFFFFF⟩,
  ⟨5, 0xC0, 1, 4, 0x3F14, 0x3F3F, 0, 0⟩, ⟨5, 0xC8, 2, 4, 0, 0, 0, 0⟩, ⟨5, 0xD0, 1, 4, 0, 0, 0, 0xFFFFFFFF⟩,
  ⟨5, 0xD4, 1, 4, 0, 0, 0, 0xFFFF⟩, ⟨5, 0xD8, 2, 4, 0, 0, 0, 0⟩, ⟨5, 0xE0, 1, 4, 0, 0, 0, 0xFFFFFFFF⟩,
  ⟨5, 0xE4, 1, 4, 0, 0, 0, 0xFFFF⟩]

/-- Global registers (Tables 2.3, 2.4, 11.19 to 11.21, 13.10, 13.14, 13.15, 17.17 to 17.19, 18.22 to 18.24, 20.20, 20.21,
21.5 to 21.7). -/
def gloDefs : List RegDef := [
  ⟨0, 0x100, 1, 4, 0x01F4000A, 0xFFFFFFFF, 0, 0⟩, ⟨0, 0x104, 1, 4, 0, 0, 0x80000000, 0⟩,
  ⟨0, 0x200, 1, 4, 0, 0, 0, 0⟩, ⟨0, 0x204, 1, 4, 100, 0xFFFF, 0, 0⟩, ⟨0, 0x208, 1, 4, 0, 0, 0, 0xFFFFFFFF⟩,
  ⟨0, 0x300, 3, 4, 0, 0xFFFFFFFF, 0, 0⟩, ⟨0, 0x30C, 1, 4, 0x6219, 0, 0, 0⟩, ⟨0, 0x400, 64, 4, 0, 0xFFF, 0, 0⟩,
  ⟨0, 0x500, 1, 4, 0, 0, 0, 0⟩, ⟨0, 0x504, 1, 4, 0, 0, 0x4000000, 0⟩, ⟨0, 0x510, 1, 4, 0, 0, 0, 0⟩,
  ⟨0, 0x600, 1, 4, 0, 0, 0, 0⟩, ⟨0, 0x604, 1, 4, 25000, 0xFFFF, 0, 0⟩, ⟨0, 0x608, 1, 4, 0, 0, 0, 0⟩,
  ⟨0, 0x700, 1, 4, 0xA0, 0x1FF, 0x600, 0⟩, ⟨0, 0x708, 1, 4, 0, 0, 0, 0⟩, ⟨0, 0x70C, 1, 4, 0, 0, 0, 0x80000000⟩,
  ⟨0, 0x710, 1, 4, 0, 0, 0, 0⟩, ⟨0, 0x714, 1, 4, 0, 0, 0, 0x80000000⟩, ⟨0, 0x800, 3, 4, 0, 0, 0, 0⟩]

/-- Whether a definition covers a block and offset. -/
def RegDef.covers (d : RegDef) (blk off : Nat) : Bool :=
  d.blk == blk && decide (d.off ≤ off) && (off - d.off) % d.stride == 0 && decide ((off - d.off) / d.stride < d.n)

/-- The definition of a block and offset in a list. -/
def findReg (defs : List RegDef) (blk off : Nat) : Option RegDef := defs.find? (fun d => d.covers blk off)

/-- Hop distance between two bays on the grid. -/
def bayDist (a b : Nat) : Nat :=
  let dx := if bayX a ≤ bayX b then bayX b - bayX a else bayX a - bayX b
  let dy := if bayY a ≤ bayY b then bayY b - bayY a else bayY a - bayY b
  dx + dy

/-- Distance to the nearer reference bay (R474, R475). -/
def refDist (b : Nat) : Nat := min (bayDist b 25) (bayDist b 34)

/-- The default clock priority list of a bay (R475): neighbours in ascending distance, ties by source code; the reference first
in bays 25 and 34; 7 where the list has no fourth source. -/
def clkDefault (b : Nat) : Nat :=
  let nb := (List.range 4).filterMap (fun d => (bayNbr b d).map (fun n => (refDist n, d)))
  let srt := (List.range 32).flatMap (fun k => (nb.filter (fun e => e.1 == k)).map (fun e => e.2))
  let l := if b = 25 ∨ b = 34 then 4 :: srt else srt
  let c := fun i => (l[i]?).getD 7
  c 0 + 8 * c 1 + 64 * c 2 + 512 * c 3

/-- The stepping that the fuses hold where no register word says otherwise (DESIGN CHOICE, log entry 3). -/
def fusedStepping : Nat := 2

/-- VEC_LAT of a core of a stepping (Table 6.2). -/
def vecLat (stepping : Nat) : Nat := if stepping = 1 then 14 + 26 * 256 else 11 + 23 * 256

/-- Identity registers of block 6 (Tables 20.5 to 20.7): lot and wafer 0, every core good (log entry 3). -/
def identReset (bay unit off : Nat) : Option Nat :=
  let hub := unit == 48
  match off with
  | 0 => some 0
  | 4 => some (bayX bay * 32 + bayY bay * 256 + (if hub then 2 ^ 17 else (unit % 8) * 2 ^ 11 + (unit / 8) * 2 ^ 14))
  | 8 => some (1 + 2 * fusedStepping)
  | _ => none

/-- The definition of a register address, if the address names a register (R506, R508). -/
def regDef (addr : Nat) : Option RegDef :=
  let bay := addr / 2 ^ 26
  let unit := addr / 2 ^ 20 % 64
  let blk := addr / 2 ^ 16 % 16
  let off := addr % 2 ^ 16
  if off % 4 ≠ 0 then none
  else if bay < 60 then
    if unit < 48 then
      if blk = 6 then (identReset bay unit off).map (fun r => ⟨6, off, 1, 4, r, 0, 0, 0⟩)
      else if blk = 2 ∧ off = 0 then some ⟨2, 0, 1, 4, vecLat fusedStepping, 0, 0, 0⟩
      else if blk ≤ 4 then findReg coreDefsA blk off
      else findReg coreDefsB blk off
    else if unit = 48 then
      if blk = 6 then (identReset bay unit off).map (fun r => ⟨6, off, 1, 4, r, 0, 0, 0⟩)
      else if blk = 0 ∧ off = 0x624 then some ⟨0, 0x624, 1, 4, clkDefault bay, 0xFFF, 0, 0⟩
      else findReg hubDefs blk off
    else none
  else if bay = 60 then (if unit < 8 then findReg landDefs blk off else none)
  else if bay = 63 then
    if unit = 0 then
      if blk = 6 then
        (match off with
         | 0 => some ⟨6, 0, 1, 4, 0, 0, 0, 0⟩
         | 4 => some ⟨6, 4, 1, 4, fusedStepping * 128 + 2880 * 2048, 0, 0, 0⟩
         | 8 => some ⟨6, 8, 1, 4, 3840, 0, 0, 0⟩
         | _ => none)
      else findReg gloDefs blk off
    else none
  else none

/-- The reset value of a register. -/
def resetOf (addr : Nat) : W32 :=
  match regDef addr with
  | some d => BitVec.ofNat 32 d.reset
  | none => 0

/-- Whether an address is the lower half of a 64-bit register (R505, R508). -/
def is64 (addr : Nat) : Bool :=
  (regDef addr).isSome &&
  let bay := addr / 2 ^ 26
  let unit := addr / 2 ^ 20 % 64
  let blk := addr / 2 ^ 16 % 16
  let off := addr % 2 ^ 16
  if bay = 63 then blk == 0 && (off == 0x708 || off == 0x710)
  else if blk = 5 ∧ bay ≤ 60 then
    (off == 0xC8 || off == 0xD0 || off == 0xD8 || off == 0xE0) ||
      (decide (bay < 60 ∧ unit < 48) && (off == 0 || (decide (0x40 ≤ off ∧ off < 0x70) && off % 8 == 0)))
  else false

end Sys2Proof.Machine
end

