-- ==== Sys2Proof/Machine/Ops.lean ====
section
/-! DEFINITION. Named operations over registers, units, core memories, green tags, events, tokens and frames, and the shared sequences that several commands start: stopping cores, holding landings, halting the job. -/

namespace Sys2Proof.Machine

/-- What a command answers. -/
abbrev Res := Host.Outcome State Fault Refusal

/-! ## Registers -/

/-- A stored register word; an address not listed holds its reset value (R505). -/
def State.reg (s : State) (a : Nat) : W32 := SMap.get (resetOf a) s.regs a
/-- Stores a register word. -/
def State.setReg (s : State) (a : Nat) (v : W32) : State := { s with regs := SMap.set (resetOf a) s.regs a v }
/-- Bits [hi:lo] of a register. -/
def State.fld (s : State) (a hi lo : Nat) : Nat := field (s.reg a) hi lo
/-- The stepping in hand: STEPPING of the module's fuses (Table 20.8). -/
def State.stepping (s : State) : Nat := s.fld (mkAddr 63 0 6 4) 9 7
/-- Whether a core passed its test at shipment: its fuse SHIP_GOOD (Table 20.7). -/
def State.shipGood (s : State) (p : Nat) : Bool := bit (s.reg (coreReg p 6 8)).toNat 0
/-- Sets bits [hi:lo] of a register. -/
def State.setFld (s : State) (a hi lo v : Nat) : State := s.setReg a (setField (s.reg a) hi lo v)
/-- A control network access of a master has been made: its header, and that of its reply (R358, R359, Table 13.8). -/
def State.cnNote (s : State) (master a op : Nat) (err : Bool) : State :=
  let h : CnHead := { addr := a, op := op, master := master }
  { s with cn := some h, cnBack := some (h.reply err) }
/-- Sets bits [hi:lo] of a register in an access of a master over the control network (R358, R502). -/
def State.fldBy (s : State) (master a hi lo v : Nat) : State := (s.setFld a hi lo v).cnNote master a 1 false
/-- Sets a register in an access of a master over the control network. -/
def State.regBy (s : State) (master a : Nat) (v : W32) : State := (s.setReg a v).cnNote master a 1 false
/-- The master number of the active MP's own sequences: 72 at position A, 73 at B (R502). -/
def State.mpNo (s : State) : Nat := 72 + s.active.getD 0
/-- Sets bits of a register in a sequence of the active MP. -/
def State.fldMp (s : State) (a hi lo v : Nat) : State := s.fldBy s.mpNo a hi lo v
/-- The rank of a master among the accesses that reach a register block in one clk: a higher one prevails (R500, R502). Commands come in a
clk each, so that here the later write prevails (log entry 41). -/
def State.masterRank (s : State) (m : Nat) : Nat :=
  if m < 72 then m else if m = s.mpNo then 74 else if m < 74 then 73 else m
/-- Sets bits of a register (sticky bits). -/
def State.orReg (s : State) (a : Nat) (m : W32) : State := s.setReg a (s.reg a ||| m)
/-- Raises a saturating counter field by n. -/
def State.bump (s : State) (a hi lo n : Nat) : State :=
  s.setFld a hi lo (satAdd (2 ^ (hi + 1 - lo) - 1) (s.fld a hi lo) n)

/-! ## Units -/

def State.core (s : State) (p : Nat) : Core := SMap.get {} s.cores p
def State.setCore (s : State) (p : Nat) (c : Core) : State := { s with cores := SMap.set {} s.cores p c }
def State.onCore (s : State) (p : Nat) (f : Core → Core) : State := s.setCore p (f (s.core p))
def State.land (s : State) (l : Nat) : Landing := SMap.get {} s.lands l
def State.setLand (s : State) (l : Nat) (x : Landing) : State := { s with lands := SMap.set {} s.lands l x }
def State.onLand (s : State) (l : Nat) (f : Landing → Landing) : State := s.setLand l (f (s.land l))
def State.bay (s : State) (b : Nat) : Bay := SMap.get {} s.bays b
def State.setBay (s : State) (b : Nat) (x : Bay) : State := { s with bays := SMap.set {} s.bays b x }
def State.onBay (s : State) (b : Nat) (f : Bay → Bay) : State := s.setBay b (f (s.bay b))
def State.rtr (s : State) (p : Nat) : Router := SMap.get {} s.routers p
def State.setRtr (s : State) (p : Nat) (x : Router) : State := { s with routers := SMap.set {} s.routers p x }
def State.board (s : State) (b : Nat) : Board := SMap.get {} s.boards b
def State.setBoard (s : State) (b : Nat) (x : Board) : State := { s with boards := SMap.set {} s.boards b x }
def State.onBoard (s : State) (b : Nat) (f : Board → Board) : State := s.setBoard b (f (s.board b))
def State.ret (s : State) (h : Nat) : RetGirt := SMap.get {} s.rets h
def State.setRet (s : State) (h : Nat) (x : RetGirt) : State := { s with rets := SMap.set {} s.rets h x }
def State.onJob (s : State) (f : Job → Job) : State := { s with job := f s.job }

/-- Applies f for every number below n. -/
def upTo (n : Nat) (f : Nat → State → State) (s : State) : State := (List.range n).foldl (fun s i => f i s) s
/-- Applies f for every element of a list. -/
def forAll {α : Type} (xs : List α) (f : α → State → State) (s : State) : State := xs.foldl (fun s x => f x s) s

/-- Whether a core is fenced: its bit of FENCE_LO or FENCE_HI (R435, Table 17.13). -/
def State.fenced (s : State) (p : Nat) : Bool :=
  let i := coreIdx p
  if i < 32 then bit (s.reg (hubReg (coreBay p) 0x504)).toNat i else bit (s.reg (hubReg (coreBay p) 0x508)).toNat (i - 32)

/-- Whether a bay is enabled and not dark (R442, R529). -/
def State.bayUp (s : State) (b : Nat) : Bool := (s.bay b).enabled && !(s.bay b).dark

/-- Whether a core's bay runs and the core is not fenced. -/
def State.coreUp (s : State) (p : Nat) : Bool := s.bayUp (coreBay p) && !s.fenced p

/-- CORE_CTRL.RUN (Table 7.17). -/
def State.running (s : State) (p : Nat) : Bool := bit (s.reg (coreReg p 0 0)).toNat 0

/-- The bundle index of CORE_PC (Table 7.18). -/
def State.pc (s : State) (p : Nat) : Nat := s.fld (coreReg p 0 4) 12 0
def State.setPc (s : State) (p n : Nat) : State := s.setFld (coreReg p 0 4) 12 0 n

/-- A landing whose link is trained, that is present and whose bay is not dark (R10). -/
def State.linkUp (s : State) (l : Nat) : Bool :=
  (s.land l).present && bit (s.reg (landReg l 4)).toNat 16 && s.bayUp (landingBay l)
/-- A landing that exchanges frames: its link is up and its partner is not lost (R390). -/
def State.linkLive (s : State) (l : Nat) : Bool := s.linkUp l && !bit (s.reg (landReg l 4)).toNat 17
/-- A landing that serves its rows; one that comes back while its pair serves them sits out the crossing (R22), and one whose fault has
been reported has stopped (R347, R443). -/
def State.landWorks (s : State) (l : Nat) : Bool := s.linkLive l && !(s.land l).sits && !(s.land l).faulted
/-- The working landings. -/
def State.landsUp (s : State) : List Nat := (List.range 8).filter s.landWorks

/-- The crossing number of a role in the current step (R33). -/
def State.crossingNo (s : State) (role : Nat) : Nat := (2 * s.job.step + role) % 65536

/-- mark_ge of R35. -/
def markGe (a b : Mark) : Bool :=
  let d := (a.1 + 65536 - b.1 % 65536) % 65536
  if d = 0 then decide (b.2 ≤ a.2) else decide (d < 32768)

/-- A mark that may be none, which compares earlier than plank 0 (R36). -/
def markGeO (a : Option Mark) (b : Mark) : Bool := match a with
  | none => false
  | some m => markGe m b

/-! ## Events (R495, R498) -/

/-- A payload from (size, value) fields, each at the next offset aligned to its size (R498). -/
def payload (fs : List (Nat × Nat)) : List Byte :=
  fs.foldl (fun bs f =>
    let pad := (f.1 - bs.length % f.1) % f.1
    bs ++ List.replicate pad 0 ++ leBytes f.1 f.2) []

/-- The unit that reports an event: a bay hub, 100 + a landing, or 200 the MP itself. A core's events come from its bay's hub. -/
def State.reporter (s : State) (code : Nat) (fs : List (Nat × Nat)) : Nat :=
  let v := fun (i : Nat) => ((fs[i]?).map (fun f => f.2)).getD 0
  if 0x0201 ≤ code ∧ code ≤ 0x0204 then v 1 / 64
  else if code = 0x0205 then v 0 / 64
  else if code = 0x0301 ∨ code = 0x0304 ∨ code = 0x0305 ∨ code / 256 = 4 then 100 + v 0
  else if code / 256 = 5 ∨ code = 0x0607 ∨ (0x0703 ≤ code ∧ code ≤ 0x0707) then v 0
  else if code = 0x0901 then ((s.cores.find? (fun e => e.2.roles.contains (v 2))).map (fun e => coreBay e.1)).getD 200
  else 200

/-- The bits of an event's trace word: code and sequence number in 6 bytes, least significant bit first (R526). -/
def traceWord (code seq : Nat) : List Bool := (List.range 48).map (bit (code + 65536 * (seq % 2 ^ 32)))

/-- A trace word goes to each connector whose pins carry the trace; one that is still sending a word drops it (R526). -/
def State.traceOut (s : State) (code seq : Nat) : State :=
  upTo 2 (fun b s =>
    let x := (s.reg (gloReg 0x700)).toNat
    if bit x (2 * b + 1) && !bit x (2 * b) then
      s.onBoard b (fun y => if y.trace.isEmpty then { y with trace := traceWord code seq } else y)
    else s) s

/-- Raises an event with the active board's number, the next sequence number, the time, the step and the version (Table 19.14). With no
active MP its unit queues it, board 2 until one collects it, and counts it when its queue of 1,024 is full (R482). -/
def State.raise (s : State) (code : Nat) (fs : List (Nat × Nat)) : State :=
  let e : Event :=
    { code := code, board := s.active.getD 2, seq := s.evSeq % 2 ^ 32, time := s.time,
      step := (if s.job.st = 0 then 0 else s.job.step), version := s.job.version, unit := s.reporter code fs, payload := payload fs }
  if s.active.isNone ∧ 1024 ≤ (s.evPending.filter (fun x => x.board == 2 && x.unit == e.unit)).length then { s with evLost := s.evLost + 1 }
  else
    let t := { s with evPending := s.evPending ++ [e], evSeq := s.evSeq + 1 }
    if s.active.isNone then t else t.traceOut code e.seq

/-- TIME_OUT goes high for 100 ns on each connector that carries the mark reference (R526). -/
def State.markPulse (s : State) : State :=
  upTo 2 (fun b s => if bit (s.reg (gloReg 0x700)).toNat (2 * b) then s.onBoard b (fun y => { y with pulseEnd := s.time + 10 }) else s) s

/-- A physical core as Table 19.15 encodes it. -/
def physCode (p : Nat) : Nat := coreBay p * 64 + coreIdx p
/-- The variant tag of a core's running role, or of its other role (Tables 12.5 and 17.15). -/
def State.roleTag (s : State) (p : Nat) (other : Bool) : Nat :=
  let r := s.reg (coreReg p 0 0x60)
  if bit (s.reg (coreReg p 0 0x80)).toNat 1 != other then field r 15 8 else field r 7 0
/-- The logical core a core runs, 0xFFFFFFFF with none. -/
def State.logicalOf (s : State) (p : Nat) : Nat := (s.core p).curRole.getD 0xFFFFFFFF

/-! ## Frames (Table 14.2) -/

/-- A frame with no object, version, index or flags. -/
def frame (typ vc side : Nat) (pay : List Byte) : Frame :=
  { side := BitVec.ofNat 128 side, seq := 0, object := 0, version := 0, typ := typ, vc := vc, index := 0, last := false,
    response := false, backward := false, resend := false, payload := pay }

/-- Queues a frame at a landing's output. -/
def State.pushFrame (s : State) (l : Nat) (f : Frame) : State := s.onLand l (fun x => { x with outQ := x.outQ ++ [f] })

/-- A COMMIT frame (Table 11.13) of kind k naming version v. -/
def State.commitFrame (s : State) (k v objects : Nat) : Frame :=
  { frame 9 4 (k + 256 * (s.job.attempt % 256) + 2 ^ 32 * (s.job.step % 2 ^ 32) + 2 ^ 64 * objects) [] with version := v }

/-- A landing sends HOLD with mask m for cause k, and HOLD_SENT shows the mask (R387, Table 14.9, Table 14.15). -/
def State.sendHold (s : State) (l m k bayByte : Nat) : State :=
  (s.pushFrame l (frame 6 4 (m + 2 ^ 32 * k + 2 ^ 40 * bayByte) [])).setReg (landReg l 8) (BitVec.ofNat 32 m)

/-- Every present landing sends HOLD with the given bits added to its mask, by order of the active MP. -/
def State.holdAll (s : State) (m k : Nat) : State :=
  if s.active.isNone then s
  else upTo 8 (fun l s => if (s.land l).present then s.sendHold l ((s.reg (landReg l 8)).toNat ||| m) k 0 else s) s

/-- The active MP clears RUN in every core (R491, R502, Table 17.4 order 7). -/
def State.stopCores (s : State) : State :=
  upTo 2880 (fun p s => if s.running p then s.fldMp (coreReg p 0 0) 0 0 0 else s) s

/-- Aborts the open attempt (R317): ABORT naming V + 1, the step and the attempt on every working landing, and STEP_ABORTED; the powers and
zero-run counters of an uncommitted step are those before it. With no active MP the board that becomes active aborts it (R316). -/
def State.abortAttempt (s : State) : State :=
  if s.job.aborted ∨ s.job.committed ∨ s.active.isNone then s
  else
    let v := (s.job.version + 1) % 65536
    let s := forAll s.landsUp (fun l s => s.pushFrame l (s.commitFrame 4 v 0)) s
    let s := s.onJob (fun j =>
      { j with aborted := true, prepared := [], zeroRun := if j.watchDone then j.zeroRunOld else j.zeroRun })
    let s := upTo 8 (fun l s =>
      let x := s.land l
      if x.luuStepDone then ((s.setReg (landReg l 0x604) x.p1Old).setReg (landReg l 0x608) x.p2Old).onLand l (fun x => { x with luuStepDone := false })
      else s) s
    s.raise 0x0104 [(8, s.job.step)]

/-- Halts the job (R491): aborts the attempt, stops every core, holds VC0 to VC3 of every landing with cause 2, raises JOB_HALTED.
A job that is neither running, holding, held nor waiting is not halted; with no active MP the next one halts it. -/
def State.haltJob (s : State) (reason : Nat) : State :=
  if s.job.st < 2 ∨ s.job.st = 6 then s
  else if s.active.isNone then s.onJob (fun j => { j with haltDue := reason })
  else
    let s := ((s.abortAttempt).stopCores).holdAll 15 2
    let s := s.onJob (fun j => { j with st := 6, haltDue := 0 })
    s.raise 0x0109 [(1, (Config.haltReason reason).toNat), (8, s.job.step)]

/-! ## The active MP -/

/-- Whether the active MP's behaviour is not defined: a master has written its LPDDR (Table 19.17). -/
def State.mpUndef (s : State) : Bool := match s.active with
  | some b => (s.board b).mpBad
  | none => false

/-- A row that the active MP runs: undefined while a master has written its LPDDR (Table 19.17). -/
def mpRow (f : State → State) (s : State) : Res := if s.mpUndef then .fault .mpUndefined else .next (f s)

/-! ## Core memories -/

/-- First byte address that the scratchpad does not decode (R64). -/
def spadTop : Nat := 0xC00000

/-- The scratchpad granules that bytes a to a + n − 1 touch (Table 3.13). -/
def granules (a n : Nat) : List Nat :=
  if n = 0 then [] else (List.range ((a + n - 1) / 16384 + 1 - a / 16384)).map (fun i => a / 16384 + i)

/-- The sill regions that addresses a to a + n − 1 touch (R71). -/
def regionsOf (a n : Nat) : List Nat :=
  if n = 0 then [] else (List.range ((a + n - 1) / 64 + 1 - a / 64)).map (fun i => a / 64 + i)

/-- The 64-byte lines that bytes a to a + n − 1 touch, by line address. -/
def linesOf (a n : Nat) : List Nat :=
  if n = 0 then [] else (List.range ((a + n - 1) / 64 + 1 - a / 64)).map (fun i => (a / 64 + i) * 64)

/-- The tap slot area in force: base, slots (R79, R80). -/
def Core.tapBase (c : Core) : Nat := field c.tapInForce 11 0 * 4096
def Core.tapSlots (c : Core) : Nat := field c.tapInForce 15 12
/-- Bytes of one tap slot: 64 KiB of elements and 4 KiB of side fields. -/
def slotBytes : Nat := 69632

/-- The tap slot that holds an address and the offset in it. -/
def Core.slotOf (c : Core) (a : Nat) : Option (Nat × Nat) :=
  if a < c.tapBase then none
  else if (a - c.tapBase) / slotBytes < c.tapSlots then some ((a - c.tapBase) / slotBytes, (a - c.tapBase) % slotBytes)
  else none

def Core.slot (c : Core) (n : Nat) : TapSlot := SMap.get {} c.slots n
def Core.setSlot (c : Core) (n : Nat) (t : TapSlot) : Core := { c with slots := SMap.set {} c.slots n t }

/-- Whether the tap has written the line at offset o of slot n (R82). A line of a free slot has no current plank and is not waited for (DESIGN
CHOICE, log entry 41). -/
def Core.lineFilled (c : Core) (n o : Nat) : Bool :=
  let t := c.slot n
  if !t.used then true
  else if o < 65536 then decide (o / 256 < t.beats)
  else decide (4 * ((o - 65536) / 64 + 1) ≤ t.beats) || decide (256 ≤ t.beats)

/-- Whether every line of bytes a to a + n − 1 that lies in a tap slot is filled (R82). -/
def Core.filled (c : Core) (a n : Nat) : Bool :=
  (linesOf a n).all (fun x => match c.slotOf x with
    | some (k, o) => c.lineFilled k o
    | none => true)

/-- The tap slots that bytes a to a + n − 1 touch. -/
def Core.slotsOf (c : Core) (a n : Nat) : List Nat :=
  (List.range c.tapSlots).filter (fun k =>
    decide (0 < n ∧ a < c.tapBase + (k + 1) * slotBytes ∧ c.tapBase + k * slotBytes < a + n))

/-- Whether bytes a to a + n − 1 touch granule g. -/
def touches (a n g : Nat) : Bool := decide (0 < n ∧ a / 16384 ≤ g ∧ g ≤ (a + n - 1) / 16384)

/-- The open sources of the tap slots that bytes a to a + n − 1 touch (R415). -/
def Core.slotMask (c : Core) (a n : Nat) : Mask :=
  (c.slotsOf a n).foldl (fun m k => if (c.slot k).used && (c.slot k).green then m ||| BitVec.ofNat 12 (2 ^ k) else m) 0

/-- The green mask of bytes a to a + n − 1: granule masks and open sources of the tap slots read (R415). -/
def Core.memMask (c : Core) (a n : Nat) : Mask :=
  c.gg.foldl (fun m e => if touches a n e.1 then m ||| e.2 else m) (c.slotMask a n)

/-- Granules, tap slots and green mask of byte ranges. -/
def rangeGran (rs : List (Nat × Nat)) : List Nat := rs.foldl (fun g r => (granules r.1 r.2).foldl insNat g) []
def Core.rangeSlots (c : Core) (rs : List (Nat × Nat)) : List Nat := rs.foldl (fun g r => (c.slotsOf r.1 r.2).foldl insNat g) []
def Core.rangeMask (c : Core) (rs : List (Nat × Nat)) : Mask := rs.foldl (fun m r => m ||| c.memMask r.1 r.2) 0
def Core.rangeFilled (c : Core) (rs : List (Nat × Nat)) : Bool := rs.all (fun r => c.filled r.1 r.2)
/-- The parts of byte ranges that lie in the scratchpad. -/
def clipRanges (rs : List (Nat × Nat)) : List (Nat × Nat) :=
  (rs.filter (fun r => decide (r.1 < spadTop))).map (fun r => (r.1, min r.2 (spadTop - r.1)))
/-- The granules that byte ranges in rising order cover whole. -/
def wholeGran (rs : List (Nat × Nat)) : List Nat :=
  (rangeGran rs).filter (fun g => decide ((g + 1) * 16384 ≤ rs.foldl (fun u r => if r.1 ≤ u then max u (r.1 + r.2) else u) (g * 16384)))

def Core.regMask (c : Core) (id : Nat) : Mask := SMap.get 0 c.gv id
def Core.granMask (c : Core) (g : Nat) : Mask := SMap.get 0 c.gg g
def Core.regnMask (c : Core) (r : Nat) : Mask := SMap.get 0 c.gr r

/-- Green log area in force: base and bytes (R423). -/
def Core.logBase (c : Core) : Nat := field c.glogInForce 11 0 * 4096
def Core.logSize (c : Core) : Nat := min 32 (field c.glogInForce 17 12) * 65536
/-- Entries of the green log (R423). -/
def Core.logCap (c : Core) : Nat := c.logSize / 64

/-- Whether a program may access bytes a to a + n − 1: decoded, and outside the green log while there is one (R64, R423). -/
def Core.spadOk (c : Core) (a n : Nat) : Bool :=
  decide (a + n ≤ spadTop) && (decide (c.logSize = 0) || decide (a + n ≤ c.logBase) || decide (c.logBase + c.logSize ≤ a))

/-- Registers by number: 0–63 V, 64–95 S, 96–111 X. -/
def Core.vreg (c : Core) (n : Nat) : V2048 := SMap.get 0 c.v n
def Core.sreg (c : Core) (n : Nat) : W64 := SMap.get 0 c.s n
def Core.xreg (c : Core) (n : Nat) : W64 := SMap.get 0 c.x n
def idS (n : Nat) : Nat := 64 + n
def idX (n : Nat) : Nat := 96 + n

/-- Writes a register by number with its green mask (R203). -/
def Core.setId (c : Core) (id v : Nat) (m : Mask) : Core :=
  let c := { c with gv := SMap.set 0 c.gv id m }
  if id < 64 then { c with v := SMap.set 0 c.v id (BitVec.ofNat 2048 v) }
  else if id < 96 then { c with s := SMap.set 0 c.s (id - 64) (BitVec.ofNat 64 v) }
  else { c with x := SMap.set 0 c.x (id - 96) (BitVec.ofNat 64 v) }

/-- A scalar register field of Table 7.13: 0–31 name S, 32–47 X (R192). -/
def Core.scal (c : Core) (f : Nat) : W64 := if f < 32 then c.sreg f else c.xreg (f - 32)

/-- Also writes a register by number in the point's shadow, for a result of an operation issued before the point: a rollback does not run
that operation again (R430). -/
def Point.shadow (q : Point) (id v : Nat) : Point :=
  if id < 64 then { q with v := SMap.set 0 q.v id (BitVec.ofNat 2048 v) }
  else if id < 96 then { q with s := SMap.set 0 q.s (id - 64) (BitVec.ofNat 64 v) }
  else { q with x := SMap.set 0 q.x (id - 96) (BitVec.ofNat 64 v) }

/-- A result of an operation issued under point number pt lands in a register. -/
def Core.landId (c : Core) (pt id v : Nat) (m : Mask) : Core :=
  let c := c.setId id v m
  if pt = c.ptSeq then c else { c with point := c.point.map (fun q => q.shadow id v) }

/-- Records the old contents of the lines of bytes a to a + n − 1 before their first write since the point, in the log area (R422, R423). -/
def Core.logLines (c : Core) (sill : Bool) (a n : Nat) : Core :=
  match c.point with
  | none => c
  | some q =>
    let mem := if sill then c.sill else c.spad
    let new := ((linesOf a n).filter (fun x => !q.log.any (fun e => e.sill == sill && e.addr == x))).zipIdx.map (fun x =>
      ({ sill := sill, addr := x.1, at_ := c.logBase + 64 * (q.log.length + x.2) } : LogEnt))
    { c with spad := new.foldl (fun m e => Mem.write m e.at_ (Mem.read mem e.addr 64)) c.spad,
             point := some { q with log := q.log ++ new } }

/-- After a write by an operation issued before the point, the log holds the lines as that operation leaves them, since a rollback does not
run it again (R430, log entry 40). -/
def Core.keepLines (c : Core) (pt : Nat) (sill : Bool) (a n : Nat) : Core :=
  match c.point with
  | none => c
  | some q =>
    if pt = c.ptSeq then c
    else
      let own := q.log.filter (fun e => e.sill == sill && (linesOf a n).contains e.addr)
      { c with spad := own.foldl (fun m e => Mem.write m e.at_ (Mem.read (if sill then c.sill else c.spad) e.addr 64)) c.spad }

/-- Writes scratchpad bytes by the core's own engines: the log first, then the bytes; the mask of a granule written whole becomes m, any
other granule's gains m (R203, R415, R422). -/
def Core.putSpad (c : Core) (pt a : Nat) (bs : List Byte) (m : Mask) : Core :=
  let n := bs.length
  let c := c.logLines false a n
  let whole := fun (x : Nat) => decide (a ≤ x * 16384 ∧ (x + 1) * 16384 ≤ a + n)
  let c := { c with spad := Mem.write c.spad a bs,
                    gg := (granules a n).foldl (fun g x => SMap.set 0 g x (if whole x then m else SMap.get 0 g x ||| m)) c.gg }
  c.keepLines pt false a n

/-- Writes sill image bytes by the core's own engines, with the log (R189, R422). -/
def Core.putSill (c : Core) (pt a : Nat) (bs : List Byte) : Core :=
  let c := c.logLines true a bs.length
  ({ c with sill := Mem.write c.sill a bs }).keepLines pt true a bs.length

/-- An operation has written every byte of some granules and regions: their masks are its mask (R203). -/
def Core.settle (c : Core) (f : Foot) (m : Mask) : Core :=
  { c with gg := f.gwAll.foldl (fun g x => SMap.set 0 g x m) c.gg, gr := f.rwAll.foldl (fun g x => SMap.set 0 g x m) c.gr }

/-- The accumulator at address a of bank r (R189). -/
def Core.acc (c : Core) (a r : Nat) : Nat := Mem.readNat c.sill (a * 512 + 4 * r) 4

/-- SILL_REGION n of a core (Table 3.7). -/
def regnReg (p n : Nat) : Nat := coreReg p 1 (0x400 + 4 * n)
/-- Whether a region is an export region (R77). -/
def State.exporting (s : State) (p n : Nat) : Bool := bit (s.reg (regnReg p n)).toNat 16

/-- Saves a region's state before its first write since the point (R422). -/
def State.logRegion (s : State) (p n : Nat) : State :=
  s.onCore p (fun c => match c.point with
    | some q =>
      if q.regions.any (fun e => e.1 == n) then c
      else { c with point := some { q with regions := q.regions ++ [(n, s.reg (regnReg p n), c.fresh.contains n)] } }
    | none => c)

/-- After a change by an operation issued before the point, the saved state of the region is as that operation leaves it (R430). -/
def State.keepRegion (s : State) (p pt n : Nat) : State :=
  s.onCore p (fun c =>
    if pt = c.ptSeq then c
    else { c with point := c.point.map (fun q =>
      { q with regions := q.regions.map (fun e => if e.1 = n then (n, s.reg (regnReg p n), c.fresh.contains n) else e) }) })

/-- k chunks into region n: an overwrite form sets the counter to 0, an accumulate form advances it, a fresh region takes the
first chunk at 0, and at 0x1FFF a further chunk sets SILL_LONG (R74, R99, R234). -/
def State.chunk (s : State) (p n k : Nat) (acc : Bool) : State :=
  if k = 0 then s else
  let a := regnReg p n
  let fresh := (s.core p).fresh.contains n
  let s := if fresh then s.onCore p (fun c => { c with fresh := c.fresh.filter (fun x => x != n) }) else s
  if !acc then s.setFld a 12 0 0
  else
    let start := if fresh then 0 else s.fld a 12 0
    let adv := if fresh then k - 1 else k
    let s := if 0x1FFF < start + adv then s.orReg a 0x2000 else s
    s.setFld a 12 0 (satAdd 0x1FFF start adv)

/-- The chunks of an operation issued under point number pt (R74, R422). -/
def State.chunkAt (s : State) (p pt n k : Nat) (acc : Bool) : State := ((s.logRegion p n).chunk p n k acc).keepRegion p pt n

/-- The sill flags that a stored value sets in its region (R75). -/
def State.sillFlags (s : State) (p n : Nat) (vals : List Nat) : State :=
  let ovf := vals.any (fun v => v % 2 ^ 31 == 0x7F800000)
  let nan := vals.any (fun v => decide (0x7F800000 < v % 2 ^ 31))
  let m : W32 := (if ovf then 0x4000 else 0) ||| (if nan then 0x8000 else 0)
  if m = 0 then s else s.orReg (regnReg p n) m

/-- A region's green mask gains m. -/
def Core.tintRegion (c : Core) (n : Nat) (m : Mask) : Core :=
  { c with gr := SMap.set 0 c.gr n (SMap.get 0 c.gr n ||| m) }

/-- Stores or accumulates the values of banks r0 upward at address a, with chunk counting left to the caller (R72, R75, R137). -/
def State.sillStore (s : State) (p pt a r0 : Nat) (vals : List Nat) (acc : Bool) (m : Mask) : State :=
  let n := a / 64
  let s := s.logRegion p n
  let c := s.core p
  let old := fun i => c.acc a (r0 + i)
  let res := vals.zipIdx.map (fun e => if acc then add32 (old e.2) e.1 else e.1)
  let s := s.setCore p ((c.putSill pt (a * 512 + 4 * r0) (res.flatMap (leBytes 4))).tintRegion n m)
  (s.sillFlags p n res).keepRegion p pt n

/-- Clears green source bits b in every tag of a core (R416). -/
def Core.clearSrc (c : Core) (b : Mask) : Core :=
  let k := ~~~b
  let cl := fun (m : SMap Mask) => m.filterMap (fun e => if e.2 &&& k = 0 then none else some (e.1, e.2 &&& k))
  { c with
    gv := cl c.gv, gg := cl c.gg, gr := cl c.gr, tileMask := c.tileMask &&& k, openSrc := c.openSrc &&& k,
    mulX := c.mulX.map (fun o => { o with mask := o.mask &&& k }), mulP := c.mulP.map (fun o => { o with mask := o.mask &&& k }),
    epiX := c.epiX.map (fun o => { o with mask := o.mask &&& k }), epiP := c.epiP.map (fun o => { o with mask := o.mask &&& k }),
    vpipe := c.vpipe.map (fun o => { o with mask := o.mask &&& k }),
    dtX := c.dtX.map (fun o => { o with mask := o.mask &&& k }), dtP := c.dtP.map (fun o => { o with mask := o.mask &&& k }),
    dq := c.dq.map (fun o => { o with mask := o.mask &&& k }), scq := c.scq.map (fun o => { o with mask := o.mask &&& k }),
    xfers := c.xfers.map (fun o => { o with mask := o.mask &&& k }),
    greenEv := c.greenEv.map (fun e => (e.1 &&& k, e.2)) }

/-- Whether any register, granule, region, the tile or a queued column holds a nonzero mask (R420). An operation in flight counts
with its outputs. -/
def Core.anyGreen (c : Core) : Bool :=
  !c.gv.isEmpty || !c.gg.isEmpty || !c.gr.isEmpty || c.tileMask != 0 || c.dq.any (fun q => q.mask != 0) ||
  c.mulX.any (fun o => o.mask != 0) || c.mulP.any (fun o => o.mask != 0) || c.epiX.any (fun o => o.mask != 0) ||
  c.epiP.any (fun o => o.mask != 0) || c.vpipe.any (fun o => o.mask != 0) || c.dtX.any (fun o => o.mask != 0) ||
  c.dtP.any (fun o => o.mask != 0) || c.scq.any (fun o => o.mask != 0) || c.xfers.any (fun o => o.mask != 0)

/-- Footprints of the operations in flight with their engines: 0 multiply unit, 1 epilogue unit, 2 vector engine, 3 dovetail engine,
4 move unit, 5 scalar loads and stores (R87). -/
def Core.feet (c : Core) : List (Nat × Foot) :=
  (c.mulX.toList ++ c.mulP.toList).map (fun o => (0, o.foot)) ++ (c.epiX.toList ++ c.epiP.toList).map (fun o => (1, o.foot)) ++
  c.vpipe.map (fun o => (o.eng, o.foot)) ++ (c.dtX.toList ++ c.dtP.toList).map (fun o => (3, o.foot)) ++
  c.scq.map (fun o => (3, { rw := [o.addr / 64] })) ++ c.xfers.map (fun o => (4, o.foot))

/-- Log lines that operations in flight may still log: what each reserved at issue, less what it has written since. A point starts with
them reserved (R425). -/
def Core.logHeld (c : Core) : Nat :=
  let mul := fun (o : MulOp) => o.foot.lines * ((if o.kind = 4 then o.cnt else o.n) - o.next) / max 1 (if o.kind = 4 then o.cnt else o.n)
  ((c.mulX.toList ++ c.mulP.toList).map mul ++ (c.epiX.toList ++ c.epiP.toList).map (fun o => o.foot.lines) ++
   c.vpipe.map (fun o => o.foot.lines) ++ (c.dtX.toList ++ c.dtP.toList).map (fun o => o.foot.lines - (if o.opc = 6 then o.prog else 0)) ++
   c.xfers.map (fun o => if o.kind = 2 then o.left else o.foot.lines)).sum + c.scq.length

/-- Footprints and green masks of the operations in flight, in issue order within each engine. -/
def Core.flying (c : Core) : List (Foot × Mask) :=
  (c.mulX.toList ++ c.mulP.toList).map (fun o => (o.foot, o.mask)) ++ (c.epiX.toList ++ c.epiP.toList).map (fun o => (o.foot, o.mask)) ++
  c.vpipe.map (fun o => (o.foot, o.mask)) ++ (c.dtX.toList ++ c.dtP.toList).map (fun o => (o.foot, o.mask)) ++
  c.xfers.map (fun o => (o.foot, o.mask))

/-- The mask of a granule once the operations in flight have written it (R203). -/
def Core.granView (c : Core) (g : Nat) : Mask :=
  c.flying.foldl (fun m e => if e.1.gwAll.contains g then e.2 else if e.1.gw.contains g then m ||| e.2 else m) (c.granMask g)
/-- The mask of a region once the operations in flight have written it. -/
def Core.regnView (c : Core) (n : Nat) : Mask :=
  c.flying.foldl (fun m e => if e.1.rwAll.contains n then e.2 else if e.1.rw.contains n then m ||| e.2 else m) (c.regnMask n)

/-- The green mask of byte ranges as an operation issued now will read them: tap slots, and granules with what operations in flight will
write there (R203 to R205). -/
def Core.readMask (c : Core) (rs : List (Nat × Nat)) : Mask :=
  let gs := c.gg.map (fun e => e.1) ++ c.flying.flatMap (fun e => if e.2 = 0 then [] else e.1.gw)
  let m := (gs.filter (fun g => rs.any (fun r => touches r.1 r.2 g))).foldl (fun m g => m ||| c.granView g) 0
  rs.foldl (fun m r => m ||| c.slotMask r.1 r.2) m

/-- Whether every earlier operation of every engine has completed (FENCE, Table 7.14). -/
def Core.drained (c : Core) : Bool := c.feet.isEmpty

/-- The scratchpad as reads of the vector engine and of SLD see it: with results of the same engine that have not landed. -/
def Core.spadView (c : Core) (eng : Nat) : Mem :=
  c.vpipe.foldl (fun m o => if o.eng = eng then o.spad.foldl (fun m w => Mem.write m w.1 w.2) m else m) c.spad

/-- Physical core of a logical core by a core's own map (R352, core block 8 offset 0x2000, two bytes an entry). -/
def State.mapOf (s : State) (p logical : Nat) : Nat :=
  let w := (s.reg (coreReg p 8 (0x2000 + 4 * (logical / 2)))).toNat
  let e := if logical % 2 = 0 then w % 65536 else w / 65536
  (e / 64) * 48 + e % 64

/-- A byte of a register area of a core's router: slot table at 0x1000, escape table at 0x4000 (R350, R353). -/
def State.rtrByte (s : State) (p off : Nat) : Nat := bits (s.reg (coreReg p 8 (off / 4 * 4))).toNat (8 * (off % 4) + 7) (8 * (off % 4))

end Sys2Proof.Machine
end

