-- ==== Sys2Proof/Machine/Issue.lean ====
section
/-! DEFINITION. Performance counters (R515 to R518), the operand forms every slot shares, and the issue of a bundle: predicate, faults, holds, rollback point, effects and loop control (R87, R166 to R207, R419 to R429). -/

namespace Sys2Proof.Machine

/-! ## Counters -/

/-- A 64-bit register as two words. -/
def State.reg64 (s : State) (a : Nat) : Nat := (s.reg a).toNat + 2 ^ 32 * (s.reg (a + 4)).toNat
def State.setReg64 (s : State) (a v : Nat) : State :=
  (s.setReg a (BitVec.ofNat 32 v)).setReg (a + 4) (BitVec.ofNat 32 (v / 2 ^ 32))

/-- Adds n to PC k of a core, with its sticky bit on a wrap (R518). -/
def State.addPc (s : State) (p k n : Nat) : State :=
  let a := coreReg p 5 (0x40 + 8 * k)
  let t := s.reg64 a % 2 ^ 48 + n
  let s := s.setReg64 a (t % 2 ^ 48)
  if t < 2 ^ 48 then s else s.orReg (coreReg p 5 0xC) (BitVec.ofNat 32 (2 ^ k))

/-- Whether PC k of a core counts now (R517, R520, Table 20.10). -/
def State.pcOn (s : State) (p k : Nat) : Bool :=
  let ctl := (s.reg (coreReg p 5 8)).toNat
  bit ctl k && !bit (s.reg (coreReg p 5 0xC)).toNat 7 && !s.fenced p &&
  (!bit ctl 7 || bit (s.reg (coreReg p 5 0x88)).toNat 0)

/-- n occurrences of event e at core p (Table 20.13). -/
def State.tally (s : State) (p e n : Nat) : State :=
  (List.range 6).foldl (fun s k =>
    if s.pcOn p k && (s.reg (coreReg p 5 (0x10 + 4 * k))).toNat % 512 == e then s.addPc p k n else s) s

/-- Counts n bytes at port k (0 at LAST 0xC8, 1 at 0xD8) of the unit whose BW_CTRL is at a, while it is enabled and SEL admits what is
counted (R522, Tables 20.16, 20.17). -/
def State.bwCount (s : State) (a k : Nat) (sel : Option Nat) (n : Nat) : State :=
  let want := s.fld a 13 8
  let hit := match sel with
    | none => true
    | some x => want == 63 || (want == x && decide (want < 32))
  let key := a + 8 + 16 * k
  if bit (s.reg a).toNat 5 && hit then { s with bwAcc := SMap.set 0 s.bwAcc key (SMap.get 0 s.bwAcc key + n) } else s

/-- Starts a rollback: issue stops, operations issued since the point that no unit has started are discarded, and the rollback is counted
(R428, R430). -/
def State.startRollback (s : State) (p : Nat) : State :=
  let s := s.onCore p (fun c =>
    { c with rolling := true, mulP := c.mulP.filter (fun o => o.pt != c.ptSeq), epiP := c.epiP.filter (fun o => o.pt != c.ptSeq),
             dtP := c.dtP.filter (fun o => o.pt != c.ptSeq) })
  (s.bump (coreReg p 0 0x78) 15 0 1).tally p 0x15 1

/-! ## Operand forms -/

/-- The low 24 bits of an address register, none when higher bits are set (R147). -/
def Core.spadAddr (c : Core) (x : Nat) : Option Nat :=
  let v := (c.xreg x).toNat
  if v < 2 ^ 24 then some v else none

/-- X[x] ← X[x] + n at issue, a post-increment (R172); its tag takes the mask of the register itself. -/
def Core.bumpX (c : Core) (x n : Nat) (m : Mask) : Core :=
  c.setId (idX x) ((c.xreg x).toNat + n) (c.regMask (idX x) ||| m)

/-- Fault codes of Table 7.16. -/
def fBadOpcode : Nat := 1
def fBadAddress : Nat := 2
def fBadFormat : Nat := 3
def fSillRange : Nat := 4
def fBadDescriptor : Nat := 5
def fBadRegister : Nat := 6
def fSlotClash : Nat := 7
def fBadLoop : Nat := 8
def fStackRange : Nat := 9
def fBadTarget : Nat := 10
def fTapRelease : Nat := 11
def fExportSize : Nat := 12
def fPcEnd : Nat := 13
def fGreenLog : Nat := 14

/-- The first of a list of conditional faults that holds; the lists' order is the model's (DESIGN CHOICE, log entry 19). -/
def firstFault (fs : List (Bool × Nat)) : Option Nat := (fs.find? (fun f => f.1)).map (fun f => f.2)

/-- What one slot of a bundle does, worked out from the state at issue: fault, registers read and written, footprint, engine
acceptance, its own wait, green demands and effects. noPoint says that it waits while a point is held or its bundle would take one, with wait
type pointWait (R420, R421, R426); trel marks a TREL, which a rollback may cancel (R429). inc holds register updates of the clk of issue, which a suppressed operation keeps (R429); eff holds the
rest. -/
structure Act where
  slot : Nat
  fault : Option Nat := none
  regR : List Nat := []
  regW : List Nat := []
  foot : Foot := {}
  eng : Nat := 9
  room : Bool := true
  hold : Nat := 0
  wait : WaitFor := .none
  exempt : Bool := false
  mask : Mask := 0
  seasoned : Bool := false
  seaRegs : Option (List Nat) := none
  noPoint : Bool := false
  pointWait : Nat := 6
  predOp : Bool := false
  counted : Bool := false
  trel : Bool := false
  segment : Option Nat := none
  last : Option Nat := none
  inc : Mask → Core → Core := fun _ c => c
  eff : Mask → State → State := fun _ s => s

/-- Whether two lists of numbers share one. -/
def meets (a b : List Nat) : Bool := a.any (fun x => b.contains x)

/-- Registers that operations in flight will write. -/
def Core.pendRegs (c : Core) : List Nat := c.feet.flatMap (fun e => e.2.regs)

/-- Whether an act waits under Table 3.13 for operations of other engines, or for an export to end (R77, R87, R88). -/
def State.conflict (s : State) (p : Nat) (a : Act) : Bool :=
  let c := s.core p
  a.foot.rw.any (fun n => s.exporting p n) ||
  c.feet.any (fun e =>
    let f := e.2
    let other := e.1 != a.eng
    let far := other && !(decide (e.1 < 2) && decide (a.eng < 2))
    (far && (meets a.foot.gr f.gw || meets a.foot.gw f.gr || meets a.foot.gw f.gw)) ||
    (other && (meets a.foot.rr f.rw || meets a.foot.rw f.rr || meets a.foot.rw f.rw)))

/-- The green mask of registers. -/
def Core.regsMask (c : Core) (ids : List Nat) : Mask := ids.foldl (fun m i => m ||| c.regMask i) (0 : Mask)

/-- Whether the predicate of a bundle lets its slots act (R173). -/
def predHolds (h : Hdr) (c : Core) : Bool :=
  !h.predEn || (if h.predNeg then c.sreg h.predReg.toNat == 0 else c.sreg h.predReg.toNat != 0)

/-- The mask of the predicate register as an act sees it: none where the predicate never applies (R203). -/
def Act.predMask (a : Act) (h : Hdr) (c : Core) : Mask := if h.predEn && !a.exempt then c.regMask (idS h.predReg.toNat) else 0

/-- The full input mask of an act: registers, memory and the predicate register (R203). -/
def Act.inputs (a : Act) (h : Hdr) (c : Core) : Mask := a.mask ||| c.regsMask a.regR ||| a.predMask h c

/-- Whether an act that leaves the core has a green input it must wait for: all its inputs, or the named registers and the predicate; of
an act that the predicate drops, the predicate alone (R204, Table 7.15). -/
def Act.greenHeld (a : Act) (h : Hdr) (c : Core) (runs : Bool) : Bool :=
  a.seasoned && (if runs then (match a.seaRegs with
    | none => a.inputs h c != 0
    | some rs => (c.regsMask rs ||| a.predMask h c) != 0) else a.predMask h c != 0)

/-- Pairs each act with whether it issues suppressed (R429): sup says so for each of the next counted operations. -/
def markSup : List Bool → List Act → List (Act × Bool)
  | _, [] => []
  | sup, a :: as => if a.counted then (a, sup.headD false) :: markSup sup.tail as else (a, false) :: markSup sup as

/-- The core stops before the bundle with a recorded fault; its hub raises PROGRAM_FAULT; the job halts (R206, R491). Counters stop
under FREEZE_ON_FAULT (Table 20.10). -/
def State.programFault (s : State) (p code bundle slot : Nat) : State :=
  let s := s.setReg (coreReg p 0 8) (BitVec.ofNat 32 (code + 256 * (bundle % 8192) + 2 ^ 21 * slot + 2 ^ 24))
  let s := (s.setFld (coreReg p 0 0) 0 0 0).setFld (coreReg p 0 4) 16 13 0
  let s := s.onCore p (fun c => { c with wait := .none })
  let s := if bit (s.reg (coreReg p 5 8)).toNat 8 then s.orReg (coreReg p 5 0xC) 0x80 else s
  let mid := match s.job.loaded with
    | some m => leNat m.man.mid
    | none => 0
  let s := s.raise 0x0201 [(4, s.logicalOf p), (2, physCode p), (2, bundle), (1, slot), (1, code), (16, mid)]
  s.haltJob 1

/-- The next bundle is held: WAITING, WAIT_TYPE and what it waits on (Table 7.18). -/
def State.holdIssue (s : State) (p t : Nat) (w : WaitFor) : State :=
  (s.setFld (coreReg p 0 4) 16 13 (1 + 2 * t)).onCore p (fun c => { c with wait := w })

/-- Loop levels after bundle b, inner level first: the bundle to return to, if a loop that ends at b runs on (R197). -/
def loopEnd : List LoopSt → Nat → Option Nat × List LoopSt
  | [], _ => (none, [])
  | l :: ls, b =>
    if l.active && l.last == b then
      if l.idx + 1 < l.count then (some l.start, { l with idx := l.idx + 1 } :: ls)
      else let r := loopEnd ls b; (r.1, {} :: r.2)
    else let r := loopEnd ls b; (r.1, l :: r.2)

/-- Moves the PC past bundle b: back to a loop's first bundle, or to b + 1; past bundle 8,191 the next issue fails (R197, R201). -/
def State.advance (s : State) (p b : Nat) : State :=
  let r := loopEnd (s.core p).loops b
  let s := s.onCore p (fun c => { c with loops := r.2 })
  match r.1 with
  | some t => s.setPc p t
  | none => if 8191 ≤ b then (s.setPc p 8191).onCore p (fun c => { c with pcEnd := true }) else s.setPc p (b + 1)

/-- Takes a rollback point: the shadow of registers and loop state, the last load issued, an empty log, and the log lines that operations in
flight may still need (R419, R425). -/
def Core.takePoint (c : Core) (bundle : Nat) : Core :=
  { c with
    point := some { bundle := bundle, v := c.v, s := c.s, x := c.x, loops := c.loops, strides := c.strides, seg := c.seg,
                    segRole := c.segRole, lastLoad := c.lastLoad, loadAfter := false, log := [], regions := [], rel := c.relIssued,
                    res := c.logHeld },
    ptSeq := c.ptSeq + 1, cntSince := [] }

/-- Drops the point at a group start with nothing green (R420). -/
def Core.dropPoint (c : Core) (start : Bool) : Core :=
  if start && c.point.isSome && !c.anyGreen then { c with point := none } else c

/-- A log wait is counted once for its bundle (R425, Table 16.6). -/
def State.countLogWait (s : State) (p : Nat) : State :=
  if (s.core p).logWaited then s
  else (s.bump (coreReg p 0 0x78) 31 16 1).onCore p (fun c => { c with logWaited := true })

/-- The post-increments of the acts and then their effects, slot by slot; a suppressed act keeps only the first (R172, R429). -/
def State.runActs (s : State) (p : Nat) (h : Hdr) (c0 : Core) (acts : List (Act × Bool)) : State :=
  let masks := acts.map (fun a => (a.1, a.2, a.1.inputs h c0))
  let s := masks.foldl (fun s a => s.onCore p (a.1.inc a.2.2)) s
  masks.foldl (fun s a => if a.2.1 then s else a.1.eff a.2.2 s) s

/-- The log lines that the acts that issue with effect reserve (R425). -/
def actLines (acts : List (Act × Bool)) : Nat := ((acts.filter (fun a => !a.2)).map (fun a => a.1.foot.lines)).sum

/-- The bookkeeping of an issue at bundle b: its counted operations since the point, each with whether it is a TREL with effect, the log lines
it has reserved, waits over, and the segment that starts here, if any (R46, R425, R429). -/
def Core.booked (c : Core) (b : Nat) (acts : List (Act × Bool)) (seg : Option Nat) : Core :=
  let ops := acts.filter (fun a => a.1.counted)
  { c with
    cntSince := (if c.point.isSome then c.cntSince ++ ops.map (fun a => a.1.trel && !a.2) else c.cntSince), suppress := c.suppress.drop ops.length,
    point := c.point.map (fun q => { q with res := q.res + actLines acts }),
    wait := .none, logWaited := false, stalled := false,
    seg := (if seg.isSome || b = 0 then b else c.seg), segRole := seg.getD (if b = 0 then 0 else c.segRole) }

/-- The end of an issue: no wait, the bundle and its vector operations counted, and the next bundle after last, unless the core now
holds for the end of the step (R201, Table 20.13). -/
def State.closeIssue (s : State) (p vx last : Nat) : State :=
  let s := s.setFld (coreReg p 0 4) 16 13 0
  let s := (s.tally p 1 1).tally p 0xC vx
  if (s.core p).endHold then s.setFld (coreReg p 0 4) 16 13 9 else s.advance p last

/-- What a bundle that may issue does: point, post-increments and effects slot by slot, segment, counters, next bundle. -/
def State.commitBundle (s : State) (p : Nat) (h : Hdr) (take : Bool) (acts : List (Act × Bool)) (b : Nat) : State :=
  let c0 := s.core p
  let s := s.onCore p (fun c => if take then c.takePoint b else c)
  let s := s.runActs p h c0 acts
  let s := s.onCore p (fun c => c.booked b acts (acts.findSome? (fun a => a.1.segment)))
  s.closeIssue p (acts.filter (fun a => a.1.slot == 1)).length ((acts.findSome? (fun a => a.1.last)).getD b)

/-- Issues a bundle at core p whose slots act as acts say (R169, R170, R173, R193, R204 to R206, R419 to R429). -/
def State.issueAt (s : State) (p : Nat) (h : Hdr) (all : List Act) : State :=
  let b := s.pc p
  let pend := (s.core p).pendRegs
  if (s.core p).pcEnd then s.programFault p fPcEnd 8191 7
  else if h.predEn && pend.contains (idS h.predReg.toNat) then s.holdIssue p 5 .none
  else
    let holds := predHolds h (s.core p)
    let run := if holds then all else all.filter (fun a => a.exempt)
    let acts := markSup (s.core p).suppress run
    let live := (acts.filter (fun a => !a.2)).map (fun a => a.1)
    -- a suppressed operation waits only for the registers it post-increments
    if acts.any (fun a => meets pend ((if a.2 then [] else a.1.regR) ++ a.1.regW)) then s.holdIssue p 5 .none
    else
      let start := h.group || b == 0 || run.any (fun a => a.segment.isSome)
      let s := s.onCore p (fun c => c.dropPoint start)
      let c := s.core p
      let green : Mask := run.foldl (fun m a => m ||| a.inputs h c) (all.foldl (fun m a => m ||| a.predMask h c) 0)
      let clash := (List.range run.length).any (fun i => (List.range i).any (fun j =>
        meets ((run[i]?).map (fun a => a.regW) |>.getD []) ((run[j]?).map (fun a => a.regW) |>.getD [])))
      let flt := match live.findSome? (fun a => a.fault.map (fun f => (f, a.slot))) with
        | some f => some f
        | none => if clash then some (fSlotClash, 7) else none
      match live.find? (fun a => a.hold != 0) with
      | some a => s.holdIssue p a.hold a.wait
      | none =>
        if live.any (fun a => !a.room || s.conflict p a) then s.holdIssue p 5 .none
        else
          match flt with
          | some f => if green = 0 then s.programFault p f.1 b f.2 else s.holdIssue p 6 .none
          | none =>
            let pred := live.any (fun a => a.predOp)
            let take := c.point.isNone && decide (0 < c.logSize) && !c.rolling && ((start && c.openSrc != 0) || pred)
            let held := c.point.isSome
            let used := (c.point.map (fun q => q.res)).getD c.logHeld
            match live.find? (fun a => a.noPoint && (held || (take && !a.predOp))) with
            | some a => s.holdIssue p a.pointWait .none
            | none =>
              if live.any (fun a => a.greenHeld h c true) || (!holds && all.any (fun a => !a.exempt && a.greenHeld h c false)) ||
                 (green != 0 && !held && !take) then s.holdIssue p 6 .none
              else if (held || take) && decide (c.logCap < used + actLines acts) then
                if c.openSrc.toNat / 256 ≠ 0 then s.programFault p fGreenLog b 7
                else (s.countLogWait p).holdIssue p 6 .none
              else s.commitBundle p h take acts b

/-- Whether a core may issue: its bay runs, it is not fenced, no rollback or end of step holds it. -/
def State.mayIssue (s : State) (p : Nat) : Bool := s.coreUp p && !(s.core p).rolling && !(s.core p).endHold

/-- The command of one operation: a running core issues the bundle at its PC, which holds this operation alone. -/
def issue (p : Nat) (h : Hdr) (act : State → Nat → Act) (s : State) : Res :=
  if 2880 ≤ p then .refused .noSuchUnit
  else if s.running p && s.mayIssue p then .next (s.issueAt p h [act s p])
  else .next s

end Sys2Proof.Machine
end

