-- ==== Sys2Proof/Machine/Operands.lean ====
section
/-! DEFINITION. Element formats of instructions and epilogues, array block sums, epilogue activations and conversions, and dovetail column forms: pure functions of operand values (R91 to R96, R105, R114 to R117, R136, R142 to R145, R177, R210, R217 to R227, R235 to R241). -/

namespace Sys2Proof.Machine

/-- Bits of an element in a format code of Table 7.5 (an FP6 element occupies one byte, R125). -/
def fmtBits (f : Nat) : Nat :=
  match f with
  | 0 => 32
  | 1 => 16
  | 2 => 16
  | 10 => 4
  | _ => 8

/-- The MX formats of Table 7.5. -/
def isMx (f : Nat) : Bool := decide (6 ≤ f ∧ f ≤ 10)
/-- Formats the array takes (Table 5.3). -/
def arrayFmt (f : Nat) : Bool := decide (1 ≤ f ∧ f ≤ 10)

/-- The class of Table 4.1 a format belongs to: 0 BF16 and FP16, 1 MX8 and plain FP8 (R92), 2 MXFP4, 3 INT8. -/
def fmtClass (f : Nat) : Nat :=
  match f with
  | 1 => 0
  | 2 => 0
  | 5 => 3
  | 10 => 2
  | _ => 1

/-- Whether a moving format pairs with a stationary format (Table 4.1). -/
def pairs (mv st : Nat) : Bool :=
  arrayFmt mv && arrayFmt st && (fmtClass mv == fmtClass st || (fmtClass mv == 2 && fmtClass st == 1))

/-- Bytes of 128 elements: the moving column size of Table 4.1 and the row size of R94. -/
def rowBytes (f : Nat) : Nat := 16 * fmtBits f

/-- The element type of a floating format code. -/
def fmtOf (f : Nat) : Fmt :=
  match f with
  | 0 => fFP32
  | 1 => fBF16
  | 2 => fFP16
  | 3 => fE4M3
  | 4 => fE5M2
  | 6 => fE4M3
  | 7 => fE5M2
  | 8 => fE2M3
  | 9 => fE3M2
  | _ => fE2M1

/-- The value of an element code without its scale; FP6 codes ignore bits 7 and 6 (R125). -/
def elNum (f code : Nat) : Num :=
  if f = 5 then int8Num code
  else if f = 8 ∨ f = 9 then (fmtOf f).decode (code % 64)
  else (fmtOf f).decode code

/-- The value of an element under its E8M0 scale (R126). -/
def elScaled (f code scale : Nat) : Num :=
  if isMx f then mxNum (fmtOf f) (if f = 8 ∨ f = 9 then code % 64 else code) scale else elNum f code

/-- ARRAY_STATUS flags (Table 4.9). -/
def arBlockInf : W32 := 1
def arBlockNan : W32 := 2
def arScaleNan : W32 := 4
def arSubn : W32 := 8

/-- The class of a list of products: none for a NaN case, some with the infinity or the exact sum (Table 5.6). -/
def sumProducts : List Num → Num
  | [] => .fin false 0 0
  | x :: xs =>
    match x, sumProducts xs with
    | .nan, _ => .nan
    | _, .nan => .nan
    | .inf a, .inf b => if a = b then .inf a else .nan
    | .inf a, _ => .inf a
    | _, .inf b => .inf b
    | .fin a m e, .fin b n k => let t := addFin (a, m, e) (b, n, k); .fin t.1 t.2.1 t.2.2

/-- A block sum rounded once to FP32 with its ARRAY_STATUS flags (R105, Table 5.6). scaleNan says that a scale of the block is 0xFF. -/
def blockSum (products : List Num) (shift : Int) (scaleNan : Bool) : Nat × W32 :=
  if scaleNan then (fFP32.nanCode, arScaleNan ||| arBlockNan)
  else match sumProducts products with
    | .nan => (fFP32.nanCode, arBlockNan)
    | .inf n => (fFP32.infCode n, 0)
    | .fin n m e =>
      if m = 0 then (0, 0)
      else
        let r := roundFin fFP32 .rne n m (e + shift)
        let subn := decide ((Nat.log2 m : Int) + e + shift < -126)
        (r.1, (if r.2 &&& flOverflow != 0 then arBlockInf else 0) ||| (if subn then arSubn else 0))

/-- One block of a tile row against one block of a column: element codes, the row's scale, the column's scale for each element. -/
def blockOf (fs fm : Nat) (as bs : List Nat) (sa : Nat) (sbs : List Nat) : Nat × W32 :=
  let bad := sa == 255 || sbs.any (fun s => s == 255)
  let prods := (as.zip (bs.zip sbs)).map (fun x =>
    match mulNum (elNum fs x.1) (elNum fm x.2.1) with
    | .fin n m e => .fin n m (e + (x.2.2 : Int) - 127)
    | y => y)
  blockSum prods ((sa : Int) - 127) bad

/-- The FP32 value one tile row sends to its bank for one column: four block sums and the tree (b0 + b1) + (b2 + b3) (R105). -/
def rowDot (fs fm : Nat) (as bs sas sbs : List Nat) : Nat × W32 :=
  let blk := fun q => blockOf fs fm ((as.drop (32 * q)).take 32) ((bs.drop (32 * q)).take 32) (sas.getD q 127) ((sbs.drop (32 * q)).take 32)
  let b0 := blk 0
  let b1 := blk 1
  let b2 := blk 2
  let b3 := blk 3
  (add32 (add32 b0.1 b1.1) (add32 b2.1 b3.1), b0.2 ||| b1.2 ||| b2.2 ||| b3.2)

/-! ## Epilogue (R114 to R117, R144) -/

/-- The unit of the fixed-point numbers that the logistic function is computed in, fine enough to round GELU and SiLU to FP32 exactly. -/
def fxOne : Nat := 2 ^ 640

/-- e^(−a) for a fixed-point a: the series at a / 2^16, squared 16 times. -/
def fxExpNeg (a : Nat) : Nat :=
  let z := a / 2 ^ 16
  let t := (List.range 64).foldr (fun k h => fxOne - z * h / (fxOne * (k + 1))) fxOne
  (List.range 16).foldl (fun h _ => h * h / fxOne) t

/-- √(8/π) in units of 2^−128 (log entry 39). -/
def geluRoot : Nat := 543012093759344928650364028703141847807

/-- The fixed-point argument of the logistic function for magnitude m * 2^e below 256: x for SiLU, x * sigma(x); √(8/π) (x + 0.044715 x³) for
GELU in its tanh form, x/2 * (1 + tanh(√(2/π) (x + 0.044715 x³))) (log entry 39). -/
def actArg (gelu : Bool) (m : Nat) (e : Int) : Nat :=
  let x := m * 2 ^ (640 + e).toNat
  if gelu then (x + x * (x * x / fxOne) / fxOne * 44715 / 1000000) * geluRoot / 2 ^ 128 else x

/-- The exactly rounded FP32 code of GELU or SiLU of a finite nonzero value. -/
def actRounded (gelu neg : Bool) (m : Nat) (e : Int) : Nat :=
  let a := if 8 < (Nat.log2 m : Int) + e + 1 then 256 * fxOne else actArg gelu m e
  let x := if 256 * fxOne ≤ a then 0 else fxExpNeg a
  (roundFin fFP32 .rne neg (m * ((if neg then x else fxOne) * fxOne / (fxOne + x))) (e - 640)).1

/-- Whether two FP32 codes are finite and differ by at most n ulp of the second. -/
def withinUlp (n v r : Nat) : Bool :=
  match fFP32.decode v, fFP32.decode r with
  | .fin vn vm ve, .fin rn rm re =>
    let fix := fun (n : Bool) (m : Nat) (e : Int) => (if n then -1 else 1) * ((m * 2 ^ (e + 149).toNat : Nat) : Int)
    decide ((fix vn vm ve - fix rn rm re).natAbs ≤ n * 2 ^ (re + 149).toNat)
  | _, _ => false

/-- The activation of R114 on an FP32 code: 0 none, 1 ReLU, 2 GELU, 3 SiLU. GELU and SiLU of a finite nonzero input are free values within
4 ulp of the exactly rounded result (R114, log entries 5 and 39). -/
def activate (act x : Nat) : Nat :=
  if act = 0 then x
  else match fFP32.decode x with
    | .nan => fFP32.nanCode
    | .inf n => if act = 1 then (if n then 0 else x) else if n then fFP32.signCode true else x
    | .fin n m e =>
      if act = 1 then (if n ∨ m = 0 then 0 else x)
      else if m = 0 then x
      else
        let v := (if act = 2 then Config.gelu (BitVec.ofNat 32 x) else Config.silu (BitVec.ofNat 32 x)).toNat
        let r := actRounded (act == 2) n m e
        if withinUlp 4 v r then v else r

/-- v3 of one accumulator: multiplier, bias, activation, each rounded to FP32 with RNE (R114). -/
def epiValue (v0 : Nat) (mult bias : Option Nat) (act : Nat) : Nat × Fl :=
  let r1 := match mult with
    | some m => fpMul fFP32 .rne (fFP32.decode v0) (fFP32.decode m)
    | none => (v0, 0)
  let r2 := match bias with
    | some b => fpAdd fFP32 .rne (fFP32.decode r1.1) (fFP32.decode b)
    | none => (r1.1, 0)
  (activate act r2.1, r1.2 ||| r2.2)

/-- A value times 2^k. -/
def Num.scale (x : Num) (k : Int) : Num :=
  match x with
  | .fin n m e => .fin n m (e + k)
  | y => y

/-- ⌈log2(x / y)⌉ for positive dyadic x and y. -/
def ceilLog2 (xm : Nat) (xe : Int) (ym : Nat) (ye : Int) : Int :=
  let k := (Nat.log2 xm : Int) + xe - (Nat.log2 ym + ye)
  -- x ≤ y * 2^k ?
  let e := min xe (ye + k)
  if xm * 2 ^ (xe - e).toNat ≤ ym * 2 ^ (ye + k - e).toNat then k else k + 1

/-- The largest finite magnitude of a list of values, none when all are zero, infinite or NaN. -/
def amaxFin : List Num → Option (Nat × Int)
  | [] => none
  | x :: xs =>
    match x, amaxFin xs with
    | .fin _ m e, some y =>
      if m = 0 then some y else (if cmpNum (.fin false m e) (.fin false y.1 y.2) = .lt then some y else some (m, e))
    | .fin _ m e, none => if m = 0 then none else some (m, e)
    | _, r => r

/-- The largest finite value of an element type. -/
def Fmt.maxNum (f : Fmt) : Nat × Int :=
  match f.decode f.maxCode with
  | .fin _ m e => (m, e)
  | _ => (1, 0)

/-- X of R116 for a block, d the output scale exponent, clamped to −127 to 127; a block with no nonzero finite value gives 0. -/
def mxScale (f : Fmt) (vals : List Num) (d : Int) : Int :=
  match amaxFin vals with
  | none => 0
  | some a =>
    let y := f.maxNum
    let x := ceilLog2 a.1 a.2 y.1 y.2 - d
    if x < -127 then -127 else if 127 < x then 127 else x

/-- Bits of an element in an epilogue output format of Table 4.5. -/
def epiBits (o : Nat) : Nat :=
  match o with
  | 0 => 32
  | 1 => 16
  | 2 => 16
  | 9 => 4
  | _ => 8

/-- The element type of an epilogue output format. -/
def epiFmt (o : Nat) : Fmt :=
  match o with
  | 0 => fFP32
  | 1 => fBF16
  | 2 => fFP16
  | 3 => fE4M3
  | 4 => fE5M2
  | 5 => fE4M3
  | 6 => fE5M2
  | 7 => fE2M3
  | 8 => fE3M2
  | _ => fE2M1

/-- One block of an epilogue output, at most 32 values of one row: element codes, scale byte, flags (R116, R143, R144). -/
def epiBlock (o : Nat) (d : Int) (vals : List Nat) : List Nat × Nat × Fl :=
  let f := epiFmt o
  let ns := vals.map fFP32.decode
  if o ≤ 2 then
    let rs := ns.map (fun x => narrow f .rne x)
    (rs.map (fun r => r.1), 127, rs.foldl (fun a r => a ||| r.2) 0)
  else if o ≤ 4 then
    let rs := ns.map (fun x => narrow f .rne (x.scale d))
    (rs.map (fun r => r.1), (127 - d).toNat, rs.foldl (fun a r => a ||| r.2) 0)
  else
    let special := ns.any (fun x => match x with
      | .fin _ _ _ => false
      | _ => true)
    let inf := ns.any (fun x => match x with
      | .inf _ => true
      | _ => false)
    if 7 ≤ o && special then
      (ns.map (fun _ => 0), 255, flScaleNan ||| (if inf then flInvalid else 0))
    else
      let x := mxScale f ns d
      let rs := ns.map (fun v => narrow f .rne (v.scale (-x)))
      (rs.map (fun r => r.1), (x + 127).toNat, rs.foldl (fun a r => a ||| r.2) 0)

/-- Flags that an epilogue sets (R134). -/
def epiFlags : Fl := flInvalid ||| flOverflow ||| flSaturate ||| flScaleNan

/-! ## Dovetail forms -/

/-- The set of a key in the match table (R210). -/
def dtSet (k : Nat) : Nat := (k ^^^ (k >>> 9) ^^^ (k >>> 18) ^^^ (k >>> 27)) % 512

/-- The K position that output position p takes under a steering pattern (Table 8.3), codes as one number. -/
def steer (mode codes p : Nat) : Nat :=
  if mode = 0 then 4 * (p / 2) + bits codes (4 * (p / 2) + 2 * (p % 2) + 1) (4 * (p / 2) + 2 * (p % 2))
  else 8 * (p / 4) + bits codes (12 * (p / 4) + 3 * (p % 4) + 2) (12 * (p / 4) + 3 * (p % 4))

/-- The bucket of a nonzero count (R235). -/
def bucketOf (count : Nat) : Nat := if count ≤ 1 then 0 else min 15 (Nat.log2 count)

/-- Live blocks of a zero mask of k words of 16 bytes, in rising order (R226). -/
def liveBlocks (k : Nat) (word : Nat → Nat) : List Nat :=
  (List.range (k / 32)).filter (fun q => (List.range 32).any (fun t => word (32 * q + t) != 2 ^ 128 - 1))

/-- Bytes of a compressed tile of each mode (Table 8.8), S scale bytes and w bits an element. -/
def ctSize (mode S w nnz runs present : Nat) : Nat :=
  match mode with
  | 0 => 16 + S + 2048 * w
  | 1 => 16 + S + 2048 + ceilDiv (nnz * w) 8
  | 2 => 16 + S + 2 * nnz + ceilDiv (nnz * w) 8
  | _ => 16 + S + 2 * runs + present * 16 * w

/-- The present stored rows as maximal runs (first, count) of a list of presence bits from row i (R239). -/
def runsOf : Nat → List Bool → List (Nat × Nat)
  | _, [] => []
  | i, b :: bs =>
    match b, runsOf (i + 1) bs with
    | false, rs => rs
    | true, (f, n) :: rs => if f = i + 1 then (i, n + 1) :: rs else (i, 1) :: (f, n) :: rs
    | true, [] => [(i, 1)]

end Sys2Proof.Machine
end

