-- ==== Sys2Proof/Machine/Array.lean ====
section
/-! DEFINITION. The matrix array: the AR slot's operations and what completes them (R90 to R123, R178 to R181, R74). -/

namespace Sys2Proof.Machine

/-- Places a multiply operation in the executing or the pending register; an arriving operation ends a self-test pass (R171, R432). -/
def Core.pushMul (c : Core) (o : MulOp) : Core :=
  let o := { o with ser := c.serial, pt := c.ptSeq }
  let c := { c with serial := c.serial + 1, bist := false }
  match c.mulX with
  | none => { c with mulX := some o }
  | some _ => { c with mulP := some o }

/-- The pending multiply, epilogue and dovetail operations start where their unit is free (R171); none does in a rollback (Table 16.2). -/
def Core.startMul (c : Core) : Core := if c.rolling || c.mulX.isSome then c else { c with mulX := c.mulP, mulP := none }
def Core.startEpi (c : Core) : Core := if c.rolling || c.epiX.isSome then c else { c with epiX := c.epiP, epiP := none }

/-- The executing multiply operation completes and the pending one starts (R171). -/
def Core.popMul (c : Core) : Core := { c with mulX := none }.startMul

/-- Whether an epilogue issued before the operation still writes a granule it reads, so that it must wait (R112). -/
def Core.epiBefore (c : Core) (o : MulOp) : Bool :=
  (c.epiX.toList ++ c.epiP.toList).any (fun e => decide (e.ser < o.ser) && meets e.foot.gw o.foot.gr)

/-- Byte ranges a stationary load reads: its rows and its scale area (R94 to R96). -/
def loadRanges (kind base pitch rows fmt scale : Nat) : List (Nat × Nat) :=
  let n := if kind = 0 then rows else 128
  (List.range n).map (fun r => (base + r * pitch, rowBytes fmt)) ++ (if isMx fmt then [(scale, 512)] else [])

/-- LDS and LDST (R93 to R97, R180, Table 7.6): kind 0 normal, 1 transposing. A nonzero bit of the pitch register above [23:0] is a
BAD_ADDRESS, as of an address, for a load of one row too (DESIGN CHOICE, log entry 41). -/
def actLoad (kind : Nat) (f : LdF) (s : State) (p : Nat) : Act :=
  let c := s.core p
  let fmt := f.fmt.toNat
  let rows := f.rows.toNat + 1
  let base := (c.xreg f.xb.toNat).toNat
  let pitch := (c.xreg f.xp.toNat).toNat
  let scale := (c.xreg f.xs.toNat).toNat
  let rs := loadRanges kind base pitch rows fmt scale
  let bad := base % 64 != 0 || pitch % 64 != 0 || decide (2 ^ 24 ≤ base) || (isMx fmt && decide (2 ^ 24 ≤ scale)) ||
    decide (2 ^ 24 ≤ pitch) || rs.any (fun r => !c.spadOk r.1 r.2)
  let flt := firstFault [(!arrayFmt fmt, fBadFormat), (bad, fBadAddress)]
  let rd := [idX f.xb.toNat, idX f.xp.toNat] ++ (if isMx fmt || f.inc then [idX f.xs.toNat] else [])
  let foot : Foot := if flt.isSome then {} else { gr := rangeGran rs, sl := c.rangeSlots rs }
  { slot := 0, fault := flt, regR := rd, regW := if f.inc then [idX f.xb.toNat, idX f.xs.toNat] else [], foot := foot, eng := 0,
    room := c.mulP.isNone, mask := c.readMask rs,
    inc := fun m c => if f.inc then (c.bumpX f.xb.toNat (128 * pitch) m).bumpX f.xs.toNat 512 m else c,
    eff := fun m s => s.onCore p (fun c =>
      let o : MulOp := { kind := kind, base := base, pitch := pitch, scale := scale, rows := rows, fmt := fmt, mask := m, foot := foot }
      let c := c.pushMul o
      { c with lastFmt := some fmt, lastLoad := some o,
               point := c.point.map (fun q => { q with loadAfter := true }) }) }

/-- The bytes of sill image lines one address of a stream writes: 64-byte lines over the active rows (R189). -/
def rowLines (rows : Nat) : Nat := ceilDiv rows 16

/-- Rows and green mask of the tile a stream will meet: those of the last load issued (R97, R180). -/
def Core.tileRows (c : Core) : Nat := match c.lastLoad with
  | some o => o.rows
  | none => match c.tile with
    | some t => t.rows
    | none => 0
def Core.loadMask (c : Core) : Mask :=
  (c.mulX.toList ++ c.mulP.toList).foldl (fun m o => if o.kind < 2 then o.mask else m) c.tileMask

/-- Format and sill faults common to STRM and STRD (R91, R98, R180). -/
def streamFaults (c : Core) (fmt n a : Nat) : List (Bool × Nat) :=
  match c.lastFmt with
  | none => [(true, fBadFormat)]
  | some st =>
    [(!pairs fmt st, fBadFormat),
     (decide (4096 < a + n) || (fmt == 10 && st == 10 && (n % 2 == 1 || a % 2 == 1)), fSillRange)]

/-- Byte ranges a stream reads: columns, then side area or explicit scales (R98, R101). -/
def Core.streamRanges (c : Core) (src n fmt : Nat) (expl : Bool) (sc : Nat) : List (Nat × Nat) :=
  (src, n * rowBytes fmt) ::
    (if !isMx fmt then [] else if expl then [(sc, 4 * n)]
     else match c.slotOf src with
       | some (k, _) => [(c.tapBase + k * slotBytes + 65536, 4096)]
       | none => [])

/-- The regions a stream overwrites whole: all 64 addresses of all 128 banks, without accumulating (R71, R203). -/
def wholeRegions (a n rows : Nat) (acc : Bool) : List Nat :=
  if acc || rows != 128 then [] else (regionsOf a n).filter (fun r => decide (a ≤ 64 * r ∧ 64 * r + 64 ≤ a + n))

/-- STRM (R90, R98 to R103, Table 7.6). -/
def actStrm (f : StrmF) (s : State) (p : Nat) : Act :=
  let c := s.core p
  let fmt := f.fmt.toNat
  let n := f.n.toNat + 1
  let a := f.a.toNat
  let src := (c.xreg f.xsrc.toNat).toNat
  let sc := (c.xreg f.xsc.toNat).toNat
  let useSc := isMx fmt && f.ssrc
  let rs := c.streamRanges src n fmt f.ssrc sc
  let inSlot := match c.slotOf src with
    | some (_, o) => decide (o + n * rowBytes fmt ≤ 65536)
    | none => false
  let bad := src % 64 != 0 || decide (2 ^ 24 ≤ src) || (useSc && decide (2 ^ 24 ≤ sc)) || rs.any (fun r => !c.spadOk r.1 r.2) ||
    (isMx fmt && !f.ssrc && !inSlot)
  let flt := firstFault (streamFaults c fmt n a ++ [(bad, fBadAddress)])
  let foot : Foot := if flt.isSome then {} else
    { gr := rangeGran rs, rw := regionsOf a n, sl := c.rangeSlots rs, lines := n * rowLines c.tileRows,
      rwAll := wholeRegions a n c.tileRows f.form }
  { slot := 0, fault := flt, regR := idX f.xsrc.toNat :: (if useSc then [idX f.xsc.toNat] else []), foot := foot, eng := 0,
    room := c.mulP.isNone, mask := c.readMask rs ||| c.loadMask,
    eff := fun m s => s.onCore p (fun c => c.pushMul
      { kind := 2, base := src, scale := sc, fmt := fmt, n := n, a := a, acc := f.form, expl := f.ssrc, mask := m, foot := foot }) }

/-- The green mask of the next n columns of the array queue that no earlier stream takes, those still being formed included (R205, R222). -/
def Core.queueMask (c : Core) (n : Nat) : Mask :=
  let taken := ((c.mulX.toList ++ c.mulP.toList).map (fun o => if o.kind = 3 then o.n - o.next else 0)).sum
  let qs := (c.dq.drop taken).take n
  let m := qs.foldl (fun m q => m ||| q.mask) 0
  if qs.length < n then (c.dtX.toList ++ c.dtP.toList).foldl (fun m o => if o.opc = 4 ∨ o.opc = 5 then m ||| o.mask else m) m else m

/-- STRD (R219 to R222, Table 7.6): a stream of the S[SN] columns at the head of the array queue. -/
def actStrd (f : StrdF) (s : State) (p : Nat) : Act :=
  let c := s.core p
  let fmt := f.fmt.toNat
  let n := (c.sreg f.sn.toNat).toNat
  let a := f.a.toNat
  let flt := firstFault (streamFaults c fmt n a)
  let foot : Foot := if flt.isSome then {} else
    { rw := regionsOf a n, lines := n * rowLines c.tileRows, rwAll := wholeRegions a n c.tileRows f.form }
  { slot := 0, fault := flt, regR := [idS f.sn.toNat], foot := foot, eng := 0, room := c.mulP.isNone,
    mask := c.loadMask ||| (if flt.isSome then c.queueMask n else 0),
    eff := fun m s => s.onCore p (fun c => c.pushMul
      { kind := 3, fmt := fmt, n := n, a := a, acc := f.form, mask := m, foot := foot }) }

/-- SCLR (R74, R180): its output is green from the predicate only (Table 7.15). -/
def actSclr (f : SclrF) (s : State) (p : Nat) : Act :=
  let c := s.core p
  let n := f.cnt.toNat + 1
  let flt := firstFault [(decide (64 < f.reg.toNat + n), fSillRange)]
  let regs := (List.range n).map (fun i => f.reg.toNat + i)
  let foot : Foot := if flt.isSome then {} else { rw := regs, lines := 512 * n, rwAll := regs }
  { slot := 0, fault := flt, foot := foot, eng := 0, room := c.mulP.isNone,
    eff := fun m s => s.onCore p (fun c => c.pushMul { kind := 4, reg := f.reg.toNat, cnt := n, mask := m, foot := foot }) }

/-- SEXP (R77, R181): marks regions for export; never predicated (R173). A region still being exported holds it (R77). -/
def actSexp (f : SexpF) (s : State) (p : Nat) : Act :=
  let n := f.cnt.toNat + 1
  let regs := (List.range n).map (fun i => f.reg.toNat + i)
  let b := s.pc p
  { slot := 0, fault := firstFault [(decide (64 < f.reg.toNat + n), fSillRange)], exempt := true, counted := true,
    room := !regs.any (fun r => s.exporting p r),
    eff := fun _ s =>
      let s := forAll regs (fun r s => s.orReg (regnReg p r) 0x10000) s
      s.onCore p (fun c => { c with exports := c.exports ++ [{ reg := f.reg.toNat, cnt := n, bundle := b, pt := c.ptSeq }] }) }

/-! ## Epilogue -/

/-- Byte ranges of n runs of len bytes, step apart: each run, or their hull where no granule lies between two runs. -/
def spanRanges (a step len n : Nat) : List (Nat × Nat) :=
  if n = 0 then [] else if step ≤ 16384 then [(a, step * (n - 1) + len)] else (List.range (min n 2048)).map (fun j => (a + step * j, len))

/-- A number of k bytes of a descriptor image at offset o. -/
def descNat (bs : List Byte) (o k : Nat) : Nat := leNat ((bs.drop o).take k)

/-- Whether a descriptor field is out of range or misaligned (Table 4.5, R113, R225); a misaligned out_addr or mask_addr is such a field, as
Table 7.16 has it, although R556 lists epilogue outputs under BAD_ADDRESS (DESIGN CHOICE, log entry 41). -/
def epiBad (bs : List Byte) : Bool :=
  let g := descNat bs
  let n := g 2 2
  let o := g 5 1
  decide (4095 < g 0 2) || n == 0 || decide (4096 < n) || (decide (5 ≤ o) && n % 32 != 0) || decide (4096 < g 0 2 + n) ||
  g 4 1 == 0 || decide (128 < g 4 1) || decide (9 < o) || decide (3 < g 6 1) || g 8 4 % 64 != 0 || decide (2 ^ 24 ≤ g 8 4) ||
  decide (2 ^ 24 ≤ g 12 4) || bits (g 16 4) 30 24 != 0 || bits (g 20 4) 30 24 != 0 ||
  (bit (g 28 1) 1 && bits (g 24 4) 23 0 % 64 != 0) || decide (8 ≤ g 28 1)

/-- The epilogue operation a descriptor at an address describes; d of −128 acts as −127 (Table 4.5). -/
def epiParse (addr : Nat) (bs : List Byte) (step bundle : Nat) : EpiOp :=
  let g := descNat bs
  let d := signed 8 (g 7 1)
  let bias := g 16 4
  let mult := g 20 4
  let fl := g 28 1
  { addr := addr, sillBase := g 0 2, cols := g 2 2, rows := g 4 1, fmt := g 5 1, act := g 6 1, d := (if d < -127 then -127 else d),
    outA := g 8 4, scA := g 12 4, bias := (if bit bias 31 then none else some (bias % 2 ^ 24)),
    mult := (if bit mult 31 then none else some (mult % 2 ^ 24)), maskA := (if bit fl 1 then some (bits (g 24 4) 23 0) else none),
    perRow := bit fl 0, scalarMult := bit fl 2, step := step, attempt := 0, bundle := bundle }

/-- Bytes of a stored row of an epilogue output (R115). -/
def epiRow (o : Nat) : Nat := 16 * epiBits o

/-- Byte ranges an epilogue reads and writes (R115, R225, R557). -/
def EpiOp.reads (e : EpiOp) : List (Nat × Nat) :=
  [(e.addr, 32)] ++
  (match e.mult with
   | some m => [(m, if e.scalarMult then 4 else 4 * e.cols)]
   | none => []) ++
  (match e.bias with
   | some b => [(b, if e.perRow then 512 else 4 * e.cols)]
   | none => [])
def EpiOp.writes (e : EpiOp) : List (Nat × Nat) :=
  [(e.outA, e.cols * epiRow e.fmt), (e.addr + 30, 2)] ++ (if 3 ≤ e.fmt then [(e.scA, 128 * ceilDiv e.cols 32)] else []) ++
  (match e.maskA with
   | some m => [(m, 64 * ceilDiv e.cols 4)]
   | none => [])

/-- EPI (R113, R118, Table 7.6): the descriptor is read at issue (R557), once no epilogue in flight may still write it (R120). -/
def actEpi (f : EpiF) (s : State) (p : Nat) : Act :=
  let c := s.core p
  let x := (c.xreg f.xd.toNat).toNat
  let addr := x + 32 * f.off.toNat
  let step := s.fld (coreReg p 1 0x10) 3 0
  let badA := decide (2 ^ 24 ≤ x) || addr % 32 != 0 || !c.spadOk addr 32
  let bs := if badA then [] else Mem.read c.spad addr 32
  let badD := epiBad bs
  let e := epiParse addr bs step (s.pc p)
  let rngBad := !badA && !badD && (e.reads ++ e.writes).any (fun r => !c.spadOk r.1 r.2)
  let flt := firstFault [(badA, fBadAddress), (badD, fBadDescriptor), (rngBad, fBadAddress)]
  let wl := (e.writes.map (fun r => (linesOf r.1 r.2).length)).sum
  let clip := clipRanges e.reads
  let hot := (c.epiX.toList ++ c.epiP.toList).any (fun o => o.foot.gw.any (touches addr 32))
  let foot : Foot :=
    if badA then {} else if badD then { gr := granules addr 32 }
    else if flt.isSome then { gr := rangeGran clip, rr := regionsOf e.sillBase e.cols, sl := c.rangeSlots clip }
    else { gr := rangeGran e.reads, gw := rangeGran e.writes, rr := regionsOf e.sillBase e.cols, sl := c.rangeSlots e.reads, lines := wl,
           gwAll := e.writes.flatMap (fun w => wholeGran [w]) }
  let gm := (if badA || badD then [] else regionsOf e.sillBase e.cols).foldl (fun m r => m ||| c.regnMask r) 0
  { slot := 0, fault := flt, regR := [idX f.xd.toNat], foot := foot, eng := 1, room := c.epiP.isNone && !hot && c.rangeFilled (if badA then [] else [(addr, 32)]),
    mask := c.readMask (if badA || badD then [(addr, 32)] else clip) ||| gm,
    eff := fun m s => s.onCore p (fun c =>
      let o := { e with mask := m, foot := foot, ser := c.serial, pt := c.ptSeq }
      let c := { c with serial := c.serial + 1 }
      match c.epiX with
      | none => { c with epiX := some o }
      | some _ => { c with epiP := some o }) }

/-- v3 of the drain: for each column the FP32 codes of rows 0 to 127, zero beyond the rows field, and the flags of steps 1 and 2. -/
def Core.epiColumn (c : Core) (e : EpiOp) (j : Nat) : List Nat × Fl :=
  let rd := fun a => Mem.readNat c.spad a 4
  let vs := (List.range 128).map (fun r =>
    if e.rows ≤ r then (0, (0 : Fl))
    else epiValue (c.acc (e.sillBase + j) r) (e.mult.map (fun m => rd (if e.scalarMult then m else m + 4 * j)))
      (e.bias.map (fun b => rd (if e.perRow then b + 4 * r else b + 4 * j))) e.act)
  (vs.map (fun v => v.1), vs.foldl (fun a v => a ||| v.2) 0)

/-- One attempt's block g of the drain: for each row the block's codes and scale (R115, R116). -/
def epiGroup (o : Nat) (d : Int) (cols : List (List Nat)) : List (List Nat × Nat × Fl) :=
  (List.range 128).map (fun r => epiBlock o d (cols.map (fun col => col.getD r 0)))

/-- What an epilogue attempt writes: (address, bytes) pairs of data and scales, the zero mask words, and the flags. -/
def Core.epiAttempt (c : Core) (e : EpiOp) : List (Nat × List Byte) × List Nat × Fl :=
  let d : Int := let x := e.d - e.attempt * e.step; if x < -127 then -127 else x
  let cols := (List.range e.cols).map (c.epiColumn e)
  let groups := (chunks 32 (ceilDiv e.cols 32) (cols.map (fun x => x.1))).map (fun g => (g.length, epiGroup e.fmt d g))
  let w := epiBits e.fmt
  let zero := fun (x : Nat) => x % 2 ^ (w - 1) == 0 || (decide (7 ≤ e.fmt ∧ e.fmt ≤ 8) && x % 32 == 0)
  let rows := groups.flatMap (fun g => (List.range g.1).map (fun t => g.2.map (fun r => r.1.getD t 0)))
  let data := rows.zipIdx.map (fun r => (e.outA + r.2 * epiRow e.fmt, leBytes (epiRow e.fmt) (unlanes w r.1)))
  let scs := if 3 ≤ e.fmt then groups.zipIdx.map (fun g => (e.scA + 128 * g.2, g.1.2.map (fun r => BitVec.ofNat 8 r.2.1))) else []
  let words := rows.map (fun r => unlanes 1 (r.zipIdx.map (fun x => if zero x.1 ∨ e.rows ≤ x.2 then 1 else 0)))
  let fl := (cols.foldl (fun a x => a ||| x.2) (0 : Fl)) ||| groups.foldl (fun a g => g.2.foldl (fun a r => a ||| r.2.2) a) 0
  (data ++ scs, words, fl)

/-- Raises an event for a core at most once in a crossing (R111, R119). -/
def State.raiseOnce (s : State) (p code : Nat) (fs : List (Nat × Nat)) : State :=
  if (s.core p).raised.contains code then s
  else (s.raise code fs).onCore p (fun c => { c with raised := code :: c.raised })

/-- Raises the events of a core whose data have become seasoned (R417). -/
def State.releaseGreen (s : State) (p : Nat) : State :=
  let evs := (s.core p).greenEv
  let s := s.onCore p (fun c => { c with greenEv := c.greenEv.filter (fun e => e.1 != 0) })
  forAll (evs.filter (fun e => e.1 == 0)) (fun e s => s.raiseOnce p e.2.1 e.2.2) s

/-- Raises an event that names a datum of mask m: at once when the datum is seasoned, else when it becomes so (R417). -/
def State.raiseGreen (s : State) (p : Nat) (m : Mask) (code : Nat) (fs : List (Nat × Nat)) : State :=
  (s.onCore p (fun c => { c with greenEv := c.greenEv ++ [(m, code, fs)] })).releaseGreen p

/-- Completes the attempt of epilogue e: rerun with lower d, or finish; a retry is counted as it completes (R111, R118, R119, R134,
Table 4.8). -/
def State.epiDone (s : State) (p : Nat) (e : EpiOp) : State :=
  let c := s.core p
  let out := c.epiAttempt e
  let m : Mask := e.foot.rr.foldl (fun m r => m ||| c.regnMask r) e.mask
  let s := s.onCore p (fun c => out.1.foldl (fun c w => c.putSpad e.pt w.1 w.2 m) c)
  let s := s.tally p 9 (if e.fmt = 0 then 2 * e.cols else e.cols)
  let long := e.foot.rr.find? (fun r => bit (s.reg (regnReg p r)).toNat 13)
  let s := match long with
    | some r => (s.orReg (coreReg p 1 0x14) 0x1000000).raiseGreen p m 0x0203 [(4, s.logicalOf p), (2, physCode p), (1, r)]
    | none => s
  let sat := out.2.2 &&& flSaturate != 0
  let s := if e.attempt = 0 then s else (s.bump (coreReg p 1 0x14) 15 0 1).tally p 0x14 1
  let rest := match e.maskA with
    | some a => (linesOf a (64 * ceilDiv e.cols 4)).length + 1
    | none => 1
  if sat && decide (e.attempt < 3) then
    s.onCore p (fun c => { c with epiX := some { e with attempt := e.attempt + 1, mask := m, foot := { e.foot with lines := rest } } })
  else
    let s := s.orReg (coreReg p 2 0x80) ((out.2.2 &&& epiFlags).setWidth 32)
    let d : Int := let x := e.d - e.attempt * e.step; if x < -127 then -127 else x
    let pad := (4 - e.cols % 4) % 4
    let s := match e.maskA with
      | some a => s.onCore p (fun c => c.putSpad e.pt a ((out.2.1 ++ List.replicate pad (2 ^ 128 - 1)).flatMap (leBytes 16)) m)
      | none => s
    let s := s.onCore p (fun c =>
      let c := (c.putSpad e.pt (e.addr + 30) (leBytes 1 (wrapInt 8 d) ++ leBytes 1 e.attempt) m).settle e.foot m
      { c with epiX := none }.startEpi)
    if sat then
      let s := s.bump (coreReg p 1 0x14) 23 16 1
      s.raiseGreen p m 0x0204 [(4, s.logicalOf p), (2, physCode p), (2, e.bundle), (1, wrapInt 8 d)]
    else s

/-- An epilogue attempt may complete once no earlier load or stream still reads what it writes, and its inputs in tap slots are
filled (R112, R82). -/
def Core.epiReady (c : Core) (e : EpiOp) : Bool :=
  c.rangeFilled e.reads && !(c.mulX.toList ++ c.mulP.toList).any (fun o => decide (o.ser < e.ser) && meets o.foot.gr e.foot.gw)

/-! ## Loads, columns, clears -/

/-- The tile a stationary load writes (R93 to R96). -/
def Core.loadTile (c : Core) (o : MulOp) : Tile :=
  let rb := rowBytes o.fmt
  let w := fmtBits o.fmt
  let els :=
    if o.kind = 0 then (List.range o.rows).map (fun r => Mem.readNat c.spad (o.base + r * o.pitch) rb)
    else
      let st := (List.range 128).map (fun k => Mem.readNat c.spad (o.base + k * o.pitch) rb)
      (List.range o.rows).map (fun r => unlanes w (st.map (fun x => x >>> (w * r))))
  let scs := (List.range o.rows).map (fun r =>
    if isMx o.fmt then (List.range 4).foldl (fun a q => a + (Mem.byte c.spad (o.scale + 128 * q + r)).toNat * 256 ^ q) 0
    else 127 * (1 + 256 + 65536 + 16777216))
  { fmt := o.fmt, rows := o.rows, els := els, scs := scs }

/-- One column of a stream: element codes, per-element scales, and its green mask. -/
abbrev ColIn := List Nat × List Nat × Mask

/-- Column j of a STRM: bytes at src + j × size and scales under R101. Where the column begins between two of the slot's columns, the side
area's index is rounded down (DESIGN CHOICE, log entry 41). -/
def Core.strmColumn (c : Core) (o : MulOp) (j : Nat) : ColIn :=
  let sz := rowBytes o.fmt
  let a := o.base + j * sz
  let els := lanes (fmtBits o.fmt) 128 (Mem.readNat c.spad a sz)
  let sc := fun q =>
    if !isMx o.fmt then 127
    else if o.expl then (Mem.byte c.spad (o.scale + 4 * j + q)).toNat
    else match c.slotOf a with
      | some (k, off) =>
        let n := off / sz
        let so := if o.fmt = 10 then 16 * (n / 4) + 4 * (n % 4) + q else 16 * (n / 2) + 4 * (n % 2) + q
        (Mem.byte c.spad (c.tapBase + k * slotBytes + 65536 + so)).toNat
      | none => 127
  (els, (List.range 128).map (fun i => sc (i / 32)), c.memMask a sz ||| (if isMx o.fmt && o.expl then c.memMask (o.scale + 4 * j) 4 else 0))

/-- Byte ranges one column needs, for the tap's fill (R82, R102). -/
def Core.columnRanges (c : Core) (o : MulOp) (j : Nat) : List (Nat × Nat) :=
  let sz := rowBytes o.fmt
  let a := o.base + j * sz
  (a, sz) :: (if !isMx o.fmt then [] else if o.expl then [(o.scale + 4 * j, 4)]
    else match c.slotOf a with
      | some (k, off) =>
        let n := off / sz
        [(c.tapBase + k * slotBytes + 65536 + (if o.fmt = 10 then 16 * (n / 4) else 16 * (n / 2)), 16)]
      | none => [])

/-- A column of the array queue as the array takes it, its bytes read as the STRD's format (R220, R221). -/
def queueColumn (q : QCol) (fmt : Nat) : ColIn := (lanes (fmtBits fmt) 128 (unlanes (fmtBits q.fmt) q.els), q.scs, q.mask)

/-- A column enters against the tile: block sums, trees, and the value of each active row into its bank (R90, R99, R105, R123). -/
def State.enterColumn (s : State) (p : Nat) (o : MulOp) (t : Tile) (col : ColIn) : State :=
  let c := s.core p
  let w := fmtBits t.fmt
  let vals := (t.els.zip t.scs).map (fun r => rowDot t.fmt o.fmt (lanes w 128 r.1) col.1 (lanes 8 4 r.2) col.2.1)
  let fl := vals.foldl (fun a v => a ||| v.2) (0 : W32)
  let m := o.mask ||| c.tileMask ||| col.2.2
  let a := o.a + o.next
  let n := a / 64
  let s := if o.touched.contains n then s else s.chunkAt p o.pt n 1 o.acc
  let s := s.sillStore p o.pt a 0 (vals.map (fun v => v.1)) o.acc m
  let s := if fl = 0 then s else s.orReg (coreReg p 1 0) fl
  let s := (s.tally p 7 1).tally p 0xA t.rows
  s.onCore p (fun c => { c with mulX := some { o with next := o.next + 1, touched := insNat o.touched n, mask := m } })

/-- Ends the stream when its last column has entered (R171). -/
def State.endStream (s : State) (p : Nat) : State :=
  s.onCore p (fun c => match c.mulX with
    | some o => if o.n ≤ o.next then (c.settle o.foot o.mask).popMul else c
    | none => c)

/-- Whether a dovetail operation that places columns is executing or pending (R222). -/
def Core.placing (c : Core) : Bool :=
  (c.dtX.toList ++ c.dtP.toList).any (fun o => o.opc == 4 || (o.opc == 5 && o.mode != 3))

/-- The next column of stream o enters, if its lines or its queued column are there; a STRD on an empty queue that nothing will fill
ends short (R102, R222). -/
def State.stepStream (s : State) (p : Nat) (o : MulOp) (t : Tile) : State :=
  let c := s.core p
  if o.n ≤ o.next then s.endStream p
  else if o.kind = 2 then
    if c.rangeFilled (c.columnRanges o o.next) && !c.epiBefore o then (s.enterColumn p o t (c.strmColumn o o.next)).endStream p else s
  else
    match c.dq with
    | q :: rest =>
      let s := s.setCore p { c with dq := rest }
      let s := if q.fmt = o.fmt then s else s.orReg (coreReg p 3 0) 0x20
      (s.enterColumn p o t (queueColumn q o.fmt)).endStream p
    | [] =>
      if c.placing then s
      else (s.orReg (coreReg p 3 0) 8).setCore p c.popMul

/-- Clears one region of a region clear: accumulators, counter and flags, and the fresh mark; the region takes the clear's mask
(R74, Table 7.15). EXPORT never changes. -/
def State.clearRegion (s : State) (p n : Nat) (o : MulOp) : State :=
  let s := s.logRegion p n
  let s := s.onCore p (fun c =>
    let c := c.logLines true (n * 32768) 32768
    let c := { c with sill := Mem.zero c.sill (n * 32768) 32768, fresh := insNat c.fresh n, gr := SMap.set 0 c.gr n o.mask }
    c.keepLines o.pt true (n * 32768) 32768)
  (s.setReg (regnReg p n) (s.reg (regnReg p n) &&& 0x10000)).keepRegion p o.pt n

/-! ## Meanings -/

/-- LDS. -/
def execLds (p : Nat) (h : Hdr) (f : LdF) (s : State) : Res := issue p h (actLoad 0 f) s
/-- LDST. -/
def execLdst (p : Nat) (h : Hdr) (f : LdF) (s : State) : Res := issue p h (actLoad 1 f) s
/-- STRM. -/
def execStrm (p : Nat) (h : Hdr) (f : StrmF) (s : State) : Res := issue p h (actStrm f) s
/-- STRD. -/
def execStrd (p : Nat) (h : Hdr) (f : StrdF) (s : State) : Res := issue p h (actStrd f) s
/-- EPI. -/
def execEpi (p : Nat) (h : Hdr) (f : EpiF) (s : State) : Res := issue p h (actEpi f) s
/-- SCLR. -/
def execSclr (p : Nat) (h : Hdr) (f : SclrF) (s : State) : Res := issue p h (actSclr f) s
/-- SEXP. -/
def execSexp (p : Nat) (h : Hdr) (f : SexpF) (s : State) : Res := issue p h (actSexp f) s

/-- A core event: nothing happens at a core that is fenced, or whose bay does not run. -/
def coreEvent (p : Nat) (f : State → State) (s : State) : Res :=
  if 2880 ≤ p then .refused .noSuchUnit else if s.coreUp p then .next (f s) else .next s

/-- A stationary load writes its last row, and the pending operation starts (R93, R97, R171). -/
def loadComplete (p : Nat) (s : State) : State :=
  let c := s.core p
  match c.mulX with
  | some o =>
    let rs := loadRanges o.kind o.base o.pitch o.rows o.fmt o.scale
    if o.kind < 2 ∧ c.rangeFilled rs ∧ !c.epiBefore o then
      (s.setCore p { c.popMul with tile := some (c.loadTile o), tileMask := o.mask ||| c.rangeMask rs }).tally p 8 128
    else s
  | none => s

/-- LOAD_COMPLETE. -/
def execLoadComplete (p : Nat) (s : State) : Res := coreEvent p (loadComplete p) s

/-- A column enters, or both columns 2i and 2i + 1 of an MXFP4 stream against an MXFP4 tile (R100, R102). No column enters in a rollback
(Table 16.2). -/
def columnEnter (p : Nat) (s : State) : State :=
  let c := s.core p
  match c.mulX, c.tile with
  | some o, some t =>
    if o.kind ≠ 2 ∧ o.kind ≠ 3 ∨ c.rolling then s
    else
      let s1 := s.stepStream p o t
      if o.fmt = 10 ∧ t.fmt = 10 then
        match (s1.core p).mulX with
        | some o1 => if o.next % 2 = 0 ∧ o1.ser = o.ser ∧ o1.next = o.next + 1 then s1.stepStream p o1 t else s1
        | none => s1
      else s1
  | _, _ => s

/-- COLUMN_ENTER. -/
def execColumnEnter (p : Nat) (s : State) : Res := coreEvent p (columnEnter p) s

/-- A region clear finishes one region's 64 clk (R74). -/
def regionClearDone (p : Nat) (s : State) : State :=
  match (s.core p).mulX with
  | some o =>
    if o.kind ≠ 4 then s
    else
      let s := s.clearRegion p (o.reg + o.next) o
      s.onCore p (fun c => if o.cnt ≤ o.next + 1 then c.popMul else { c with mulX := some { o with next := o.next + 1 } })
  | none => s

/-- REGION_CLEAR_DONE. -/
def execRegionClearDone (p : Nat) (s : State) : Res := coreEvent p (regionClearDone p) s

/-- An epilogue attempt completes (R118). -/
def epiAttemptDone (p : Nat) (s : State) : State :=
  match (s.core p).epiX with
  | some e => if (s.core p).epiReady e then s.epiDone p e else s
  | none => s

/-- EPI_ATTEMPT_DONE. -/
def execEpiAttemptDone (p : Nat) (s : State) : Res := coreEvent p (epiAttemptDone p) s

end Sys2Proof.Machine
end

