-- ==== Sys2Proof/Machine/Move.lean ====
section
/-! DEFINITION. The move unit: the MV slot's operations, the start and completion of transfers, MSEND delivery, and the waiting of accesses at a bay hub (R188 to R191, R348, R397 to R401, R403, R412, R447). Operations are named by their opcode of Table 7.12. -/

namespace Sys2Proof.Machine

/-! ## Stack addresses -/

/-- The present limit of a bay in bytes; 0 when it is dark (R397, R404, Table 15.4). -/
def State.stackLimit (s : State) (b : Nat) : Nat := if s.bayUp b then s.fld (hubReg b 0x400) 6 0 * 2 ^ 30 else 0

/-- Whether every byte a to a + n − 1 of the stack space is valid (R397). -/
def State.stackOk (s : State) (a n : Nat) : Bool :=
  let b := a / 2 ^ 36
  let o := a % 2 ^ 36
  if n = 0 then true
  else if o + n ≤ 2 ^ 36 then decide (b < 60) && decide (o + n ≤ s.stackLimit b)
  else decide (b < 59) && decide (2 ^ 36 ≤ s.stackLimit b) && decide (o + n - 2 ^ 36 ≤ s.stackLimit (b + 1))

/-- The healthy channels of a bay, ascending (Table 15.5). -/
def State.healthy (s : State) (b : Nat) : List Nat := (List.range 32).filter (fun c => bit (s.reg (hubReg b 0x404)).toNat c)

/-- The channel of a stack address (R400). -/
def State.channelOf (s : State) (a : Nat) : Nat :=
  let h := s.healthy (a / 2 ^ 36)
  h.getD (a % 2 ^ 36 / 1024 % h.length) 0

/-- Whether a bay's hub holds stack accesses: a failed channel, or a stack that is Stopped (R403, R412). -/
def State.bayWaits (s : State) (b : Nat) : Bool := (s.bay b).held || s.fld (hubReg b 0x40C) 9 8 == 2

/-- Whether a new access by another master than a move unit waits at the hub: accesses are held, or earlier ones of that kind still wait, so
that they proceed in arrival order (R403, R412). -/
def State.hubHolds (s : State) (b : Nat) : Bool := s.bayWaits b || (s.bay b).q.any (fun r => r.kind != 0)

/-- The 64 KiB blocks that n bytes from a touch (R447). -/
def blocksOf (a n : Nat) : List Nat := (List.range (ceilDiv (a % 65536 + n) 65536)).map (fun i => a / 65536 + i)

/-- Puts an access at the end of a bay's list. -/
def State.hubQueue (s : State) (b : Nat) (r : SReq) : State := s.onBay b (fun y => { y with q := y.q ++ [r] })

/-- Counts at a bay hub 64 bytes for each line that n bytes from a touch, at the line's channel: port 0 reads, 1 writes (R522, Table
20.16). -/
def State.hubCount (s : State) (port a n : Nat) : State :=
  if n = 0 then s
  else forAll (List.range (ceilDiv (a % 1024 + n) 1024)) (fun i s =>
    let x := max a ((a / 1024 + i) * 1024)
    let e := min (a + n) ((a / 1024 + i + 1) * 1024)
    s.bwCount (mkAddr (x / 2 ^ 36) 48 5 0xC0) port (some (s.channelOf x)) (64 * (ceilDiv e 64 - x / 64))) s

/-- A write of a bay stack that is performed now. -/
def State.stackPut (s : State) (a : Nat) (bs : List Byte) : State := { s.hubCount 1 a bs.length with stack := Mem.write s.stack a bs }

/-- A write by another master than a move unit: it waits while the hub holds accesses or guards a block that it touches, and is performed
at once otherwise (R403, R412, R447). -/
def State.hubWrite (s : State) (master a : Nat) (bs : List Byte) : State :=
  let b := a / 2 ^ 36
  if s.hubHolds b || (blocksOf a bs.length).any s.job.guard.contains then
    s.hubQueue b { core := master, wr := true, addr := a, spad := 0, data := bs, kind := 1 }
  else s.stackPut a bs

/-- The channels that n bytes from a touch (R400). -/
def State.chansOf (s : State) (a n : Nat) : List Nat :=
  ((List.range (ceilDiv (a % 1024 + n) 1024)).map (fun i => s.channelOf ((a / 1024 + i) * 1024))).eraseDups

/-- The channels that a waiting access touches. -/
def State.reqChans (s : State) (r : SReq) : List Nat := s.chansOf r.addr r.span

/-- Whether no earlier input of its landing waits at any hub: the frames of VC1 are written in sequence order (R376). -/
def State.inputTurn (s : State) (r : SReq) : Bool :=
  r.kind != 6 || s.bays.all (fun e => e.2.q.all (fun x => !(x.kind == 6 && x.core == r.core && decide (x.spad < r.spad))))

/-- The access that channel ch of a bay performs next: the oldest that touches it, once none before it shares a channel with it (R401,
R412). -/
def State.nextAccess (s : State) (b ch : Nat) : Option SReq :=
  let q := (s.bay b).q
  let i := q.findIdx (fun r => (s.reqChans r).contains ch)
  match q[i]? with
  | none => none
  | some r =>
    if (q.take i).any (fun x => (s.reqChans x).any (s.reqChans r).contains) || !s.inputTurn r then none else some r

/-- A landing or the active MP is about to write n bytes from a: the hub reads what it guards of them into the snapshot queue first, after
which the write proceeds (R447). -/
def State.readFirst (s : State) (a n : Nat) : State :=
  if s.job.guard.isEmpty then s else s.onJob (fun j => { j with guard := j.guard.filter (fun b => !(blocksOf a n).contains b) })

/-! ## Transfers -/

/-- Flits an input buffer holds of a class (R348). -/
def bufRoom (cls : Nat) : Nat := match cls with
  | 0 => 2
  | 3 => 4
  | 4 => 4
  | _ => 8

/-- The buffer class of a flit: escape flits on a tree share the escape buffer. -/
def bufClass (cls : Nat) : Nat := if cls = 4 then 3 else cls

/-- The flits that the buffer of a class holds at an input: those that wait there, and those copied from it of which a branch's copy is still
held (R348, R355). -/
def Router.load (r : Router) (i cls : Nat) : Nat :=
  ((SMap.get [] r.inb i).filter (fun f => bufClass f.cls == bufClass cls)).length +
  ((r.held.filter (fun h => h.2.inp == i && bufClass h.2.cls == bufClass cls)).map (fun h => h.2)).eraseDups.length

/-- Moves waiting flits of the move unit into a local input while it has room for the first of them. -/
def fillInput : List Flit → Router → Router
  | [], r => { r with wait := [] }
  | f :: fs, r =>
    if r.load 0 f.cls < bufRoom f.cls then fillInput fs { r with inb := SMap.set [] r.inb 0 (SMap.get [] r.inb 0 ++ [f]) } else { r with wait := f :: fs }

/-- A router takes the flits of its core that its local input has room for (R348). -/
def Router.fillLocal (r : Router) : Router := fillInput r.wait r

/-- Multicast targets of a group from a router on: local outputs of the group's tree (R355), fuel bounding the depth. -/
def State.mcTargets (s : State) (g : Nat) : Nat → Nat → List Nat
  | 0, _ => []
  | k + 1, p =>
    let m := s.rtrByte p (0x1500 + g) % 32
    let far := fun (o : Nat) => match o with
      | 1 => if coreRow p = 0 then none else coreAt (coreCol p) (coreRow p - 1)
      | 2 => coreAt (coreCol p + 1) (coreRow p)
      | 3 => coreAt (coreCol p) (coreRow p + 1)
      | _ => if coreCol p = 0 then none else coreAt (coreCol p - 1) (coreRow p)
    (if bit m 0 then [p] else []) ++
    ([1, 2, 3, 4].flatMap (fun o => if bit m o then (match far o with
      | some q => s.mcTargets g k q
      | none => []) else []))

/-- The flits of a message: 256 bytes each, for scratchpad addresses from dst, in packets of 4 KiB (R348). -/
def msgFlits (src msg dst cls grp addr : Nat) (bs : List Byte) : List Flit :=
  (chunks 256 (ceilDiv bs.length 256) bs).zipIdx.map (fun x =>
    { src := src, msg := msg, dst := dst, cls := cls, grp := grp, pkt := x.2 / 16, addr := addr + 256 * x.2, data := x.1 })

/-- Starts the transfer at the head of a core's list: stack lines go to their bay hub, a message's flits to the core's router (R188,
R348, R401). -/
def State.startXfer (s : State) (p : Nat) : State :=
  let c := s.core p
  match c.xfers with
  | x :: rest =>
    if x.kind = 2 ∨ x.kind = 3 then
      let reqs := (List.range x.lines).map (fun i =>
        if x.kind = 2 then ({ core := p, wr := false, addr := x.src + 64 * i, spad := x.dst + 64 * i, data := [] } : SReq)
        else { core := p, wr := true, addr := x.dst + 64 * i, spad := x.src + 64 * i, data := Mem.read c.spad (x.src + 64 * i) 64 })
      let s := if x.kind = 3 then s.tally p 0x12 (ceilDiv x.lines 4) else s
      forAll reqs (fun r s => s.onBay (r.addr / 2 ^ 36) (fun b => { b with q := b.q ++ [r] })) s
    else if x.kind = 4 then
      let bs := Mem.read c.spad x.src (64 * x.lines)
      let n := ceilDiv bs.length 256
      let dst := (x.dsts.headD (0, 0)).1
      let fl := msgFlits p x.msg dst x.cls (if x.cls = 2 then dst else 0) x.dst bs
      let tg := if x.cls = 2 then (s.mcTargets dst 112 p).map (fun t => (t, n)) else [(dst, n)]
      let s := s.setCore p { c with xfers := { x with dsts := tg } :: rest }
      let r := s.rtr p
      (s.setRtr p (Router.fillLocal { r with wait := r.wait ++ fl })).tally p 0x12 n
    else s
  | [] => s

/-- Queues a transfer; the head of the list is the one in flight. -/
def State.pushXfer (s : State) (p : Nat) (x : Xfer) : State :=
  let c := s.core p
  let s := s.setCore p { c with xfers := c.xfers ++ [{ x with pt := c.ptSeq, msg := c.msgSeq }], msgSeq := c.msgSeq + 1 }
  if c.xfers.isEmpty then s.startXfer p else s

/-- The logical core count of the manifest or alternate in use, 0 with none. -/
def State.logicalCount (s : State) : Nat := match s.job.loaded with
  | some m => m.logical
  | none => 0

/-- An MV operation (R188 to R190, R203, R204, Tables 7.11 and 7.12). A CLS of 3, which Table 7.11 does not list, fails with BAD_TARGET
(log entry 10). -/
def actMv (opc : Nat) (f : MvF) (s : State) (p : Nat) : Act :=
  let c := s.core p
  let xs := f.xs.toNat
  let xd := f.xd.toNat
  let src := (c.xreg xs).toNat
  let dst := (c.xreg xd).toNat
  let lines := f.len.toNat + 1
  let n := 64 * lines
  let cls := f.cls.toNat
  let tgt := (c.sreg f.st.toNat).toNat
  let spadBad := fun a => a % 64 != 0 || !c.spadOk a n
  let sillBad := fun a => a % 64 != 0 || decide (0x200000 < a + n)
  let stackBad := fun a => a % 64 != 0 || decide (2 ^ 42 ≤ a)
  let badA :=
    match opc with
    | 1 => spadBad src || spadBad dst
    | 2 => stackBad src || spadBad dst
    | 3 => spadBad src || stackBad dst
    | 4 => spadBad src || dst % 64 != 0 || decide (spadTop < dst + n)
    | 5 => sillBad src || spadBad dst
    | _ => spadBad src || sillBad dst
  let badS := (opc == 2 && !s.stackOk src n) || (opc == 3 && !s.stackOk dst n)
  let badT := opc == 4 &&
    (cls == 3 || (cls == 2 && (decide (64 ≤ tgt) || !bit (s.rtrByte p (0x1500 + tgt)) 6)) || (decide (cls ≤ 1) && decide (s.logicalCount ≤ tgt)))
  let flt := firstFault [(badA, fBadAddress), (badS, fStackRange), (badT, fBadTarget)]
  let rdS := opc != 2 && opc != 5
  let wrS := opc == 1 || opc == 2 || opc == 5
  let rs := if rdS then [(src, n)] else []
  let ws := if wrS then [(dst, n)] else []
  let foot : Foot := if flt.isSome then {} else
    { gr := rangeGran rs, gw := rangeGran ws, rr := (if opc = 5 then (granules (src / 2) (n / 2)) else []),
      rw := (if opc = 6 then (granules (dst / 2) (n / 2)) else []), sl := c.rangeSlots rs,
      lines := (if wrS || opc == 6 then lines else 0), gwAll := wholeGran ws,
      rwAll := (if opc = 6 && !f.form then (granules (dst / 2) (n / 2)).filter (fun r => decide (dst ≤ 32768 * r ∧ 32768 * (r + 1) ≤ dst + n)) else []) }
  let regMaskIn : Mask := if opc = 5 then (granules (src / 2) (n / 2)).foldl (fun m r => m ||| c.regnView r) 0 else 0
  let incs := if f.inc then [xs, xd] else []
  { slot := 3, fault := flt, regR := [idX xs, idX xd] ++ (if opc = 4 then [idS f.st.toNat] else []), regW := incs.map idX, foot := foot,
    eng := 4, room := decide (c.xfers.length < 8) && c.rangeFilled (if flt.isSome then [] else rs),
    mask := c.readMask rs ||| regMaskIn,
    seasoned := opc == 2 || opc == 3 || opc == 4, seaRegs := (if opc = 2 then some [idX xs] else none), counted := opc == 3 || opc == 4,
    inc := fun m c => incX incs n m c,
    eff := fun m s => s.pushXfer p
      { kind := opc, src := src, dst := dst, lines := lines, acc := f.form, cls := cls, ctr := f.ctr.toNat, left := lines,
        dsts := (if opc = 4 then [(if cls = 2 then tgt else s.mapOf p tgt, 0)] else []), mask := m, foot := foot } }
where
  /-- The post-increment of XS and XD, once when they are the same register (Table 7.11). -/
  incX (xs : List Nat) (n : Nat) (m : Mask) (c : Core) : Core := xs.eraseDups.foldl (fun c x => c.bumpX x n m) c

/-- The write of an MSWR into the sill image, line by line in bank order (R189, R72, R74). -/
def State.sillImageWrite (s : State) (p : Nat) (x : Xfer) (bs : List Byte) : State :=
  let s := forAll x.foot.rw (fun r s => s.chunkAt p x.pt r 1 x.acc) s
  forAll ((chunks 64 x.lines bs).zipIdx) (fun l s =>
    let a := x.dst + 64 * l.2
    s.sillStore p x.pt (a / 512) (a % 512 / 4) ((chunks 4 16 l.1).map leNat) x.acc x.mask) (s.tally p 0xA (16 * x.lines))

/-- A transfer completes and frees its place, and the next one starts (R188). Four lines of 64 bytes count as one flit (R348, R517). -/
def moveTransferDone (p : Nat) (s : State) : State :=
  let c := s.core p
  match c.xfers with
  | [] => s
  | x :: rest =>
    let n := 64 * x.lines
    let fin := fun (s : State) => (s.onCore p (fun c => { c.settle x.foot x.mask with xfers := rest })).startXfer p
    match x.kind with
    | 1 => fin (s.setCore p (c.putSpad x.pt x.dst (Mem.read c.spad x.src n) x.mask))
    | 2 => if x.left = 0 then fin (s.tally p 0x13 (ceilDiv x.lines 4)) else s
    | 3 => if x.left = 0 then fin s else s
    | 4 => if x.dsts.isEmpty then fin s else s
    | 5 => fin (s.setCore p (c.putSpad x.pt x.dst (Mem.read c.sill x.src n) x.mask))
    | _ => fin (s.sillImageWrite p x (Mem.read c.spad x.src n))

/-- RECV_CNT n of a core (Table 7.20). -/
def recvReg (p n : Nat) : Nat := coreReg p 4 (0x100 + 4 * n)

/-- The last byte of core p's message is written at target t: its counter rises and the sender learns of it (R190). -/
def msendDelivery (p t : Nat) (s : State) : State :=
  let c := s.core p
  match c.xfers with
  | [] => s
  | x :: rest =>
    if x.kind = 4 ∧ x.dsts.contains (t, 0) then
      let s := s.setCore p { c with xfers := { x with dsts := x.dsts.erase (t, 0) } :: rest }
      s.setReg (recvReg t x.ctr) (s.reg (recvReg t x.ctr) + 1)
    else s

/-! ## Meanings -/

/-- MCPY. -/
def execMcpy (p : Nat) (h : Hdr) (f : MvF) (s : State) : Res := issue p h (actMv 1 f) s
/-- MSLD. -/
def execMsld (p : Nat) (h : Hdr) (f : MvF) (s : State) : Res := issue p h (actMv 2 f) s
/-- MSST. -/
def execMsst (p : Nat) (h : Hdr) (f : MvF) (s : State) : Res := issue p h (actMv 3 f) s
/-- MSEND. -/
def execMsend (p : Nat) (h : Hdr) (f : MvF) (s : State) : Res := issue p h (actMv 4 f) s
/-- MSRD. -/
def execMsrd (p : Nat) (h : Hdr) (f : MvF) (s : State) : Res := issue p h (actMv 5 f) s
/-- MSWR. -/
def execMswr (p : Nat) (h : Hdr) (f : MvF) (s : State) : Res := issue p h (actMv 6 f) s
/-- MOVE_TRANSFER_DONE. -/
def execMoveTransferDone (p : Nat) (s : State) : Res := coreEvent p (moveTransferDone p) s
/-- MSEND_DELIVERY. -/
def execMsendDelivery (p t : Nat) (s : State) : Res :=
  if 2880 ≤ t then .refused .noSuchUnit else coreEvent p (msendDelivery p t) s

end Sys2Proof.Machine
end

