-- ==== Sys2Proof/Machine/Control.lean ====
section
/-! DEFINITION. The CT slot: waits, barriers, loops, tap release, end of step, log, counters and scalar operations (R37, R173, R175, R176, R192 to R202), and the core events that follow them. -/

namespace Sys2Proof.Machine

/-- The plank number a WAITM waits on (R198). -/
def Core.waitPlank (c : Core) (base lm : Nat) : Nat :=
  ((List.range 4).foldl (fun t l => if bit lm l then
    let x := c.loops.getD l {}
    t + x.stride * x.idx else t) base) % 2 ^ 32

/-- Whether a mark wait of a kind holds its condition (Table 2.1). -/
def Core.markMet (c : Core) (kind : Nat) (m : Mark) : Bool :=
  match kind with
  | 0 => markGeO c.arrM m
  | 1 => markGeO c.seaM m
  | 2 => markGeO c.retM m
  | _ => markGeO c.gloM m

/-- WAITM (R37, R193, R194, R198). -/
def actWaitm (f : WaitmF) (s : State) (p : Nat) : Act :=
  let c := s.core p
  let role := if f.role then 1 else 0
  let m : Mark := (s.crossingNo role, c.waitPlank f.base.toNat f.lm.toNat)
  let met := c.markMet f.kind.toNat m
  { slot := 4, exempt := true, segment := some role, hold := (if met then 0 else 1), wait := (if met then .none else .mark f.kind.toNat m) }

/-- WAITR (R190, Table 7.14). -/
def actWaitr (f : CtrF) (s : State) (p : Nat) : Act :=
  let met := decide (f.value.toNat ≤ (s.reg (recvReg p f.ctr.toNat)).toNat)
  { slot := 4, exempt := true, hold := (if met then 0 else 2), wait := (if met then .none else .recv f.ctr.toNat f.value.toNat) }

/-- The key of a barrier counter in a core's counts: scope 0 the bay hub, scope 1 the root hub. -/
def barKey (scope : Bool) (ctr : Nat) : Nat := ctr + (if scope then 64 else 0)

/-- BARA (R199, R361): waits at issue while the arrival count exceeds the completion count received; sends one arrival token. -/
def actBara (f : BarF) (s : State) (p : Nat) : Act :=
  let c := s.core p
  let k := barKey f.scope f.bctr.toNat
  let met := decide (SMap.get 0 c.arrB k ≤ SMap.get 0 c.doneB k)
  { slot := 4, exempt := true, counted := true, hold := (if met then 0 else 3),
    eff := fun _ s =>
      let s := s.onCore p (fun c => { c with arrB := SMap.set 0 c.arrB k (SMap.get 0 c.arrB k + 1) })
      { s with sn := s.sn ++ [{ typ := 3, head := (if f.scope then 60 else coreBay p), a := f.bctr.toNat, b := p }] } }

/-- BARW (R199). -/
def actBarw (f : BarF) (s : State) (p : Nat) : Act :=
  let c := s.core p
  let k := barKey f.scope f.bctr.toNat
  let met := decide (SMap.get 0 c.arrB k ≤ SMap.get 0 c.doneB k)
  { slot := 4, exempt := true, hold := (if met then 0 else 3), wait := (if met then .none else .barrier f.scope f.bctr.toNat) }

/-- FENCE (Table 7.14). -/
def actFence (s : State) (p : Nat) : Act := { slot := 4, exempt := true, hold := (if (s.core p).drained then 0 else 4) }

/-- LOOP (R197). -/
def actLoop (f : LoopF) (s : State) (p : Nat) : Act :=
  let c := s.core p
  let b := s.pc p
  let lvl := f.lvl.toNat
  let last := b + f.body.toNat
  let nest := c.loops.zipIdx.any (fun l => l.1.active && (decide (l.2 ≤ lvl) || decide (l.1.last < last)))
  { slot := 4, exempt := true, fault := firstFault [(f.body == 0 || decide (8191 < last) || nest, fBadLoop)],
    last := (if f.count = 0 then some last else none),
    eff := fun _ s => if f.count = 0 then s else s.onCore p (fun c =>
      let l : LoopSt := { active := true, start := b + 1, last := last, count := f.count.toNat, idx := 0, stride := c.strides.getD lvl 0 }
      { c with loops := listSet c.loops lvl l }) }

/-- MSTR (R198). -/
def actMstr (f : MstrF) (_s : State) (p : Nat) : Act :=
  { slot := 4, exempt := true, eff := fun _ s => s.onCore p (fun c => { c with strides := listSet c.strides f.lvl.toNat f.stride.toNat }) }

/-- TREL (R200, R204): releases the oldest slot not yet released; fails when every filled slot has been released. -/
def actTrel (s : State) (p : Nat) : Act :=
  let c := s.core p
  { slot := 4, fault := firstFault [(decide (c.nextFill ≤ c.relIssued), fTapRelease)], seasoned := true, seaRegs := some [], counted := true, trel := true,
    eff := fun _ s => s.onCore p (fun c => { c with relIssued := c.relIssued + 1 }) }

/-- ENDSTEP: FENCE, then the receive counters are zeroed and the array queue emptied; the core holds until ENDSTEP_RESTART (R201, R222,
R420). -/
def actEndstep (s : State) (p : Nat) : Act :=
  let c := s.core p
  { slot := 4, exempt := true, hold := (if c.drained then 0 else 4), noPoint := true, pointWait := 4,
    eff := fun _ s =>
      let s := upTo 16 (fun i s => s.setReg (recvReg p i) 0) s
      let s := if (s.core p).dq.isEmpty then s else s.orReg (coreReg p 3 0) 0x10
      s.onCore p (fun c => { c with dq := [], endHold := true, restart := false }) }

/-- Register field values of scalar operations (R192). -/
def scalBad (f : Nat) : Bool := decide (48 ≤ f)
/-- Register number of a scalar field. -/
def scalId (f : Nat) : Nat := if f < 32 then idS f else idX (f - 32)

/-- LOGV (R202, R204, R451): the value goes to the active MP as an event; with TAG bit 15 set it is a loss record, which joins the loss log
and the records of the attempt. -/
def actLogv (f : LogF) (s : State) (p : Nat) : Act :=
  let c := s.core p
  let a := f.a.toNat
  let v := (c.scal a).toNat
  { slot := 4, fault := firstFault [(scalBad a, fBadRegister)], regR := (if scalBad a then [] else [scalId a]), seasoned := true, counted := true,
    eff := fun _ s =>
      let l := s.logicalOf p
      let rec' : LossRec := { step := s.job.step, core := l, tag := f.tag.toNat, value := v, att := s.job.attempt }
      let s := s.raise 0x0901 [(8, v), (2, f.tag.toNat), (4, l)]
      if bit f.tag.toNat 15 then s.onJob (fun j => { j with losses := j.losses ++ [rec'], attLosses := j.attLosses ++ [rec'] }) else s }

/-- RCSET (R190, R426). -/
def actRcset (f : CtrF) (_s : State) (p : Nat) : Act :=
  { slot := 4, noPoint := true, eff := fun _ s => s.setReg (recvReg p f.ctr.toNat) f.value }

/-- A scalar operation's result (Table 7.14), by opcode. -/
def scalOp (op : Nat) (a b : W64) : W64 :=
  match op with
  | 0x10 => a + b
  | 0x11 => a - b
  | 0x12 => a * b
  | 0x13 => a &&& b
  | 0x14 => a ||| b
  | 0x15 => a ^^^ b
  | 0x16 => a <<< (b.toNat % 64)
  | 0x17 => a >>> (b.toNat % 64)
  | 0x18 => if a = b then 1 else 0
  | _ => if a.slt b then 1 else 0

/-- A scalar register-form operation. -/
def actScal (op : Nat) (f : ScalF) (s : State) (p : Nat) : Act :=
  let c := s.core p
  let d := f.d.toNat
  let a := f.a.toNat
  let b := f.b.toNat
  let bad := scalBad d || scalBad a || scalBad b
  let v := scalOp op (c.scal a) (c.scal b)
  { slot := 4, fault := firstFault [(bad, fBadRegister)], regR := (if bad then [] else [scalId a, scalId b]), regW := (if bad then [] else [scalId d]),
    eff := fun m s => s.onCore p (fun c => c.setId (scalId d) v.toNat m) }

/-- IMM sign-extended to 64 bits. -/
def immOf (f : ScalI) : W64 := f.imm.signExtend 64

/-- The special values of Table 7.4. -/
def State.special (s : State) (p i : Nat) : Nat :=
  let c := s.core p
  match i with
  | 0 => s.job.step
  | 1 => c.curRole.getD 0
  | 2 => s.logicalCount
  | 3 => s.job.seedLo
  | 4 => s.job.seedHi
  | 5 => (c.loops.getD 0 {}).idx
  | 6 => (c.loops.getD 1 {}).idx
  | 7 => (c.loops.getD 2 {}).idx
  | 8 => (c.loops.getD 3 {}).idx
  | 9 => s.roleTag p false
  | _ => 0

/-- A scalar immediate-form operation that writes D at once: SADDI 0x1A, SXORI 0x1B, SLI 0x1C, SLUI 0x1D, SRD 0x20. -/
def actScalI (op : Nat) (f : ScalI) (s : State) (p : Nat) : Act :=
  let c := s.core p
  let d := f.d.toNat
  let a := f.a.toNat
  let rdA := op == 0x1A || op == 0x1B
  let bad := scalBad d || (rdA && scalBad a)
  let i := immOf f
  let v : W64 :=
    match op with
    | 0x1A => c.scal a + i
    | 0x1B => c.scal a ^^^ i
    | 0x1C => i
    | 0x1D => (c.scal d &&& 0x3FFFFFFF) ||| BitVec.ofNat 64 (f.imm.toNat % 4096 * 2 ^ 30)
    | _ => BitVec.ofNat 64 (s.special p i.toNat)
  { slot := 4, fault := firstFault [(bad, fBadRegister)],
    regR := (if bad then [] else if rdA then [scalId a] else if op = 0x1D then [scalId d] else []), regW := (if bad then [] else [scalId d]),
    eff := fun m s => s.onCore p (fun c => c.setId (scalId d) v.toNat m) }

/-- SLD and SST (R556, Table 7.14): 8 bytes of scratchpad at A + 8 × IMM, A an X register; they land with RESULT_LANDS. -/
def actSldst (store : Bool) (f : ScalI) (s : State) (p : Nat) : Act :=
  let c := s.core p
  let d := f.d.toNat
  let a := f.a.toNat
  let badR := scalBad d || scalBad a || decide (a < 32)
  let x := (c.scal a).toNat
  let at_ : Int := (x : Int) + 8 * f.imm.toInt
  let addr := at_.toNat
  let badA := !badR && (decide (2 ^ 24 ≤ x) || decide (at_ < 0) || addr % 8 != 0 || !c.spadOk addr 8)
  let flt := firstFault [(badR, fBadRegister), (badA, fBadAddress)]
  let ok := flt.isNone
  let rs := if ok && !store then [(addr, 8)] else []
  let foot : Foot := if !ok then {} else if store then { gw := granules addr 8, lines := 1 }
    else { gr := granules addr 8, regs := [scalId d], sl := c.rangeSlots rs }
  let res : VRes := if store then { spad := [(addr, leBytes 8 (c.scal d).toNat)] }
    else { regs := [(scalId d, Mem.readNat (c.spadView 5) addr 8)] }
  { slot := 4, fault := flt, regR := (if badR then [] else if store then [scalId a, scalId d] else [scalId a]),
    regW := (if badR || store then [] else [scalId d]), foot := foot, eng := 5, room := c.rangeFilled rs,
    mask := (if badR || store then 0 else c.readMask [(addr, 8)]),
    eff := fun m s => s.onCore p (fun c => { c with vpipe := c.vpipe ++ [{ res with eng := 5, mask := m, pt := c.ptSeq, foot := foot }] }) }

/-! ## Meanings -/

/-- WAITM. -/
def execWaitm (p : Nat) (h : Hdr) (f : WaitmF) (s : State) : Res := issue p h (actWaitm f) s
/-- WAITR. -/
def execWaitr (p : Nat) (h : Hdr) (f : CtrF) (s : State) : Res := issue p h (actWaitr f) s
/-- BARA. -/
def execBara (p : Nat) (h : Hdr) (f : BarF) (s : State) : Res := issue p h (actBara f) s
/-- BARW. -/
def execBarw (p : Nat) (h : Hdr) (f : BarF) (s : State) : Res := issue p h (actBarw f) s
/-- FENCE. -/
def execFence (p : Nat) (h : Hdr) (s : State) : Res := issue p h actFence s
/-- LOOP. -/
def execLoop (p : Nat) (h : Hdr) (f : LoopF) (s : State) : Res := issue p h (actLoop f) s
/-- MSTR. -/
def execMstr (p : Nat) (h : Hdr) (f : MstrF) (s : State) : Res := issue p h (actMstr f) s
/-- TREL. -/
def execTrel (p : Nat) (h : Hdr) (s : State) : Res := issue p h actTrel s
/-- ENDSTEP. -/
def execEndstep (p : Nat) (h : Hdr) (s : State) : Res := issue p h actEndstep s
/-- LOGV. -/
def execLogv (p : Nat) (h : Hdr) (f : LogF) (s : State) : Res := issue p h (actLogv f) s
/-- RCSET. -/
def execRcset (p : Nat) (h : Hdr) (f : CtrF) (s : State) : Res := issue p h (actRcset f) s
/-- SADD. -/
def execSadd (p : Nat) (h : Hdr) (f : ScalF) (s : State) : Res := issue p h (actScal 0x10 f) s
/-- SSUB. -/
def execSsub (p : Nat) (h : Hdr) (f : ScalF) (s : State) : Res := issue p h (actScal 0x11 f) s
/-- SMUL. -/
def execSmul (p : Nat) (h : Hdr) (f : ScalF) (s : State) : Res := issue p h (actScal 0x12 f) s
/-- SAND. -/
def execSand (p : Nat) (h : Hdr) (f : ScalF) (s : State) : Res := issue p h (actScal 0x13 f) s
/-- SOR. -/
def execSor (p : Nat) (h : Hdr) (f : ScalF) (s : State) : Res := issue p h (actScal 0x14 f) s
/-- SXOR. -/
def execSxor (p : Nat) (h : Hdr) (f : ScalF) (s : State) : Res := issue p h (actScal 0x15 f) s
/-- SSHL. -/
def execSshl (p : Nat) (h : Hdr) (f : ScalF) (s : State) : Res := issue p h (actScal 0x16 f) s
/-- SSHR. -/
def execSshr (p : Nat) (h : Hdr) (f : ScalF) (s : State) : Res := issue p h (actScal 0x17 f) s
/-- SCEQ. -/
def execSceq (p : Nat) (h : Hdr) (f : ScalF) (s : State) : Res := issue p h (actScal 0x18 f) s
/-- SCLT. -/
def execSclt (p : Nat) (h : Hdr) (f : ScalF) (s : State) : Res := issue p h (actScal 0x19 f) s
/-- SADDI. -/
def execSaddi (p : Nat) (h : Hdr) (f : ScalI) (s : State) : Res := issue p h (actScalI 0x1A f) s
/-- SXORI. -/
def execSxori (p : Nat) (h : Hdr) (f : ScalI) (s : State) : Res := issue p h (actScalI 0x1B f) s
/-- SLI. -/
def execSli (p : Nat) (h : Hdr) (f : ScalI) (s : State) : Res := issue p h (actScalI 0x1C f) s
/-- SLUI. -/
def execSlui (p : Nat) (h : Hdr) (f : ScalI) (s : State) : Res := issue p h (actScalI 0x1D f) s
/-- SLD. -/
def execSld (p : Nat) (h : Hdr) (f : ScalI) (s : State) : Res := issue p h (actSldst false f) s
/-- SST. -/
def execSst (p : Nat) (h : Hdr) (f : ScalI) (s : State) : Res := issue p h (actSldst true f) s
/-- SRD. -/
def execSrd (p : Nat) (h : Hdr) (f : ScalI) (s : State) : Res := issue p h (actScalI 0x20 f) s

/-! ## Core events -/

/-- Whether both roles of a double sister have released a slot, or the core carries one role (R440). -/
def Core.bothReleased (c : Core) : Bool := match c.stored with
  | some x => decide (c.relDone < x.relDone)
  | none => true

/-- A TREL takes effect once the slot's fill and reads have completed; the release count rises and the slot is free (R81, R200, R335).
It waits while the slot's green source is open, whose mask bit the next plank would reuse (R416). -/
def slotRelease (p : Nat) (s : State) : State :=
  let c := s.core p
  let k := c.relDone % max 1 c.tapSlots
  let t := c.slot k
  if c.relDone < c.relIssued ∧ 256 ≤ t.beats ∧ !t.green ∧ !c.feet.any (fun f => f.2.sl.contains k) ∧ !c.rolling then
    let c := if c.bothReleased then c.setSlot k {} else c
    s.setCore p { c with relDone := c.relDone + 1, relCount := c.relCount + 1 }
  else s

/-- SLOT_RELEASE. -/
def execSlotRelease (p : Nat) (s : State) : Res := coreEvent p (slotRelease p) s

/-- Resets a core's program state: registers, loops, strides, arrival counts, the tile, and issue at bundle 0 (R93, R175). -/
def Core.restartCore (c : Core) : Core :=
  { c with v := [], s := [], x := [], gv := [], loops := [{}, {}, {}, {}], strides := [0, 0, 0, 0], arrB := [], doneB := [], tile := none,
           tileMask := 0, lastFmt := none, lastLoad := none, endHold := false, restart := false, pcEnd := false, wait := .none, seg := 0,
           segRole := 0, suppress := [], cntSince := [], point := none }

/-- ENDSTEP's holds end: every export region has returned and the next step has begun (R201). -/
def endstepRestart (p : Nat) (s : State) : State :=
  let c := s.core p
  if c.endHold ∧ c.restart ∧ c.exports.isEmpty then
    let s := s.setCore p c.restartCore
    (s.setPc p 0).setFld (coreReg p 0 4) 16 13 0
  else s

/-- ENDSTEP_RESTART. -/
def execEndstepRestart (p : Nat) (s : State) : Res := coreEvent p (endstepRestart p) s

/-- A wait has held for MARK_WAIT_LIMIT: the hub raises one MARK_STALL; a limit of 0 disables it (R41, R196, Table 2.3). -/
def markStall (p : Nat) (s : State) : State :=
  let c := s.core p
  let ev := fun (fs : List (Nat × Nat)) =>
    (s.raise 0x0202 ([(4, s.logicalOf p), (2, physCode p)] ++ fs)).setCore p { c with stalled := true }
  if c.stalled ∨ !bit (s.reg (coreReg p 0 4)).toNat 13 ∨ s.fld (gloReg 0x100) 31 16 = 0 then s
  else match c.wait with
    | .none => s
    | .mark k m => ev [(1, k), (2, m.1), (4, m.2)]
    | .recv n _ => ev [(1, 4), (2, n)]
    | .barrier sc n => ev [(1, 5), (2, n + (if sc then 256 else 0))]

/-- MARK_STALL. -/
def execMarkStall (p : Nat) (s : State) : Res := coreEvent p (markStall p) s

/-- A segment of measured length len ends; one that exceeds planned length plus slack is counted (R46, Table 2.15). -/
def segOverrun (p len : Nat) (s : State) : State :=
  let c := s.core p
  match s.job.loaded with
  | none => s
  | some m =>
    let tab := SMap.get [] m.segs (c.curRole.getD 0xFFFFFFFF)
    match tab.findIdx? (fun e => e.1 == c.seg) with
    | none => s
    | some i =>
      let e := tab.getD i (0, 0, 0)
      if len ≤ e.2.1 + e.2.2 then s
      else
        let a := coreReg p 0 0x88
        ((s.bump a 15 0 1).setFld a 28 16 i).orReg a 0x20000000

/-- SEG_OVERRUN. -/
def execSegOverrun (p len : Nat) (s : State) : Res := coreEvent p (segOverrun p len) s

/-- SPAD_PROMOTE: arbitration affects only timing, which the model leaves out (R68, R70). -/
def execSpadPromote (p _req _bank _n : Nat) (s : State) : Res := if 2880 ≤ p then .refused .noSuchUnit else .next s

end Sys2Proof.Machine
end

