-- ==== Sys2Proof/Machine/Dovetail.lean ====
section
/-! DEFINITION. The dovetail engine: the DT slot's operations, the match table, gathers, predictions, scatter, sorting and tile compression (R187, R208 to R243). Operations are named by their opcode of Table 7.10. -/

namespace Sys2Proof.Machine

/-- A dovetail descriptor from its bytes (Table 8.2). -/
def dtParse (bs : List Byte) : DtDesc :=
  let g := descNat bs
  { kLen := g 0 2, fmt := g 2 1, tap := g 3 1 == 1, pitch := g 4 4, scA := g 8 4, scStride := g 12 2, maskA := g 16 4, outSc := g 20 4 }

/-- Whether a descriptor field is out of range for an operation (R208, R215 to R217, R238; Table 8.2). -/
def dtDescBad (opc mode : Nat) (bs : List Byte) (slots : Nat) : Bool :=
  let d := dtParse bs
  d.kLen % 32 != 0 || d.kLen == 0 || decide (4096 < d.kLen) || decide (1 < descNat bs 3 1) || d.pitch % 64 != 0 ||
  decide (2 ^ 24 ≤ d.pitch) || decide (2 ^ 24 ≤ d.scA) || decide (2 ^ 24 ≤ d.maskA) || decide (2 ^ 24 ≤ d.outSc) ||
  (opc == 4 && decide (mode ≤ 1) && d.kLen != 256) ||
  (decide (opc ≤ 5) && d.tap && decide (128 * slots < d.kLen)) ||
  ((opc == 9 || (opc == 8 && mode == 0)) && d.kLen != 128)

/-- MODE values an operation accepts (Tables 8.3 and 8.4, R227, R238). -/
def dtModeOk (opc mode : Nat) : Bool :=
  match opc with
  | 4 => decide (mode ≤ 2)
  | 5 => mode == 0 || mode == 2 || mode == 3 || mode == 10
  | 8 => mode == 0 || mode == 2 || mode == 10
  | _ => true

/-- Whether a format is accepted (R216, R238). -/
def dtFmtOk (opc fmt : Nat) (tap : Bool) : Bool :=
  if decide (8 ≤ opc) then decide (fmt ≤ 10)
  else if tap then fmt == 1 || isMx fmt
  else arrayFmt fmt

/-- Bytes of a DTSTR code area (Table 8.3). -/
def codeBytes (mode kLen : Nat) : Nat := if mode = 0 then 32 else if mode = 1 then 48 else kLen / 8

/-- Byte ranges of the dense source of n columns (R216): scratchpad columns with their scales, or tap slots. -/
def Core.denseRanges (c : Core) (d : DtDesc) (xb n : Nat) : List (Nat × Nat) :=
  if n = 0 then []
  else if d.tap then
    match c.slotOf xb with
    | some (k, _) => (List.range (ceilDiv d.kLen 128)).map (fun i => (c.tapBase + (k + i) % c.tapSlots * slotBytes, slotBytes))
    | none => []
  else
    spanRanges xb d.pitch (d.kLen * fmtBits d.fmt / 8) n ++ (if isMx d.fmt then spanRanges d.scA d.scStride (d.kLen / 32) n else [])

/-- One element of w bits, number k of an area from address a (R125). -/
def Core.elemAt (c : Core) (a w k : Nat) : Nat :=
  if w = 4 then ((Mem.byte c.spad (a + k / 2)).toNat / 16 ^ (k % 2)) % 16
  else Mem.readNat c.spad (a + k * (w / 8)) (w / 8)

/-- The code of an element as an operation takes it: bits 7 and 6 of an FP6 byte are ignored, and written as 0 (R125). -/
def fp6Code (fmt code : Nat) : Nat := if fmt = 8 ∨ fmt = 9 then code % 64 else code

/-- Where element k of dense column j stands: the base of its elements, its number from there, and the address of its scale (R216). -/
def Core.denseAt (c : Core) (d : DtDesc) (xb j k : Nat) : Nat × Nat × Nat :=
  if d.tap then
    let base := c.tapBase + (((c.slotOf xb).map (fun x => x.1)).getD 0 + k / 128) % c.tapSlots * slotBytes
    let q := k % 128 / 32
    (base + j * rowBytes d.fmt, k % 128, base + 65536 + (if d.fmt = 10 then 16 * (j / 4) + 4 * (j % 4) + q else 16 * (j / 2) + 4 * (j % 2) + q))
  else (xb + d.pitch * j, k, d.scA + d.scStride * j + k / 32)

/-- Element k of dense column j with its scale (R216). -/
def Core.dense (c : Core) (d : DtDesc) (xb j k : Nat) : Nat × Nat :=
  let w := fmtBits d.fmt
  let a := c.denseAt d xb j k
  (fp6Code d.fmt (c.elemAt a.1 w a.2.1), if isMx d.fmt then (Mem.byte c.spad a.2.2).toNat else 127)

/-- Bytes read for element k of dense column j and its scale. -/
def Core.denseReads (c : Core) (d : DtDesc) (xb j k : Nat) : List (Nat × Nat) :=
  let w := fmtBits d.fmt
  let a := c.denseAt d xb j k
  (a.1 + a.2.1 * w / 8, max 1 (w / 8)) :: (if isMx d.fmt then [(a.2.2, 1)] else [])

/-- A compacted column from the K position of each output position, none for a zero fill (R219). -/
def Core.compact (c : Core) (d : DtDesc) (xb j : Nat) (pick : Nat → Option Nat) (m : Mask) : QCol :=
  let xs := (List.range 128).map (fun i => match pick i with
    | some k => c.dense d xb j k
    | none => (0, 127))
  { fmt := d.fmt, els := xs.map (fun x => x.1), scs := xs.map (fun x => x.2), mask := m }

/-- The scatter records of a list (Table 8.1): bank, address, value. -/
def Core.scatterRecs (c : Core) (xa n a : Nat) : List (Nat × Nat × Nat) :=
  (List.range n).map (fun i =>
    let r := Mem.readNat c.spad (xa + 8 * i) 8
    (bits r 50 44, (a + bits r 43 32) % 4096, r % 2 ^ 32))

/-- The word function of a zero mask at address a (R225). -/
def Core.maskWord (c : Core) (a i : Nat) : Nat := Mem.readNat c.spad (a + 16 * i) 16

/-- Live blocks of the mask at address a over kLen words (R226). -/
def Core.live (c : Core) (a kLen : Nat) : List Nat := liveBlocks kLen (c.maskWord a)

/-- The payload length of a compressed tile at an address, for its footprint, at most its largest (Table 8.7, R240). -/
def Core.ctLen (c : Core) (a S w : Nat) : Nat := min (Mem.readNat c.spad (a + 4) 4) (16 + S + 2048 * w)

/-- Byte ranges an operation reads and writes. -/
def Core.dtReads (c : Core) (opc mode xa xb xc n : Nat) (d : DtDesc) : List (Nat × Nat) :=
  let S := if isMx d.fmt then 512 else 0
  match opc with
  | 1 => [(xa, 8 * n)]
  | 3 => [(xa, 4 * n)]
  | 4 => [(xa, codeBytes mode d.kLen), (xc, 32)] ++ c.denseRanges d xb n
  | 5 =>
    if mode = 3 then c.preds.filterMap (fun e => e.map (fun q => (xa, 16 * q.kLen)))
    else [(xa, if mode = 0 then 256 else 16 * d.kLen), (xc, 32)] ++ c.denseRanges d xb n
  | 6 => [(xa, 8 * n)]
  | 7 => [(xa, 8 * n)]
  | 8 =>
    [(xc, 32)] ++ (List.range d.kLen).map (fun t => (xa + t * d.pitch, rowBytes d.fmt)) ++
    (if mode = 0 then [(d.scA, S)] else [(d.maskA, 16 * d.kLen), (d.scA, if isMx d.fmt then 4 * d.kLen else 0)])
  | 9 => [(xc, 32), (xa, max 16 (c.ctLen xa S (fmtBits d.fmt)))]
  | _ => []
def Core.dtWrites (c : Core) (opc mode xb n : Nat) (d : DtDesc) : List (Nat × Nat) :=
  let S := if isMx d.fmt then 512 else 0
  match opc with
  | 3 => [(xb, 8 * n)]
  | 5 => if mode = 3 then c.preds.filterMap (fun e => e.map (fun q => (q.maskA, 16 * q.kLen))) else []
  | 7 => [(xb, 256 + 8 * n)]
  | 8 =>
    if mode = 0 then [(xb, 64 * ceilDiv (16 + S + 2048 * fmtBits d.fmt) 64)]
    else [(xb, ceilDiv d.kLen 128 * 128 * rowBytes d.fmt), (d.outSc, if isMx d.fmt then ceilDiv d.kLen 128 * 512 else 0)]
  | 9 => (List.range 128).map (fun t => (xb + t * d.pitch, rowBytes d.fmt)) ++ [(d.scA, S)]
  | _ => []

/-- Whether a compressed tile's header contradicts itself or the descriptor (R241). -/
def Core.ctBad (c : Core) (a : Nat) (d : DtDesc) : Bool :=
  let rd := fun o k => Mem.readNat c.spad (a + o) k
  let S := if isMx d.fmt then 512 else 0
  decide (3 < rd 0 1) || rd 1 1 != d.fmt || rd 4 4 != ctSize (rd 0 1) S (fmtBits d.fmt) (rd 2 2) (rd 8 1) (rd 9 1)

/-- The lowest free prediction entry (R228). -/
def Core.freePred (c : Core) : Option Nat := (List.range 4).find? (fun e => (c.preds.getD e none).isNone)

/-- Whether an operation reads a descriptor: DTSTR, DTGAT but for a check, DTCMP, DTEXP (R215). -/
def dtDescd (opc mode : Nat) : Bool := (opc == 4 || opc == 5 || opc == 8 || opc == 9) && !(opc == 5 && mode == 3)

/-- The areas an operation names that must begin at a multiple of 64: its lists, masks, code areas and output areas (R208). The
tile that DTCMP or DTEXP reads is none of these. -/
def dtAreas (opc mode xa xb : Nat) (d : DtDesc) : List Nat :=
  (if opc = 2 ∨ 8 ≤ opc then [] else [xa]) ++ (if opc = 3 ∨ 7 ≤ opc then [xb] else []) ++
  (if opc = 8 ∧ mode ≠ 0 then d.maskA :: (if isMx d.fmt then [d.outSc] else []) else []) ++ (if opc = 9 ∧ isMx d.fmt then [d.scA] else [])

/-- The descriptor of an operation as the scratchpad holds it now, and the fault that it and the operation's areas give (R208, R215, R241). -/
def Core.dtFault (c : Core) (opc mode xa xb xc n : Nat) : Option Nat × DtDesc :=
  let desc := dtDescd opc mode
  let badC := desc && (xc % 32 != 0 || !c.spadOk xc 32)
  let bs := if desc && !badC then Mem.read c.spad xc 32 else []
  let d := if desc && !badC then dtParse bs else default
  let badM := !dtModeOk opc mode
  let badD := desc && !badC && dtDescBad opc mode bs c.tapSlots
  let badF := desc && !badC && !dtFmtOk opc d.fmt d.tap
  let pre := badC || badM || badD || badF
  let tap := d.tap && decide (opc ≤ 5)
  let badL := (dtAreas opc mode xa xb d).any (fun a => a % 64 != 0 || decide (2 ^ 24 ≤ a)) || (decide (8 ≤ opc) && decide (2 ^ 24 ≤ xa)) || (desc && decide (2 ^ 24 ≤ xb)) ||
    (desc && tap && (c.slotOf xb).isNone) || decide (2 ^ 24 ≤ n)
  let badR := !pre && !badL && (c.dtReads opc mode xa xb xc n d ++ c.dtWrites opc mode xb n d).any (fun r => !c.spadOk r.1 r.2)
  let badX := opc == 9 && !pre && !badL && !badR && c.ctBad xa d
  (firstFault [(badC, fBadAddress), (badM, fBadDescriptor), (badD, fBadDescriptor), (badF, fBadFormat), (badL || badR, fBadAddress),
    (badX, fBadDescriptor)], d)

/-- A dovetail operation starts executing: it reads its descriptor (R215). One that a control-network master has made bad since the issue
stays as the issue checked it (log entry 41). -/
def Core.dtStart (c : Core) (o : DtOp) : DtOp :=
  let r := c.dtFault o.opc o.mode o.xa o.xb o.xc o.n
  if o.desc.isSome && r.1.isNone then { o with desc := some r.2 } else o

/-- The bytes that decide at issue what a dovetail operation may do: its descriptor, a compressed tile's header, a scatter list. -/
def dtHead (opc mode xa xc n : Nat) : List (Nat × Nat) :=
  (if dtDescd opc mode then [(xc, 32)] else []) ++ (if opc = 9 then [(xa, 16)] else []) ++ (if opc = 6 then [(xa, 8 * min n (2 ^ 24))] else [])

/-- Granules that a DTSRT or DTEXP overwrites whole; other operations write what the data give (R203). -/
def dtWhole (opc : Nat) (wr : List (Nat × Nat)) : List Nat := if opc = 7 ∨ opc = 9 then wholeGran wr else []

/-- A dovetail operation (R187, R208, Table 7.10). It waits while the bytes that decide its faults and its regions are still being written by
the engine's earlier operations or are not yet filled by the tap (R82, R215, log entry 41). -/
def actDt (opc : Nat) (f : DtF) (s : State) (p : Nat) : Act :=
  let c := s.core p
  let mode := f.mode.toNat
  let sn := f.sn.toNat
  let xa := (c.xreg f.xa.toNat).toNat
  let xb := (c.xreg f.xb.toNat).toNat
  let xc := (c.xreg f.xc.toNat).toNat
  let check := opc == 5 && mode == 3
  let desc := dtDescd opc mode
  let usesA := opc != 2
  let usesB := decide (3 ≤ opc) && opc != 6 && !check
  let usesN := opc != 2 && opc != 9 && opc != 8 && !check
  let n := if usesN then (c.sreg sn).toNat else 0
  let wrS := opc == 1 || opc == 3 || (opc == 5 && (mode == 2 || mode == 10)) || (opc == 8 && mode != 0)
  let pred := mode == 10 && (opc == 5 || opc == 8)
  let head := dtHead opc mode xa xc n
  let fd := c.dtFault opc mode xa xb xc n
  let d := fd.2
  let flt := match fd.1 with
    | some k => some k
    | none => if pred && decide (c.logSize = 0) then some fGreenLog else none
  let srcs := if flt.isSome then clipRanges (head ++ (if usesA then [(xa, 1)] else []) ++ c.dtReads opc mode xa xb xc n d)
    else c.dtReads opc mode xa xb xc n d
  let wr := if flt.isSome then [] else c.dtWrites opc mode xb n d
  let regions := if opc == 6 && flt.isNone then
      (c.scatterRecs xa n f.a.toNat).foldl (fun g r => insNat g (r.2.1 / 64)) [] else []
  let foot : Foot :=
    if flt.isSome then { gr := rangeGran srcs }
    else { gr := rangeGran srcs, gw := rangeGran wr, rw := regions, regs := (if wrS then [idS sn] else []), sl := c.rangeSlots srcs,
           lines := (if check then 0 else (wr.map (fun r => (linesOf r.1 r.2).length)).sum) + (if opc == 6 then n else 0),
           gwAll := dtWhole opc wr }
  let written := (c.dtX.toList ++ c.dtP.toList).any (fun o => head.any (fun r => o.foot.gw.any (touches r.1 r.2)))
  { slot := 2, fault := flt,
    regR := (if usesA then [idX f.xa.toNat] else []) ++ (if usesB then [idX f.xb.toNat] else []) ++ (if desc then [idX f.xc.toNat] else []) ++
      (if usesN then [idS sn] else []),
    regW := (if wrS then [idS sn] else []), foot := foot, eng := 3,
    room := c.dtP.isNone && (!pred || c.freePred.isSome) && !written && c.rangeFilled (head.filter (fun r => c.spadOk r.1 r.2)),
    mask := c.readMask srcs, noPoint := opc == 1 || opc == 2 || pred, predOp := pred,
    eff := fun m s => s.onCore p (fun c =>
      let e := if pred then c.freePred else none
      let bitE : Mask := match e with
        | some k => BitVec.ofNat 12 (2 ^ (8 + k))
        | none => 0
      let o : DtOp := { opc := opc, xa := xa, xb := xb, xc := xc, n := n, sn := sn, mode := mode, a := f.a.toNat, acc := f.form,
                        desc := (if desc then some d else none), mask := m ||| bitE, pt := c.ptSeq, foot := foot }
      let c := match e with
        | some k => { c with preds := listSet c.preds k (some { maskA := (if opc = 5 then xa else d.maskA), kLen := d.kLen }),
                             openSrc := c.openSrc ||| bitE }
        | none => c
      match c.dtX with
      | none => { c with dtX := some o }
      | some _ => { c with dtP := some o }) }

/-! ## Completion -/

/-- Sticky DT_STATUS bits. -/
def State.dtFlag (s : State) (p : Nat) (m : W32) : State := s.orReg (coreReg p 3 0) m

/-- The pending operation starts where the engine is free (R187, R215); none does in a rollback (Table 16.2). -/
def Core.startDt (c : Core) : Core := if c.rolling || c.dtX.isSome then c else { c with dtX := c.dtP.map c.dtStart, dtP := none }

/-- The operation completes and the pending one starts. -/
def Core.popDt (c : Core) : Core := { c with dtX := none }.startDt

/-- Valid entries of a set: ways and contents. -/
def setEntries (tab : SMap (Nat × Nat)) (set : Nat) : SMap (Nat × Nat) := tab.filter (fun e => e.1 / 8 == set)

/-- Inserts one record: the table, whether a key was present, or none when the set is full (R211). -/
def dtInsert (tab : SMap (Nat × Nat)) (k v : Nat) : Option (SMap (Nat × Nat) × Bool) :=
  let es := setEntries tab (dtSet k)
  match es.find? (fun e => e.2.1 == k) with
  | some e => some (SMap.ins tab e.1 (k, v), true)
  | none =>
    match (List.range 8).find? (fun w => !es.any (fun e => e.1 % 8 == w)) with
    | some w => some (SMap.ins tab (8 * dtSet k + w) (k, v), false)
    | none => none

/-- Inserts records in list order: table, index where it stopped, whether a key was present. -/
def dtLoad : List (Nat × Nat) → Nat → SMap (Nat × Nat) → Bool → SMap (Nat × Nat) × Option Nat × Bool
  | [], _, t, d => (t, none, d)
  | r :: rs, i, t, d =>
    match dtInsert t r.1 r.2 with
    | none => (t, some i, d)
    | some x => dtLoad rs (i + 1) x.1 (d || x.2)

/-- DTLD completes (R211). -/
def State.dtLoadDone (s : State) (p : Nat) (o : DtOp) : State :=
  let c := s.core p
  let recs := (List.range o.n).map (fun i => let r := Mem.readNat c.spad (o.xa + 8 * i) 8; (r % 2 ^ 32, r / 2 ^ 32))
  let r := dtLoad recs 0 c.dtab false
  let s := s.setCore p (({ c with dtab := r.1 }.landId o.pt (idS o.sn) (r.2.1.getD o.n) o.mask).popDt)
  s.dtFlag p ((if r.2.1.isSome then 1 else 0) ||| (if r.2.2 then 2 else 0))

/-- DTMAT completes (R213). -/
def State.dtMatDone (s : State) (p : Nat) (o : DtOp) : State :=
  let c := s.core p
  let hits := (List.range o.n).filterMap (fun i =>
    let k := Mem.readNat c.spad (o.xa + 4 * i) 4
    ((setEntries c.dtab (dtSet k)).find? (fun e => e.2.1 == k)).map (fun e => (i, e.2.2)))
  let bs := hits.flatMap (fun h => leBytes 4 h.1 ++ leBytes 4 h.2)
  let s := s.setCore p (((c.putSpad o.pt o.xb bs o.mask).landId o.pt (idS o.sn) hits.length o.mask).popDt)
  s.tally p 0xD hits.length

/-- Which K position each output position of a column takes: a picking function for column number i of the operation, the dense column
it comes from, and the number of columns in all (R217, R224, R226). -/
def Core.picks (c : Core) (o : DtOp) (d : DtDesc) : (Nat → Nat → Option Nat) × Nat × List Nat :=
  if o.opc = 4 then
    let code := Mem.readNat c.spad o.xa (codeBytes o.mode d.kLen)
    if o.mode ≤ 1 then (fun _ i => some (steer o.mode code i), o.n, [])
    else
      let sel := (List.range d.kLen).filter (fun k => bit code k)
      (fun _ i => sel[i]?, o.n, sel)
  else if o.mode = 0 then
    (fun _ i => let k := Mem.readNat c.spad (o.xa + 2 * i) 2; if k < d.kLen then some k else none, o.n, [])
  else
    let live := c.live o.xa d.kLen
    (fun ch i => (live[4 * ch + i / 32]?).map (fun b => 32 * b + i % 32), ceilDiv live.length 4 * o.n, live)

/-- The code area, position list or zero mask of a DTSTR or DTGAT. -/
def DtOp.codes (o : DtOp) (d : DtDesc) : Nat × Nat :=
  (o.xa, if o.opc = 4 then codeBytes o.mode d.kLen else if o.mode = 0 then 256 else 16 * d.kLen)

/-- A DTSTR or DTGAT places its next column, once there is room and the tap has filled the lines it reads, or completes (R82, R218, R221,
R226). -/
def State.dtPlace (s : State) (p : Nat) (o : DtOp) (d : DtDesc) : State :=
  let c := s.core p
  if !c.rangeFilled [o.codes d] then s
  else
    let k := c.picks o d
    if o.prog < k.2.1 then
      let pick := k.1 (o.prog / o.n)
      let rs := o.codes d :: (List.range 128).flatMap (fun i => match pick i with
        | some e => c.denseReads d o.xb (o.prog % o.n) e
        | none => [])
      if 16 ≤ c.dq.length ∨ !c.rangeFilled rs then s
      else
        let m := o.mask ||| c.rangeMask rs
        let q := c.compact d o.xb (o.prog % o.n) pick m
        let s := if o.opc = 4 ∧ o.mode = 2 ∧ 128 < k.2.2.length then s.dtFlag p 4 else s
        s.onCore p (fun c =>
          let c := { c with dq := c.dq ++ [q], dtX := some { o with prog := o.prog + 1, mask := m } }
          if o.prog + 1 < k.2.1 then c
          else if o.opc = 5 ∧ o.mode ≠ 0 then (c.landId o.pt (idS o.sn) (ceilDiv k.2.2.length 4) m).popDt
          else c.popDt)
    else
      s.onCore p (fun c =>
        if o.opc = 5 ∧ o.mode ≠ 0 then (c.landId o.pt (idS o.sn) (ceilDiv k.2.2.length 4) o.mask).popDt else c.popDt)

/-- The overwrite of n bytes from a by a denial goes into the log's saved lines as well, so that the rollback does not undo it (R229, R422). -/
def Core.keepOver (c : Core) (a n : Nat) : Core := match c.point with
  | none => c
  | some q =>
    let byte := fun (m : Mem) (e : LogEnt) (i : Nat) =>
      if a ≤ e.addr + i ∧ e.addr + i < a + n then Mem.byte c.spad (e.addr + i) else Mem.byte m (e.at_ + i)
    let saved := q.log.foldl (fun m e =>
      if e.sill ∨ e.addr + 64 ≤ a ∨ a + n ≤ e.addr then m else Mem.write m e.at_ ((List.range 64).map (byte m e))) c.spad
    { c with spad := saved }

/-- A prediction check (R229). A denial that finds no point held, or a rollback under way, starts none: nothing of the core is green then. -/
def State.dtCheck (s : State) (p : Nat) (o : DtOp) : State :=
  let c := (s.core p).popDt
  let opens := c.preds.filterMap (fun e => e)
  if opens.isEmpty then (s.setCore p c).dtFlag p 0x80
  else
    let passes := fun (e : Pred) =>
      let pl := c.live e.maskA e.kLen
      (c.live o.xa e.kLen).all (fun b => pl.contains b)
    let closed := { c with preds := [none, none, none, none] }
    if opens.all passes then
      ((s.setCore p (closed.clearSrc 0xF00)).releaseGreen p).bump (coreReg p 3 8) 15 0 1
    else
      -- the overwrite of a predicted mask is not logged (R422)
      let c := (opens.filter (fun e => !passes e)).foldl (fun c e =>
        Core.keepOver { c with spad := Mem.write c.spad e.maskA (Mem.read c.spad o.xa (16 * e.kLen)) } e.maskA (16 * e.kLen)) closed
      let s := s.setCore p { c with openSrc := c.openSrc &&& 0xFF }
      let s := if c.point.isNone || c.rolling then s else s.startRollback p
      (s.dtFlag p 0x40).bump (coreReg p 3 8) 31 16 1

/-- The largest number of records that reach any single address of region n (R234). -/
def scatterDepth (recs : List (Nat × Nat × Nat)) (n : Nat) : Nat :=
  let mine := (recs.filter (fun r => r.2.1 / 64 == n)).map (fun r => (r.1, r.2.1))
  mine.foldl (fun m a => max m (mine.filter (fun b => b == a)).length) 0

/-- Records that fit the queues, at most k, in list order, stopping at the first whose queue is full (R233). -/
def scatterTake : Nat → List ScRec → List ScRec → List ScRec
  | 0, _, _ => []
  | _, _, [] => []
  | k + 1, q, r :: rs =>
    if 8 ≤ (q.filter (fun x => x.bank == r.bank)).length then [] else r :: scatterTake k (q ++ [r]) rs

/-- One clk of a DTSCT's distribution; the chunks of the regions its list names are counted as it begins (R232 to R234). -/
def State.dtScatter (s : State) (p : Nat) (o : DtOp) : State :=
  let recs := (s.core p).scatterRecs o.xa o.n o.a
  let regions := recs.foldl (fun g r => insNat g (r.2.1 / 64)) []
  let s := if o.begun then s
    else forAll regions (fun n s => s.chunkAt p o.pt n (if o.acc then scatterDepth recs n else 1) o.acc) s
  let rest := (recs.drop o.prog).map (fun r => ({ bank := r.1, addr := r.2.1, val := r.2.2, acc := o.acc, mask := o.mask, pt := o.pt } : ScRec))
  s.onCore p (fun c =>
    let t := scatterTake 16 c.scq rest
    let c := { c with scq := c.scq ++ t }
    if o.n ≤ o.prog + t.length then c.popDt else { c with dtX := some { o with prog := o.prog + t.length, begun := true } })

/-- Rows of a sort with their buckets (R235). -/
def sortRows (c : Core) (o : DtOp) : List (Nat × Nat × Nat) :=
  (List.range o.n).map (fun i =>
    let r := Mem.readNat c.spad (o.xa + 8 * i) 8
    (r % 2 ^ 32, bits r 55 32, bucketOf (bits r 55 32)))

/-- The heavy bit and part field of a row (R236), dir = (count, sum) of the 16 buckets. -/
def heavyOf (dir : List (Nat × Nat)) (mode count b : Nat) : Nat :=
  let e := dir.getD b (0, 0)
  let ref := if 2 ≤ e.1 then some ((e.2 - count) / (e.1 - 1))
    else ((List.range b).reverse.findSome? (fun k => let x := dir.getD k (0, 0); if x.1 = 0 then none else some (x.2 / x.1)))
  match ref with
  | none => 0
  | some m =>
    let t := (if mode = 0 then 4 else mode) * max m 128
    if t < count then 2 ^ 63 + 2 ^ 56 * (min 64 (ceilDiv count t) - 1) else 0

/-- DTSRT completes (R235, R236). -/
def State.dtSortDone (s : State) (p : Nat) (o : DtOp) : State :=
  let c := s.core p
  let rows := sortRows c o
  let dir := (List.range 16).map (fun b => let r := rows.filter (fun x => x.2.2 == b); (r.length, (r.map (fun x => x.2.1)).sum))
  let first := fun b => ((dir.drop (b + 1)).map (fun e => e.1)).sum
  let head := (List.range 16).flatMap (fun b => let e := dir.getD b (0, 0); leBytes 4 e.1 ++ leBytes 4 (first b) ++ leBytes 8 e.2)
  let body := (List.range 16).reverse.flatMap (fun b => (rows.filter (fun x => x.2.2 == b)).flatMap (fun x =>
    leBytes 8 (x.1 + 2 ^ 32 * x.2.1 + heavyOf dir o.mode x.2.1 b)))
  s.setCore p ((c.putSpad o.pt o.xb (head ++ body) o.mask).popDt)

/-- Elements of a stored tile in stored order (R238). -/
def Core.tileEls (c : Core) (a pitch w : Nat) : List Nat :=
  (List.range 128).flatMap (fun t => lanes w 128 (Mem.readNat c.spad (a + t * pitch) (16 * w)))

/-- Elements packed w bits each into whole bytes (R125, R239). -/
def packEls (w : Nat) (els : List Nat) : List Byte := leBytes (ceilDiv (els.length * w) 8) (unlanes w els)

/-- A compressed tile: the smallest mode, lower number on a tie, padded to whole lines (R238 to R240). -/
def compressTile (fmt w : Nat) (scales : List Byte) (els : List Nat) : List Byte :=
  let S := scales.length
  let nz := els.filter (fun x => x != 0)
  let rows := chunks 128 128 els
  let pres := rows.map (fun r => r.any (fun x => x != 0))
  let runs := runsOf 0 pres
  let present := (pres.filter (fun b => b)).length
  let size := fun m => ctSize m S w nz.length runs.length present
  let mode := (List.range 4).foldl (fun b m => if size m < size b then m else b) 0
  let body :=
    match mode with
    | 0 => packEls w els
    | 1 => leBytes 2048 (unlanes 1 (els.map (fun x => if x = 0 then 0 else 1))) ++ packEls w nz
    | 2 => ((els.zipIdx.filter (fun e => e.1 != 0)).flatMap (fun e => leBytes 2 e.2)) ++ packEls w nz
    | _ => runs.flatMap (fun r => leBytes 1 r.1 ++ leBytes 1 r.2) ++ packEls w ((rows.filter (fun r => r.any (fun x => x != 0))).flatten)
  let out := leBytes 1 mode ++ leBytes 1 fmt ++ leBytes 2 nz.length ++ leBytes 4 (size mode) ++ leBytes 1 runs.length ++
    leBytes 1 present ++ leBytes 6 0 ++ scales ++ body
  out ++ List.replicate ((64 - out.length % 64) % 64) 0

/-- DTCMP mode 0 completes. -/
def State.dtCompressDone (s : State) (p : Nat) (o : DtOp) (d : DtDesc) : State :=
  let c := s.core p
  let w := fmtBits d.fmt
  let scales := if isMx d.fmt then Mem.read c.spad d.scA 512 else []
  let out := compressTile d.fmt w scales ((c.tileEls o.xa d.pitch w).map (fp6Code d.fmt))
  s.setCore p ((c.putSpad o.pt o.xb out o.mask).popDt)

/-- DTCMP modes 2 and 10 complete: packs the live blocks (R227). -/
def State.dtPackDone (s : State) (p : Nat) (o : DtOp) (d : DtDesc) : State :=
  let c := s.core p
  let live := c.live d.maskA d.kLen
  let rb := rowBytes d.fmt
  let fp6 := fun (b : Byte) => if d.fmt = 8 ∨ d.fmt = 9 then b &&& 0x3F else b
  let ch := ceilDiv live.length 4
  let rows := (List.range (128 * ch)).flatMap (fun i => match live[i / 32]? with
    | some b => (Mem.read c.spad (o.xa + (32 * b + i % 32) * d.pitch) rb).map fp6
    | none => List.replicate rb 0)
  let scs := (List.range (4 * ch)).flatMap (fun i => match live[i]? with
    | some b => Mem.read c.spad (d.scA + 128 * b) 128
    | none => List.replicate 128 127)
  let c := c.putSpad o.pt o.xb rows o.mask
  let c := if isMx d.fmt then c.putSpad o.pt d.outSc scs o.mask else c
  s.setCore p ((c.landId o.pt (idS o.sn) ch o.mask).popDt)

/-- Places values at rising positions of a list of zeros. -/
def placeAt : List Nat → List Nat → Nat → Nat → List Nat
  | _, _, 0, _ => []
  | i :: is, v :: vs, k + 1, at_ => if i = at_ then v :: placeAt is vs k (at_ + 1) else 0 :: placeAt (i :: is) (v :: vs) k (at_ + 1)
  | _, _, k + 1, at_ => 0 :: placeAt [] [] k (at_ + 1)

/-- The elements a compressed tile's sections give, in stored order (R239, R241). Of a tile whose sections contradict each other, index lists
are taken in list order, a later index overwriting an earlier one, what lies beyond the tile is ignored and what is missing is 0 (DESIGN
CHOICE, log entry 41). -/
def Core.expandEls (c : Core) (a S w : Nat) : List Nat :=
  let rd := fun o k => Mem.readNat c.spad (a + o) k
  let mode := rd 0 1
  let nnz := rd 2 2
  let runs := rd 8 1
  let o := 16 + S
  let elsAt := fun off n => lanes w n (rd off (ceilDiv (n * w) 8))
  match mode with
  | 0 => elsAt o 16384
  | 1 =>
    let bm := rd o 2048
    placeAt ((List.range 16384).filter (fun i => bit bm i)) (elsAt (o + 2048) nnz) 16384 0
  | 2 =>
    let idx := lanes 16 nnz (rd o (2 * nnz))
    (idx.zip (elsAt (o + 2 * nnz) nnz)).foldl (fun l e => listSet l e.1 e.2) (List.replicate 16384 0)
  | _ =>
    let rows := (List.range runs).flatMap (fun i => (List.range (rd (o + 2 * i + 1) 1)).map (fun t => rd (o + 2 * i) 1 + t))
    let data := chunks 128 128 (elsAt (o + 2 * runs) (128 * rd 9 1))
    (List.range 128).flatMap (fun t => match rows.findIdx? (fun x => x == t) with
      | some i => data.getD i (List.replicate 128 0)
      | none => List.replicate 128 0)

/-- DTEXP completes. -/
def State.dtExpandDone (s : State) (p : Nat) (o : DtOp) (d : DtDesc) : State :=
  let c := s.core p
  let w := fmtBits d.fmt
  let S := if isMx d.fmt then 512 else 0
  let els := (c.expandEls o.xa S w).map (fp6Code d.fmt)
  let scales := Mem.read c.spad (o.xa + 16) S
  let c := (chunks 128 128 els).zipIdx.foldl (fun c r => c.putSpad o.pt (o.xb + r.2 * d.pitch) (leBytes (16 * w) (unlanes w r.1)) o.mask) c
  let c := if S = 0 then c else c.putSpad o.pt d.scA scales o.mask
  s.setCore p (c.settle o.foot o.mask).popDt

/-- A dovetail operation completes, places a column, or distributes for one clk, once the tap has filled the lines it reads; its outputs take
the mask of what it reads (R82, R203, R221, R233). -/
def dovetailDone (p : Nat) (s : State) : State :=
  let c := s.core p
  match c.dtX with
  | none => s
  | some o =>
    let d := o.desc.getD default
    let place := o.opc = 4 ∨ (o.opc = 5 ∧ o.mode ≠ 3)
    let rs := if place then [] else c.dtReads o.opc o.mode o.xa o.xb o.xc o.n d
    if !c.rangeFilled rs then s
    else
      let o := { o with mask := o.mask ||| c.rangeMask rs }
      match o.opc with
      | 1 => s.dtLoadDone p o
      | 2 => s.onCore p (fun c => { c.popDt with dtab := [] })
      | 3 => s.dtMatDone p o
      | 4 => s.dtPlace p o d
      | 5 => if o.mode = 3 then s.dtCheck p o else s.dtPlace p o d
      | 6 => s.dtScatter p o
      | 7 => s.dtSortDone p o
      | 8 => if o.mode = 0 then s.dtCompressDone p o d else s.dtPackDone p o d
      | _ => s.dtExpandDone p o d

/-- A sill bank takes the oldest record of its scatter queue (R232, R233). -/
def scatterRecordTaken (p bank : Nat) (s : State) : State :=
  let c := s.core p
  match c.scq.find? (fun r => r.bank == bank) with
  | none => s
  | some r =>
    let s := s.setCore p { c with scq := c.scq.erase r }
    (s.sillStore p r.pt r.addr r.bank [r.val] r.acc r.mask).tally p 0xE 1 |>.tally p 0xA 1

/-! ## Meanings -/

/-- DTLD. -/
def execDtld (p : Nat) (h : Hdr) (f : DtF) (s : State) : Res := issue p h (actDt 1 f) s
/-- DTCLR. -/
def execDtclr (p : Nat) (h : Hdr) (f : DtF) (s : State) : Res := issue p h (actDt 2 f) s
/-- DTMAT. -/
def execDtmat (p : Nat) (h : Hdr) (f : DtF) (s : State) : Res := issue p h (actDt 3 f) s
/-- DTSTR. -/
def execDtstr (p : Nat) (h : Hdr) (f : DtF) (s : State) : Res := issue p h (actDt 4 f) s
/-- DTGAT. -/
def execDtgat (p : Nat) (h : Hdr) (f : DtF) (s : State) : Res := issue p h (actDt 5 f) s
/-- DTGAT_CHECK: DTGAT with MODE 3, whatever the field holds (R229). -/
def execDtgatCheck (p : Nat) (h : Hdr) (f : DtF) (s : State) : Res := issue p h (actDt 5 { f with mode := 3 }) s
/-- DTSCT. -/
def execDtsct (p : Nat) (h : Hdr) (f : DtF) (s : State) : Res := issue p h (actDt 6 f) s
/-- DTSRT. -/
def execDtsrt (p : Nat) (h : Hdr) (f : DtF) (s : State) : Res := issue p h (actDt 7 f) s
/-- DTCMP. -/
def execDtcmp (p : Nat) (h : Hdr) (f : DtF) (s : State) : Res := issue p h (actDt 8 f) s
/-- DTEXP. -/
def execDtexp (p : Nat) (h : Hdr) (f : DtF) (s : State) : Res := issue p h (actDt 9 f) s
/-- DOVETAIL_DONE. -/
def execDovetailDone (p : Nat) (s : State) : Res := coreEvent p (dovetailDone p) s
/-- SCATTER_RECORD_TAKEN. -/
def execScatterRecordTaken (p bank : Nat) (s : State) : Res :=
  if 128 ≤ bank then .refused .noSuchUnit else coreEvent p (scatterRecordTaken p bank) s

end Sys2Proof.Machine
end

