-- ==== Sys2Proof/Machine/Draw.lean ====
section
/-! DEFINITION. The random draws of the device (R297, Table 11.2). -/

namespace Sys2Proof.Machine

/-- fold of R297, on 64-bit words. -/
def fold64 (z : W64) : W64 :=
  let z := (z ^^^ (z >>> 31)) * 0x9E6C63D0676A9A99
  let z := (z ^^^ (z >>> 29)) * 0xD6E8FEB86659FD93
  z ^^^ (z >>> 32)

/-- draw64 of R297. -/
def draw64 (sLo sHi c0 c1 c2 : W64) : W64 :=
  let z := fold64 (sLo ^^^ c0) ^^^ c1
  let z := fold64 z ^^^ c2
  let z := fold64 z ^^^ sHi
  fold64 z

/-- The draw of VRNG lane i (Table 11.2). -/
def drawLane (seedLo seedHi counter logical role step i : Nat) : Nat :=
  let c1 := logical % 4096 + 4096 * (i % 64) + 2 ^ 62 * (role % 2) + 2 ^ 63
  (draw64 (BitVec.ofNat 64 seedLo) (BitVec.ofNat 64 seedHi) (BitVec.ofNat 64 counter) (BitVec.ofNat 64 c1)
    (BitVec.ofNat 64 step)).toNat % 2 ^ 32

/-- The 16-bit draw of LUU stochastic rounding (Table 11.2). -/
def drawSR (seedLo seedHi object variant element step : Nat) : Nat :=
  let c0 := object % 2 ^ 32 + 2 ^ 32 * (variant % 256)
  let c1 := element % 2 ^ 17 + 2 ^ 62
  (draw64 (BitVec.ofNat 64 seedLo) (BitVec.ofNat 64 seedHi) (BitVec.ofNat 64 c0) (BitVec.ofNat 64 c1)
    (BitVec.ofNat 64 step)).toNat % 65536

end Sys2Proof.Machine
end

