-- ==== Sys2Proof/Machine/Vector.lean ====
section
/-! DEFINITION. The vector engine: the VX slot's operations and the landing of results (R146 to R165, R182 to R186). Operations are named by their opcode of Table 7.9. -/

namespace Sys2Proof.Machine

/-- Operands of Table 7.9: whether opcode op reads a, b, c. -/
def vxA (op : Nat) : Bool := decide (2 ≤ op ∧ op ≤ 0xC) || decide (0x18 ≤ op ∧ op ≤ 0x1A)
def vxB (op : Nat) : Bool := !(op == 0x11 || op == 0x14 || op == 0x15 || op == 0x16 || op == 0x17)
def vxC (op : Nat) : Bool := op == 5 || op == 6 || op == 0xB
/-- Horizontal operations, which write S[SX]. -/
def vxHor (op : Nat) : Bool := decide (0xE ≤ op ∧ op ≤ 0x10)
/-- Record update and combine, which write a register pair and S[SX]. -/
def vxRec (op : Nat) : Bool := op == 0x13 || op == 0x14
/-- Variance finalisation. -/
def vxVar (op : Nat) : Bool := op == 0x15 || op == 0x16
/-- Operations with one register of result, which MD can send to scratchpad. -/
def vxDst (op : Nat) : Bool := !vxHor op && !vxRec op

/-- Whether TY is allowed for an operation (R184). VSEL takes every lane type; VMOV has none. -/
def vxTyOk (op ty : Nat) : Bool :=
  if vxHor op then decide (ty ≤ 1)
  else if vxRec op || vxVar op || decide (0x17 ≤ op) || op == 0x11 then ty == 0
  else true

/-- Lanes of the vector's element groups that a format holds beyond one: groups of 64 elements in a register (R185). -/
def cvtGroups (f : Nat) : Nat := 32 / fmtBits f

/-- Whether a VCVT source, target or group is not allowed (Table 5.3, R185). -/
def cvtBad (src tgt p : Nat) : Bool :=
  decide (10 < src) || decide (5 < tgt) || (src != 0 && decide (cvtGroups src ≤ p)) || (tgt != 0 && decide (cvtGroups tgt ≤ p))

/-- One lane of an arithmetic operation on codes of format f. -/
def laneOp (op : Nat) (f : Fmt) (mode : Rnd) (cond a b c : Nat) : FR :=
  let d := f.decode
  match op with
  | 2 => fpAdd f mode (d a) (d b)
  | 3 => fpAdd f mode (d a) (d b).neg
  | 4 => fpMul f mode (d a) (d b)
  | 5 => fpFma f mode (d a) (d b) (d c)
  | 6 => fpFma f mode (d a).neg (d b) (d c)
  | 7 => fpMin f a b
  | 8 => fpMax f a b
  | 9 => fpAmax f a b
  | 0xA => let r := fpCmp f cond a b; (if r.1 then 2 ^ f.width - 1 else 0, r.2)
  | 0xB => (if a = 0 then c else b, 0)
  | 0xC => fpDiv f mode (d a) (d b)
  | _ => fpSqrt f mode (d b)

/-- FP32 lanes of an operand for a lane type: 64 lanes, a widened BF16 half, or 128 widened lanes (R149, R152). -/
def half32 (v hi : Nat) : List Nat := (lanes 16 128 v |>.drop (64 * hi) |>.take 64).map bf16To32

/-- An elementwise operation over a register (R138 to R141, R184). -/
def vxMap (op ty : Nat) (mode : Rnd) (cond a b c : Nat) : Nat × Fl :=
  if ty = 1 then
    let r := mapLanes (laneOp op fBF16 mode cond) (lanes 16 128 a) (lanes 16 128 b) (lanes 16 128 c)
    (unlanes 16 r.1, r.2)
  else
    let al := if ty = 0 then lanes 32 64 a else half32 a (ty - 2)
    let r := mapLanes (laneOp op fFP32 mode cond) al (lanes 32 64 b) (lanes 32 64 c)
    (unlanes 32 r.1, r.2)

/-- A horizontal operation (R152, R153, Table 7.9). A NaN lane that widening meets sets NAN_IN through the additions. -/
def vxHorizontal (op ty : Nat) (mode : Rnd) (b : Nat) : Nat × Fl :=
  let xs := if ty = 0 then lanes 32 64 b else (lanes 16 128 b).map bf16To32
  let k := if ty = 0 then 6 else 7
  let add := fun x y => fpAdd fFP32 mode (fFP32.decode x) (fFP32.decode y)
  let sq := xs.map (fun x => fpMul fFP32 mode (fFP32.decode x) (fFP32.decode x))
  let r :=
    if op = 0xE then treeFold add k xs 0
    else if op = 0xF then treeFold add k (sq.map (fun x => x.1)) (sq.foldl (fun a x => a ||| x.2) 0)
    else treeFold (fpAmax fFP32) k xs 0
  (r.1.headD 0, r.2)

/-- VCVT of group p: the 64 target codes and flags (R142 to R145, R185). A pair that Table 5.3 allows and R142 to R145 do not list rounds the
exact value once (Tables 5.11, 5.12; log entry 41). -/
def vxConvert (src tgt p : Nat) (mode : Rnd) (b scales : Nat) : List Nat × Fl :=
  let w := fmtBits src
  let off := if src = 0 then 0 else 64 * p
  let xs := (List.range 64).map (fun i => ((b >>> (w * (off + i))) % 2 ^ w, (scales >>> (8 * (i / 32))) % 256))
  let rs := xs.map (fun x =>
    let v := elScaled src x.1 x.2
    if tgt = 5 then toInt8 mode v else narrow (fmtOf tgt) mode v)
  let sn : Fl := if isMx src && (scales % 256 == 255 || scales / 256 % 256 == 255) then flScaleNan else 0
  (rs.map (fun r => r.1), rs.foldl (fun a r => a ||| r.2) sn)

/-- VEC_STATUS bits (Table 6.5). -/
def vsSat : Nat := 1
def vsInexact : Nat := 2
def vsMode : Nat := 4

/-- A record combine of a and b, each (count, means, M2s): the new record, FP flags and VEC_STATUS bits (R156, R160). -/
def recCombine (na : Nat) (ma qa : Nat) (nb : Nat) (mb qb : Nat) : (Nat × Nat × Nat) × Fl × Nat :=
  if nb = 0 then ((na, ma, qa), 0, 0)
  else if na = 0 then ((nb, mb, qb), 0, 0)
  else
    let n := na + nb
    let r := recLanes (countFp32 n) (countFp32 nb) (countFp32 na) (lanes 32 64 ma) (lanes 32 64 qa) (lanes 32 64 mb) (lanes 32 64 qb)
    let top := 2 ^ 32 - 1
    let inex := decide (2 ^ 24 < n ∨ 2 ^ 24 < na ∨ 2 ^ 24 < nb)
    ((min n top, unlanes 32 r.1, unlanes 32 r.2.1), r.2.2, (if top < n then vsSat else 0) + (if inex then vsInexact else 0))

/-- Variance finalisation of M2 lanes by n, the divisor count (R158, R160): a divisor of 0 or below gives NaN with INVALID. -/
def vxVariance (mode : Rnd) (m2 cnt sub : Nat) : Nat × Fl × Nat :=
  if cnt ≤ sub then (unlanes 32 (List.replicate 64 fFP32.nanCode), flInvalid, 0)
  else
    let n := cnt - sub
    let rs := (lanes 32 64 m2).map (fun x => fpDiv fFP32 mode (fFP32.decode x) (fFP32.decode (countFp32 n)))
    (unlanes 32 (rs.map (fun r => r.1)), rs.foldl (fun a r => a ||| r.2) 0, if 2 ^ 24 < n then vsInexact else 0)

/-- The post-increment of the X registers used as addresses, each once (Table 7.8). -/
def incEach (xs : List Nat) (n : Nat) (m : Mask) (c : Core) : Core := xs.eraseDups.foldl (fun c x => c.bumpX x n m) c

/-- Replaces 64 elements of width w from element off of an image. -/
def putGroup (old w off : Nat) (els : List Nat) : Nat :=
  let lo := old % 2 ^ (w * off)
  let hi := old >>> (w * (off + 64))
  lo + 2 ^ (w * off) * (unlanes w els + 2 ^ (w * 64) * hi)

/-- A VX operation (R148, R182 to R186, Tables 7.8 and 7.9). MD of an operation without a single register result, and MS of one
without operand b, are ignored. A record operation writes bits [63:32] of its count register as 0 (log entry 41). -/
def actVx (op : Nat) (f : VxF) (s : State) (p : Nat) : Act :=
  let c := s.core p
  let vd := f.vd.toNat
  let vs1 := f.vs1.toNat
  let vs2 := f.vs2.toNat
  let vs3 := f.vs3.toNat
  let ty := f.ty.toNat
  let sx := f.sx.toNat
  let mode := Rnd.ofCode f.rnd.toNat
  let ms := f.ms && vxB op
  let md := f.md && vxDst op
  let xsrc := vs2 % 16
  let xdst := vd % 16
  let sa := (c.xreg xsrc).toNat
  let da := (c.xreg xdst).toNat
  let cvt := op == 0x12
  let tw := fmtBits (vs3 % 16)
  let src := vs1 % 16
  let tgt := vs3 % 16
  -- bytes written in scratchpad: the image, or the target group of a conversion
  let eb := fmtBits tgt / 8
  let wOff := if cvt && tgt != 0 then 64 * eb * ty else 0
  let wLen := if cvt then 64 * eb else 256
  let badA := (ms && (sa % 64 != 0 || !c.spadOk sa 256)) || (md && (da % 64 != 0 || !c.spadOk da 256))
  let badF := if cvt then cvtBad src tgt ty else !vxTyOk op ty
  let badR := (vxRec op && vd % 2 == 1) || ((op == 0x14 || vxVar op) && vs1 % 2 == 1)
  let flt := firstFault [(op == 0xA && decide (6 ≤ vs3 % 8), fBadOpcode), (badF, fBadFormat), (badR, fBadRegister), (badA, fBadAddress)]
  let sRead := op == 0x11 || (cvt && isMx src) || vxRec op || vxVar op || op == 0x17
  let regR :=
    (if vxA op then [vs1] else []) ++ (if vxB op && !ms then [vs2] else []) ++ (if vxC op then [vs3] else []) ++
    (if ms then [idX xsrc] else []) ++ (if md then [idX xdst] else []) ++ (if sRead then [idS sx] else []) ++
    (if vxRec op then [vd, vd + 1] else []) ++ (if op == 0x14 then [vs1, vs1 + 1, idS (vs3 % 32)] else []) ++
    (if vxVar op then [vs1, vs1 + 1] else []) ++ (if cvt && !md then [vd] else [])
  let dst := if vxHor op then [idS sx] else if vxRec op then [vd, vd + 1, idS sx] else if md then [] else [vd]
  let incs := if f.inc then ((if ms then [xsrc] else []) ++ (if md then [xdst] else [])) else []
  let rs := if ms then [(sa, 256)] else []
  let ok := flt.isNone
  let foot : Foot := if ok then
    { gr := rangeGran rs, gw := (if md then granules (da + wOff) wLen else []), regs := dst, sl := c.rangeSlots rs,
      lines := (if md then (linesOf (da + wOff) wLen).length else 0) } else {}
  let b := if ms then Mem.readNat (c.spadView 2) sa 256 else (c.vreg vs2).toNat
  let a := (c.vreg vs1).toNat
  let sv := (c.sreg sx).toNat
  let outV := fun (v : Nat) => if md then (([] : List (Nat × Nat)), [(da, leBytes 256 v)]) else ([(vd, v)], [])
  let mdIg : Nat := if vxRec op && f.rnd != 0 then vsMode else 0
  let res : VRes :=
    if vxHor op then
      let r := vxHorizontal op ty mode b
      { regs := [(idS sx, r.1)], fl := r.2 }
    else if vxRec op then
      let o := if op == 0x13 then recCombine (sv % 2 ^ 32) (c.vreg vd).toNat (c.vreg (vd + 1)).toNat 1 b 0
        else recCombine (sv % 2 ^ 32) (c.vreg vd).toNat (c.vreg (vd + 1)).toNat ((c.sreg (vs3 % 32)).toNat % 2 ^ 32) a (c.vreg (vs1 + 1)).toNat
      { regs := [(vd, o.1.2.1), (vd + 1, o.1.2.2), (idS sx, o.1.1)], fl := o.2.1, vs := o.2.2 ||| mdIg }
    else if vxVar op then
      let r := vxVariance mode (c.vreg (vs1 + 1)).toNat (sv % 2 ^ 32) (op - 0x15)
      let o := outV r.1
      { regs := o.1, spad := o.2, fl := r.2.1, vs := r.2.2 }
    else if cvt then
      let r := vxConvert src tgt ty mode b sv
      if md then { spad := [(da + wOff, leBytes wLen (unlanes tw r.1))], fl := r.2 }
      else { regs := [(vd, putGroup (c.vreg vd).toNat (fmtBits tgt) (if tgt = 0 then 0 else 64 * ty) r.1)], fl := r.2 }
    else
      let r : Nat × Fl :=
        if op = 1 then (b, 0)
        else if op = 0x11 then (unlanes 32 (List.replicate 64 (sv % 2 ^ 32)), 0)
        else if op = 0x17 then
          (unlanes 32 ((List.range 64).map (drawLane s.job.seedLo s.job.seedHi sv (c.curRole.getD 0) c.segRole s.job.step)), 0)
        else if op = 0x18 then (a &&& b, 0)
        else if op = 0x19 then (a ||| b, 0)
        else if op = 0x1A then (a ^^^ b, 0)
        else vxMap op ty mode (vs3 % 8) a b (c.vreg vs3).toNat
      let o := outV r.1
      { regs := o.1, spad := o.2, fl := r.2 }
  { slot := 1, fault := flt, regR := regR, regW := dst ++ incs.map idX, foot := foot, eng := 2, room := c.rangeFilled (if ok then rs else []),
    mask := c.readMask rs,
    inc := fun m c => incEach incs 256 m c,
    eff := fun m s => s.onCore p (fun c => { c with vpipe := c.vpipe ++ [{ res with eng := 2, mask := m, pt := c.ptSeq, foot := foot }] }) }

/-- VMOV. -/
def execVmov (p : Nat) (h : Hdr) (f : VxF) (s : State) : Res := issue p h (actVx 0x01 f) s
/-- VADD. -/
def execVadd (p : Nat) (h : Hdr) (f : VxF) (s : State) : Res := issue p h (actVx 0x02 f) s
/-- VSUB. -/
def execVsub (p : Nat) (h : Hdr) (f : VxF) (s : State) : Res := issue p h (actVx 0x03 f) s
/-- VMUL. -/
def execVmul (p : Nat) (h : Hdr) (f : VxF) (s : State) : Res := issue p h (actVx 0x04 f) s
/-- VFMA. -/
def execVfma (p : Nat) (h : Hdr) (f : VxF) (s : State) : Res := issue p h (actVx 0x05 f) s
/-- VFNMA. -/
def execVfnma (p : Nat) (h : Hdr) (f : VxF) (s : State) : Res := issue p h (actVx 0x06 f) s
/-- VMIN. -/
def execVmin (p : Nat) (h : Hdr) (f : VxF) (s : State) : Res := issue p h (actVx 0x07 f) s
/-- VMAX. -/
def execVmax (p : Nat) (h : Hdr) (f : VxF) (s : State) : Res := issue p h (actVx 0x08 f) s
/-- VAMX. -/
def execVamx (p : Nat) (h : Hdr) (f : VxF) (s : State) : Res := issue p h (actVx 0x09 f) s
/-- VCMP. -/
def execVcmp (p : Nat) (h : Hdr) (f : VxF) (s : State) : Res := issue p h (actVx 0x0A f) s
/-- VSEL. -/
def execVsel (p : Nat) (h : Hdr) (f : VxF) (s : State) : Res := issue p h (actVx 0x0B f) s
/-- VDIV. -/
def execVdiv (p : Nat) (h : Hdr) (f : VxF) (s : State) : Res := issue p h (actVx 0x0C f) s
/-- VSQRT. -/
def execVsqrt (p : Nat) (h : Hdr) (f : VxF) (s : State) : Res := issue p h (actVx 0x0D f) s
/-- VHSUM. -/
def execVhsum (p : Nat) (h : Hdr) (f : VxF) (s : State) : Res := issue p h (actVx 0x0E f) s
/-- VHSSQ. -/
def execVhssq (p : Nat) (h : Hdr) (f : VxF) (s : State) : Res := issue p h (actVx 0x0F f) s
/-- VHAMX. -/
def execVhamx (p : Nat) (h : Hdr) (f : VxF) (s : State) : Res := issue p h (actVx 0x10 f) s
/-- VSPL. -/
def execVspl (p : Nat) (h : Hdr) (f : VxF) (s : State) : Res := issue p h (actVx 0x11 f) s
/-- VCVT. -/
def execVcvt (p : Nat) (h : Hdr) (f : VxF) (s : State) : Res := issue p h (actVx 0x12 f) s
/-- VRUPD. -/
def execVrupd (p : Nat) (h : Hdr) (f : VxF) (s : State) : Res := issue p h (actVx 0x13 f) s
/-- VRCMB. -/
def execVrcmb (p : Nat) (h : Hdr) (f : VxF) (s : State) : Res := issue p h (actVx 0x14 f) s
/-- VVARP. -/
def execVvarp (p : Nat) (h : Hdr) (f : VxF) (s : State) : Res := issue p h (actVx 0x15 f) s
/-- VVARS. -/
def execVvars (p : Nat) (h : Hdr) (f : VxF) (s : State) : Res := issue p h (actVx 0x16 f) s
/-- Core p at its PC: bundle 0 begins a segment (R46), of role 0 (DESIGN CHOICE, log entry 41). -/
def State.atSegment (s : State) (p : Nat) : State := if s.pc p = 0 then s.onCore p (fun c => { c with segRole := 0 }) else s
/-- VRNG: its draws are keyed by the role of the current segment (R186). -/
def execVrng (p : Nat) (h : Hdr) (f : VxF) (s : State) : Res := issue p h (fun s p => actVx 0x17 f (s.atSegment p) p) s
/-- VAND. -/
def execVand (p : Nat) (h : Hdr) (f : VxF) (s : State) : Res := issue p h (actVx 0x18 f) s
/-- VOR. -/
def execVor (p : Nat) (h : Hdr) (f : VxF) (s : State) : Res := issue p h (actVx 0x19 f) s
/-- VXOR. -/
def execVxor (p : Nat) (h : Hdr) (f : VxF) (s : State) : Res := issue p h (actVx 0x1A f) s

/-- The oldest result of the vector engine or of SLD and SST lands: registers with their masks, scratchpad bytes, flags (R150). -/
def resultLands (p : Nat) (s : State) : State :=
  match (s.core p).vpipe with
  | [] => s
  | r :: rest =>
    let s := s.onCore p (fun c =>
      let c := { c with vpipe := rest }
      let c := r.regs.foldl (fun c w => c.landId r.pt w.1 w.2 r.mask) c
      r.spad.foldl (fun c w => c.putSpad r.pt w.1 w.2 r.mask) c)
    let s := if r.fl = 0 then s else s.orReg (coreReg p 2 0x80) (r.fl.setWidth 32)
    if r.vs = 0 then s else s.orReg (coreReg p 2 0x84) (BitVec.ofNat 32 r.vs)

/-- RESULT_LANDS. -/
def execResultLands (p : Nat) (s : State) : Res := coreEvent p (resultLands p) s

end Sys2Proof.Machine
end

