-- ==== Sys2Proof/Machine/Bundle.lean ====
section
/-! DEFINITION. Whole bundles: the act of every operation of a bundle's slots, a bundle fetched from the instruction store and issued
(R84, R166 to R170), and the commands that run a core and reach its instruction store. -/

namespace Sys2Proof.Machine

/-- What an operation of a bundle does at issue; none for a command that no slot holds. -/
def actOf (i : Instr) : Option (State → Nat → Act) :=
  match i with
  | .lds _ _ f => some (actLoad 0 f)
  | .ldst _ _ f => some (actLoad 1 f)
  | .strm _ _ f => some (actStrm f)
  | .strd _ _ f => some (actStrd f)
  | .epi _ _ f => some (actEpi f)
  | .sclr _ _ f => some (actSclr f)
  | .sexp _ _ f => some (actSexp f)
  | .vmov _ _ f => some (actVx 0x01 f)
  | .vadd _ _ f => some (actVx 0x02 f)
  | .vsub _ _ f => some (actVx 0x03 f)
  | .vmul _ _ f => some (actVx 0x04 f)
  | .vfma _ _ f => some (actVx 0x05 f)
  | .vfnma _ _ f => some (actVx 0x06 f)
  | .vmin _ _ f => some (actVx 0x07 f)
  | .vmax _ _ f => some (actVx 0x08 f)
  | .vamx _ _ f => some (actVx 0x09 f)
  | .vcmp _ _ f => some (actVx 0x0A f)
  | .vsel _ _ f => some (actVx 0x0B f)
  | .vdiv _ _ f => some (actVx 0x0C f)
  | .vsqrt _ _ f => some (actVx 0x0D f)
  | .vhsum _ _ f => some (actVx 0x0E f)
  | .vhssq _ _ f => some (actVx 0x0F f)
  | .vhamx _ _ f => some (actVx 0x10 f)
  | .vspl _ _ f => some (actVx 0x11 f)
  | .vcvt _ _ f => some (actVx 0x12 f)
  | .vrupd _ _ f => some (actVx 0x13 f)
  | .vrcmb _ _ f => some (actVx 0x14 f)
  | .vvarp _ _ f => some (actVx 0x15 f)
  | .vvars _ _ f => some (actVx 0x16 f)
  | .vrng _ _ f => some (actVx 0x17 f)
  | .vand _ _ f => some (actVx 0x18 f)
  | .vor _ _ f => some (actVx 0x19 f)
  | .vxor _ _ f => some (actVx 0x1A f)
  | .dtld _ _ f => some (actDt 1 f)
  | .dtclr _ _ f => some (actDt 2 f)
  | .dtmat _ _ f => some (actDt 3 f)
  | .dtstr _ _ f => some (actDt 4 f)
  | .dtgat _ _ f => some (actDt 5 f)
  | .dtgatCheck _ _ f => some (actDt 5 { f with mode := 3 })
  | .dtsct _ _ f => some (actDt 6 f)
  | .dtsrt _ _ f => some (actDt 7 f)
  | .dtcmp _ _ f => some (actDt 8 f)
  | .dtexp _ _ f => some (actDt 9 f)
  | .mcpy _ _ f => some (actMv 1 f)
  | .msld _ _ f => some (actMv 2 f)
  | .msst _ _ f => some (actMv 3 f)
  | .msend _ _ f => some (actMv 4 f)
  | .msrd _ _ f => some (actMv 5 f)
  | .mswr _ _ f => some (actMv 6 f)
  | .waitm _ _ f => some (actWaitm f)
  | .waitr _ _ f => some (actWaitr f)
  | .bara _ _ f => some (actBara f)
  | .barw _ _ f => some (actBarw f)
  | .fence _ _ => some (actFence)
  | .loop _ _ f => some (actLoop f)
  | .mstr _ _ f => some (actMstr f)
  | .trel _ _ => some (actTrel)
  | .endstep _ _ => some (actEndstep)
  | .logv _ _ f => some (actLogv f)
  | .rcset _ _ f => some (actRcset f)
  | .sadd _ _ f => some (actScal 0x10 f)
  | .ssub _ _ f => some (actScal 0x11 f)
  | .smul _ _ f => some (actScal 0x12 f)
  | .sand _ _ f => some (actScal 0x13 f)
  | .sor _ _ f => some (actScal 0x14 f)
  | .sxor _ _ f => some (actScal 0x15 f)
  | .sshl _ _ f => some (actScal 0x16 f)
  | .sshr _ _ f => some (actScal 0x17 f)
  | .sceq _ _ f => some (actScal 0x18 f)
  | .sclt _ _ f => some (actScal 0x19 f)
  | .saddi _ _ f => some (actScalI 0x1A f)
  | .sxori _ _ f => some (actScalI 0x1B f)
  | .sli _ _ f => some (actScalI 0x1C f)
  | .slui _ _ f => some (actScalI 0x1D f)
  | .sld _ _ f => some (actSldst false f)
  | .sst _ _ f => some (actSldst true f)
  | .srd _ _ f => some (actScalI 0x20 f)
  | _ => none

/-- The act of a slot whose opcode is reserved: BAD_OPCODE (R167, Table 7.16). -/
def badAct (slot : Nat) : Act := { slot := slot, fault := some fBadOpcode }

/-- The bundle of core p at index b (R84). -/
def State.bundleAt (s : State) (p b : Nat) : Bundle := bundleOf (Mem.readNat (s.core p).istore (32 * b) 32)

/-- Core p in the segment of the bundle at its PC: a bundle with a WAITM begins a segment of the role it names, and so does bundle 0 (R46),
of role 0 where it holds no WAITM (DESIGN CHOICE, log entry 41); a VRNG of that bundle draws for that role (R186). -/
def State.inSegment (s : State) (p : Nat) (ops : List (Option Instr)) : State :=
  let role := ops.findSome? (fun i => match i with
    | some (.waitm _ _ f) => some (if f.role then 1 else 0)
    | _ => none)
  s.onCore p (fun c => { c with segRole := role.getD (if s.pc p = 0 then 0 else c.segRole) })

/-- Issues the bundle at the PC: every valid slot acts together (R167 to R170). -/
def State.issueBundle (s : State) (p : Nat) : State :=
  let b := s.bundleAt p (s.pc p)
  let ops := b.slots p
  let t := s.inSegment p (ops.map (fun e => e.2))
  s.issueAt p (decodeHdr b.hdr) (ops.map (fun e =>
    match e.2 with
    | none => badAct e.1
    | some i => match actOf i with
      | some a => a t p
      | none => badAct e.1))

/-- CORE_CTRL.RUN (R207): set, it starts issue at the PC, but not at a fenced core (R509); cleared, it stops issue before the next
bundle. -/
def State.setRun (s : State) (p : Nat) (v : Bool) : State :=
  if !s.bayUp (coreBay p) ∨ (v ∧ s.fenced p) then s else s.setFld (coreReg p 0 0) 0 0 (if v then 1 else 0)

/-- CORE_RUN. -/
def execCoreRun (p : Nat) (v : Bool) (s : State) : Res := if 2880 ≤ p then .refused .noSuchUnit else .next (s.setRun p v)

/-- CORE_CTRL.STEP with RUN at 0: issues one bundle (R207, R169). A STEP whose bundle is held issues nothing and is over (DESIGN CHOICE, log
entry 41). -/
def execCoreStep (p : Nat) (s : State) : Res :=
  if 2880 ≤ p then .refused .noSuchUnit
  else if s.mayIssue p && !s.running p then .next (s.issueBundle p) else .next s

/-- An access to ISTORE_DATA at the word ISTORE_ADDR names, which then advances under AUTO_INC (R85, Tables 3.10, 3.11). -/
def State.istoreAccess (s : State) (p : Nat) (wr : Option W32) : State :=
  let a := coreReg p 0 0x50
  let w := 4 * s.fld a 17 2
  let s := match wr with
    | some v => s.onCore p (fun c => { c with istore := Mem.write c.istore w (leBytes 4 v.toNat) })
    | none => { s with back := { data := Mem.read (s.core p).istore w 4 } }
  if bit (s.reg a).toNat 31 then s.setFld a 17 2 (w / 4 + 1) else s

/-- ISTORE_DATA. -/
def execIstoreData (p : Nat) (wr : Option W32) (s : State) : Res :=
  if 2880 ≤ p then .refused .noSuchUnit
  else if s.bayUp (coreBay p) then .next (s.istoreAccess p wr) else .next { s with back := { err := true } }

end Sys2Proof.Machine
end

