-- ==== Sys2Proof/Machine/Digest.lean ====
section
/-! DEFINITION. The digests of manifests, snapshots and firmware images: SHA-384, CRC-32C and ECDSA over P-384 (R503, Tables 2.7, 2.8, 17.7, 19.18). -/

namespace Sys2Proof.Machine

/-- SHA-384 round constants, first part. -/
def shaKA : List Nat := [
  0x428A2F98D728AE22, 0x7137449123EF65CD, 0xB5C0FBCFEC4D3B2F, 0xE9B5DBA58189DBBC,
  0x3956C25BF348B538, 0x59F111F1B605D019, 0x923F82A4AF194F9B, 0xAB1C5ED5DA6D8118,
  0xD807AA98A3030242, 0x12835B0145706FBE, 0x243185BE4EE4B28C, 0x550C7DC3D5FFB4E2,
  0x72BE5D74F27B896F, 0x80DEB1FE3B1696B1, 0x9BDC06A725C71235, 0xC19BF174CF692694,
  0xE49B69C19EF14AD2, 0xEFBE4786384F25E3, 0x0FC19DC68B8CD5B5, 0x240CA1CC77AC9C65,
  0x2DE92C6F592B0275, 0x4A7484AA6EA6E483, 0x5CB0A9DCBD41FBD4, 0x76F988DA831153B5,
  0x983E5152EE66DFAB, 0xA831C66D2DB43210, 0xB00327C898FB213F, 0xBF597FC7BEEF0EE4,
  0xC6E00BF33DA88FC2, 0xD5A79147930AA725, 0x06CA6351E003826F, 0x142929670A0E6E70,
  0x27B70A8546D22FFC, 0x2E1B21385C26C926, 0x4D2C6DFC5AC42AED, 0x53380D139D95B3DF,
  0x650A73548BAF63DE, 0x766A0ABB3C77B2A8, 0x81C2C92E47EDAEE6, 0x92722C851482353B]

/-- SHA-384 round constants, second part. -/
def shaKB : List Nat := [
  0xA2BFE8A14CF10364, 0xA81A664BBC423001, 0xC24B8B70D0F89791, 0xC76C51A30654BE30,
  0xD192E819D6EF5218, 0xD69906245565A910, 0xF40E35855771202A, 0x106AA07032BBD1B8,
  0x19A4C116B8D2D0C8, 0x1E376C085141AB53, 0x2748774CDF8EEB99, 0x34B0BCB5E19B48A8,
  0x391C0CB3C5C95A63, 0x4ED8AA4AE3418ACB, 0x5B9CCA4F7763E373, 0x682E6FF3D6B2B8A3,
  0x748F82EE5DEFB2FC, 0x78A5636F43172F60, 0x84C87814A1F0AB72, 0x8CC702081A6439EC,
  0x90BEFFFA23631E28, 0xA4506CEBDE82BDE9, 0xBEF9A3F7B2C67915, 0xC67178F2E372532B,
  0xCA273ECEEA26619C, 0xD186B8C721C0C207, 0xEADA7DD6CDE0EB1E, 0xF57D4F7FEE6ED178,
  0x06F067AA72176FBA, 0x0A637DC5A2C898A6, 0x113F9804BEF90DAE, 0x1B710B35131C471B,
  0x28DB77F523047D84, 0x32CAAB7B40C72493, 0x3C9EBE0A15C9BEBC, 0x431D67C49C100D4C,
  0x4CC5D4BECB3E42B6, 0x597F299CFC657E2A, 0x5FCB6FAB3AD6FAEC, 0x6C44198C4A475817]

/-- SHA-384 initial hash words. -/
def shaInit : List Nat := [
  0xCBBB9D5DC1059ED8, 0x629A292A367CD507, 0x9159015A3070DD17, 0x152FECD8F70E5939,
  0x67332667FFC00B31, 0x8EB44A8768581511, 0xDB0C2E0D64F98FA7, 0x47B5481DBEFA4FA4]

/-- Rotation to the right of a 64-bit word. -/
def rotr64 (x : W64) (n : Nat) : W64 := (x >>> n) ||| (x <<< (64 - n))

/-- The message schedule: n further words after those of ws, which is kept newest first. -/
def shaSchedule : Nat → List W64 → List W64
  | 0, ws => ws
  | n + 1, ws =>
    let g := fun (i : Nat) => ws.getD i 0
    let s0 := rotr64 (g 14) 1 ^^^ rotr64 (g 14) 8 ^^^ (g 14 >>> 7)
    let s1 := rotr64 (g 1) 19 ^^^ rotr64 (g 1) 61 ^^^ (g 1 >>> 6)
    shaSchedule n ((s1 + g 6 + s0 + g 15) :: ws)

/-- One round on the eight working words. -/
def shaRound (v : List W64) (kw : W64) : List W64 :=
  match v with
  | [a, b, c, d, e, f, g, h] =>
    let s1 := rotr64 e 14 ^^^ rotr64 e 18 ^^^ rotr64 e 41
    let ch := (e &&& f) ^^^ (~~~e &&& g)
    let t1 := h + s1 + ch + kw
    let s0 := rotr64 a 28 ^^^ rotr64 a 34 ^^^ rotr64 a 39
    let mj := (a &&& b) ^^^ (a &&& c) ^^^ (b &&& c)
    [t1 + (s0 + mj), a, b, c, d + t1, e, f, g]
  | _ => v

/-- A big-endian word of eight bytes. -/
def beWord (bs : List Byte) : W64 := bs.foldl (fun x b => (x <<< 8) ||| b.setWidth 64) 0
/-- The big-endian bytes of a word. -/
def beBytes (x : W64) : List Byte := (leBytes 8 x.toNat).reverse

/-- The hash words after one 128-byte block. -/
def shaBlock (h : List W64) (blk : List Byte) : List W64 :=
  let ws := (shaSchedule 64 ((chunks 8 16 blk).map beWord).reverse).reverse
  let kw := List.zipWith (fun (w : W64) (k : Nat) => w + BitVec.ofNat 64 k) ws (shaKA ++ shaKB)
  List.zipWith (fun (a b : W64) => a + b) h (kw.foldl shaRound h)

/-- SHA-384 of a byte string: 48 bytes. -/
def sha384 (m : List Byte) : List Byte :=
  let pad := (239 - m.length % 128) % 128
  let msg := m ++ [0x80] ++ List.replicate pad 0 ++ (leBytes 16 (8 * m.length)).reverse
  let h := (chunks 128 (msg.length / 128 + 1) msg).foldl shaBlock (shaInit.map (BitVec.ofNat 64))
  ((h.take 6).flatMap beBytes)

/-- One byte of a CRC-32C. -/
def crcByte (c : W32) (b : Byte) : W32 :=
  (List.range 8).foldl (fun c _ => if c &&& 1 = 1 then (c >>> 1) ^^^ 0x82F63B78 else c >>> 1) (c ^^^ b.setWidth 32)

/-- CRC-32C of a byte string. -/
def crc32c (bs : List Byte) : Nat := (~~~(bs.foldl crcByte 0xFFFFFFFF)).toNat

/-! ## ECDSA over P-384 (R503) -/

/-- The prime of the field of P-384. -/
def ecP : Nat := 2 ^ 384 - 2 ^ 128 - 2 ^ 96 + 2 ^ 32 - 1
/-- The order of the base point of P-384. -/
def ecN : Nat := 0xFFFFFFFFFFFFFFFFFFFFFFFFFFFFFFFFFFFFFFFFFFFFFFFFC7634D81F4372DDF581A0DB248B0A77AECEC196ACCC52973
/-- The coefficient b of P-384; a is −3. -/
def ecB : Nat := 0xB3312FA7E23EE7E4988E056BE3F82D19181D9C6EFE8141120314088F5013875AC656398D8A2ED19D2A85C8EDD3EC2AEF
/-- The base point of P-384. -/
def ecG : Nat × Nat :=
  (0xAA87CA22BE8B05378EB1C71EF320AD746E1D3B628BA79B9859F741E082542A385502F25DBF55296C3A545E3872760AB7,
   0x3617DE4A96262C6F5D9E98BF9292DC29F8F41DBD289A147CE9DA3113B5F0B8C00A60B1CE1D7E819D7A431D7C90EA0E5F)

/-- b to the power e modulo m, for e below 2^384. -/
def powMod (m b e : Nat) : Nat := (List.range 384).reverse.foldl (fun a i => let q := a * a % m; if e.testBit i then q * b % m else q) 1

/-- a − b in the field. -/
def ecSub (a b : Nat) : Nat := (a + ecP - b) % ecP

/-- Twice a point in Jacobian coordinates; z is 0 at infinity. -/
def ecDouble (u : Nat × Nat × Nat) : Nat × Nat × Nat :=
  let (x, y, z) := u
  let yy := y * y % ecP
  let s := 4 * x * yy % ecP
  let zz := z * z % ecP
  let m := 3 * (x + zz) * ecSub x zz % ecP
  let x' := ecSub (m * m % ecP) (2 * s % ecP)
  (x', ecSub (m * ecSub s x' % ecP) (8 * yy * yy % ecP), 2 * y * z % ecP)

/-- The sum of two points in Jacobian coordinates. -/
def ecAdd (u v : Nat × Nat × Nat) : Nat × Nat × Nat :=
  let (x, y, z) := u
  let (x', y', z') := v
  if z = 0 then v else if z' = 0 then u else
    let zz := z * z % ecP
    let ww := z' * z' % ecP
    let a := x * ww % ecP
    let c := y * ww * z' % ecP
    let h := ecSub (x' * zz % ecP) a
    let r := ecSub (y' * zz * z % ecP) c
    if h = 0 then (if r = 0 then ecDouble u else (1, 1, 0))
    else
      let hh := h * h % ecP
      let hhh := hh * h % ecP
      let t := a * hh % ecP
      let x3 := ecSub (ecSub (r * r % ecP) hhh) (2 * t % ecP)
      (x3, ecSub (r * ecSub t x3 % ecP) (c * hhh % ecP), h * z * z' % ecP)

/-- i times the base point plus j times q. -/
def ecMul2 (i j : Nat) (q : Nat × Nat × Nat) : Nat × Nat × Nat :=
  (List.range 384).reverse.foldl (fun a k =>
    let d := ecDouble a
    let e := if i.testBit k then ecAdd d (ecG.1, ecG.2, 1) else d
    if j.testBit k then ecAdd e q else e) (1, 1, 0)

/-- The number that bytes spell, the most significant first. -/
def beNat (bs : List Byte) : Nat := bs.foldl (fun n b => 256 * n + b.toNat) 0

/-- Whether a signature (r and s, 48 bytes each) of a SHA-384 digest verifies under an uncompressed public key of 97 bytes (R503, Table 19.18). -/
def ecdsaOk (key sig digest : List Byte) : Bool :=
  let x := beNat ((key.drop 1).take 48)
  let y := beNat ((key.drop 49).take 48)
  let r := beNat (sig.take 48)
  let s := beNat ((sig.drop 48).take 48)
  let w := powMod ecN s (ecN - 2)
  let t := ecMul2 (beNat digest * w % ecN) (r * w % ecN) (x, y, 1)
  let zi := powMod ecP t.2.2 (ecP - 2)
  key.head? == some 4 && decide (x < ecP ∧ y < ecP) && y * y % ecP == (x * x * x + (ecP - 3) * x + ecB) % ecP &&
  decide (0 < r ∧ r < ecN ∧ 0 < s ∧ s < ecN) && t.2.2 != 0 && t.1 * zi * zi % ecP % ecN == r

end Sys2Proof.Machine
end

