-- ==== Sys2Proof/Machine/Exact.lean ====
section
/-! DEFINITION. The exact path's numbers (R263 to R272, R279, R554): EXA values, wide-carry windows, exact addition, escape counting and final rounding. -/

namespace Sys2Proof.Machine

/-- Whether an EXA integer lies in the range of R263. -/
def exaOk (v : Int) : Bool := decide (-(2 ^ 319 : Int) ≤ v ∧ v < 2 ^ 319)

/-- Whether v fits window w: an integer SIG from −2^119 to 2^119 − 1 times 2^(8w) (Table 10.2). -/
def fitsWindow (v : Int) (w : Nat) : Bool :=
  decide (v % (2 ^ (8 * w) : Int) = 0 ∧ -(2 ^ 119 : Int) ≤ v / 2 ^ (8 * w) ∧ v / 2 ^ (8 * w) < 2 ^ 119)

/-- The canonical window of a finite value: window 0 for zero, else the largest that fits; none for an escape (R266). -/
def windowOf (v : Int) : Option Nat :=
  if v = 0 then some 0 else (List.range 26).reverse.find? (fitsWindow v)

/-- Whether a value travels as an escape. -/
def XV.escapes (x : XV) : Bool := x.cls == 0 && (windowOf x.val).isNone

/-- Escape blocks that follow a beat (R271): at most six images a block. -/
def escBlocks (xs : List XV) : Nat := ceilDiv (xs.filter XV.escapes).length 6

/-- Escape blocks that an adder starts when the elements xs leave it as ys: those beyond the blocks that carry an image both before and
after (R272). -/
def escStarted (xs ys : List XV) : Nat :=
  escBlocks ys - ceilDiv ((xs.zip ys).filter (fun e => e.1.escapes && e.2.escapes)).length 6

/-- The WCF bits of an element (Tables 10.1 to 10.3); el is its index in the object. -/
def XV.wcf (x : XV) (el : Nat) : Nat :=
  let orig := el % 2 ^ 17 + 2 ^ 20 * (x.origin % 65536) + 2 ^ 36 * (if x.nanSeen then 1 else 0)
  match x.cls with
  | 0 =>
    match windowOf x.val with
    | some w => w * 2 ^ 120 + wrapInt 120 (x.val / 2 ^ (8 * w))
    | none => 0xFF * 2 ^ 120
  | 1 => 0xFC * 2 ^ 120 + orig
  | 2 => 0xFD * 2 ^ 120 + orig
  | 3 => 0xFE * 2 ^ 120 + orig
  | _ => 0xFB * 2 ^ 120

/-- The value of WCF bits, with the image of an escape; cls 4 for a reserved window code (R268). -/
def wcfValue (n : Nat) (image : Int) : XV :=
  let code := n / 2 ^ 120
  let special := fun (cls : Nat) => ({ cls := cls, origin := bits n 35 20, nanSeen := bit n 36 } : XV)
  if code ≤ 25 then { val := signed 120 n * 2 ^ (8 * code) }
  else if code = 0xFC then special 1
  else if code = 0xFD then special 2
  else if code = 0xFE then special 3
  else if code = 0xFF then { val := image }
  else { cls := 4 }

/-- The exact value of a finite number m * 2^e as an EXA integer; no bit of a binary32 value is lost (R263). -/
def exaOf (neg : Bool) (m : Nat) (e : Int) : Int := scaledInt neg m e (-160)

/-- A return tap's conversion of an FP32 value at logical core o (R269). -/
def XV.ofF32 (code o : Nat) : XV :=
  match fFP32.decode code with
  | .nan => { cls := 1, origin := o, nanSeen := true }
  | .inf neg => { cls := if neg then 3 else 2, origin := o, nanSeen := false }
  | .fin neg m e => { val := exaOf neg m e }

/-- An operand as an adder takes it: a reserved window code is NaN with ORIGIN 0xFFFF and NAN_SEEN 1 (R268). -/
def XV.taken (x : XV) : XV := if x.cls ≤ 3 then x else { cls := 1, origin := 0xFFFF, nanSeen := true }

/-- Exact addition (Table 10.4, R554); the flag is set when a finite sum left the EXA range. -/
def XV.add (a b : XV) : XV × Bool :=
  let a := a.taken
  let b := b.taken
  let oa := if a.cls = 0 then 0xFFFF else a.origin
  let ob := if b.cls = 0 then 0xFFFF else b.origin
  let o := min oa ob
  if a.cls = 1 ∨ b.cls = 1 then
    ({ cls := 1, origin := o, nanSeen := (a.cls != 0 && a.nanSeen) || (b.cls != 0 && b.nanSeen) }, false)
  else if a.cls ≠ 0 ∧ b.cls ≠ 0 then
    if a.cls = b.cls then ({ cls := a.cls, origin := o, nanSeen := a.nanSeen || b.nanSeen }, false)
    else ({ cls := 1, origin := o, nanSeen := false }, false)
  else if a.cls ≠ 0 then (a, false)
  else if b.cls ≠ 0 then (b, false)
  else if exaOk (a.val + b.val) then ({ val := a.val + b.val }, false)
  else ({ cls := 1, origin := 0xFFFF, nanSeen := false }, true)

/-- The FP32 rounding of an exact sum (Table 10.8); the flag is set when a finite sum rounds to an infinity. -/
def XV.round (x : XV) : Nat × Bool :=
  match x.cls with
  | 0 =>
    if x.val = 0 then (0, false)
    else
      let r := (roundFin fFP32 .rne (decide (x.val < 0)) x.val.natAbs (-160)).1
      (r, r % 2 ^ 31 == 0x7F800000)
  | 1 => (0x7FC00000, false)
  | 2 => (0x7F800000, false)
  | 3 => (0xFF800000, false)
  | _ => (0x7FC00000, false)

/-- Adds two lists of elements; the flag is the OR of the range flags. -/
def addAll (as bs : List XV) : List XV × Bool :=
  let r := List.zipWith XV.add as bs
  (r.map (fun e => e.1), r.any (fun e => e.2))

end Sys2Proof.Machine
end

