-- ==== Sys2Proof/Machine/Timer.lean ====
section
/-! DEFINITION. The core timer and its performance windows (R520, R521). -/

namespace Sys2Proof.Machine

/-- TIMER_CTRL and TIMER_STATUS of a core. -/
def timerCtrl (p : Nat) : Nat := coreReg p 5 0x80
def timerStat (p : Nat) : Nat := coreReg p 5 0x88

/-- A start of a performance window: refused with WINDOW_CUT while the timer is claimed, ignored while a window runs (R520, R521). -/
def State.startWindow (s : State) (p : Nat) : State :=
  let st := (s.reg (timerStat p)).toNat
  if !bit (s.reg (timerCtrl p)).toNat 0 then s
  else if bit st 3 then s.orReg (timerStat p) 4
  else if bit st 0 then s
  else s.setFld (timerStat p) 1 0 1

/-- The later of a mark that may be none and a mark. -/
def maxMark (a : Option Mark) (b : Mark) : Option Mark := if markGeO a b then a else some b

/-- The core's arrived mark advances to m, and never back; with ON_MARK it starts a window when it reaches the start mark (R36, R520). -/
def State.markArrived (s : State) (p : Nat) (m : Mark) : State :=
  let old := (s.core p).arrM
  let s := s.onCore p (fun c => { c with arrM := maxMark c.arrM m })
  let ctl := (s.reg (timerCtrl p)).toNat
  let start : Mark := (s.crossingNo (bits ctl 8 8), (s.reg (coreReg p 5 0x84)).toNat)
  if bit ctl 0 && bit ctl 7 && decide (m.1 = start.1) && !markGeO old start && markGe m start then s.startWindow p else s

/-- Claims the timer for health sampling: a running window is cut (R521). -/
def State.claimTimer (s : State) (p : Nat) : State :=
  let st := (s.reg (timerStat p)).toNat
  let s := if bit st 0 then (s.setFld (timerStat p) 0 0 0).orReg (timerStat p) 4 else s
  s.orReg (timerStat p) 8

end Sys2Proof.Machine
end

