-- ==== Sys2Proof/Machine/Girts.lean ====
section
/-! DEFINITION. Forward girts: plank orders, buffer credit, requests, the grain turner, plank issue, taps, confirmation, denial and
rollback (R22, R26 to R40, R79 to R83, R246 to R251, R324, R332 to R340, R347, R372, R378, R379, R414 to R430). -/

namespace Sys2Proof.Machine

/-! ## Plank orders -/

/-- The order of a landing for a role (Table 2.11). -/
def State.orderOf (s : State) (l role : Nat) : Order := match s.job.loaded with
  | none => {}
  | some m => SMap.get {} m.orders (2 * l + role)

/-- An entry as the serving landing issues it, with the halves it addresses at the landing's end and across the midline (R340). -/
structure MEnt where
  e : Entry
  near : Nat
  far : Nat
  deriving DecidableEq, Repr, Inhabited

/-- A landing's own entry; the midline-join flag addresses both halves of a row (R337). -/
def ownEnt (e : Entry) : MEnt := ⟨e, e.halves, if bit e.flags 2 then e.halves else 0⟩
/-- An entry of the stopped paired landing, issued with COPY_NEAR 0 (R340). -/
def farEnt (e : Entry) : MEnt := ⟨e, 0, e.halves⟩

/-- The union of two orders in ascending plank number; an entry in both is issued once (R340). -/
def mergeEnts : Nat → List MEnt → List MEnt → List MEnt
  | 0, as, bs => as ++ bs
  | _, [], bs => bs
  | _, as, [] => as
  | n + 1, a :: as, b :: bs =>
    if a.e.plank < b.e.plank then a :: mergeEnts n as (b :: bs)
    else if b.e.plank < a.e.plank then b :: mergeEnts n (a :: as) bs
    else ⟨a.e, a.near ||| b.near, a.far ||| b.far⟩ :: mergeEnts n as bs

/-- What a landing has to issue in a crossing of a role: its own order, or the union with its stopped pair's (R22, R340). -/
def State.union (s : State) (l role : Nat) : List MEnt :=
  let own := (s.orderOf l role).entries.map ownEnt
  if (s.land l).takes then
    let o := (s.orderOf (pairOf l) role).entries.map farEnt
    mergeEnts (own.length + o.length) own o
  else own

/-- The join mode of row r that the orders ask for: 0 split, 1 joined west, 2 joined east (R22, R337). -/
def State.joinPlan (s : State) (r role : Nat) : Nat :=
  let j := fun l => (s.land l).takes || (s.union l role).any (fun m => bit m.far (r % 12))
  if j (r / 12) then 1 else if j (4 + r / 12) then 2 else 0

/-- The join mode of row r for a role: in that role's crossing the mode in force (R337). -/
def State.joinOf (s : State) (r role : Nat) : Nat :=
  if s.job.crossing = some role then SMap.get 0 s.joins r else s.joinPlan r role

/-- What a landing issues in a crossing of a role; only in a row joined toward it can an entry address the far half (Table 13.2). -/
def State.merged (s : State) (l role : Nat) : List MEnt :=
  let es := s.union l role
  if es.all (fun m => m.far == 0) then es
  else
    let rows := (List.range 12).foldl (fun n i =>
      if s.joinOf (landingHalf l i % 48) role = (if l < 4 then 1 else 2) then n + 2 ^ i else n) 0
    es.map (fun m => { m with far := m.far &&& rows })

/-- The halves that near and far masks of landing l address. -/
def maskHalves (l near far : Nat) : List Nat :=
  ((List.range 12).filter (bit near)).map (landingHalf l) ++ ((List.range 12).filter (bit far)).map (landingHalf (pairOf l))

/-- The planks on the girts of half h in issue order. -/
def State.halfFlights (s : State) (h : Nat) : List (Nat × Flight) :=
  (s.flights.zipIdx.map (fun e => (e.2, e.1))).filter (fun e => (maskHalves e.2.landing e.2.near e.2.far).contains h)

/-! ## Buffer credit (R335) -/

/-- The participating cores of a half as landing l knows them: it drops a core at its FENCE_NOTICE (R335, Table 17.4). -/
def State.parts (s : State) (l h : Nat) : List Nat :=
  (halfCores h).filter (fun p => (s.core p).part && !(s.land l).fencedHere.contains p)

/-- A core's release count; a double sister's is the smaller of its roles' (R440). -/
def Core.releases (c : Core) : Nat := match c.stored with
  | some x => min c.relCount x.relCount
  | none => c.relCount

/-- Raises a core's release count by 1 for every role it carries. -/
def Core.addRelease (c : Core) : Core :=
  { c with relCount := c.relCount + 1, stored := c.stored.map (fun x => { x with relCount := x.relCount + 1 }) }

/-- C_h of a half as its serving landing holds it; none for a half without participants (R335). -/
def State.creditOf (s : State) (l h : Nat) : Option Int :=
  let x := s.land l
  match s.parts l h with
  | [] => none
  | p :: ps =>
    let r := ps.foldl (fun m q => min m (SMap.get 0 x.relSeen q)) (SMap.get 0 x.relSeen p)
    some (((SMap.get 0 x.shSlots h + r : Nat) : Int) - ((SMap.get 0 x.ihCount h : Nat) : Int))

/-- Whether half h holds a buffer credit. -/
def State.hasCredit (s : State) (l h : Nat) : Bool := match s.creditOf l h with
  | none => true
  | some c => decide (0 < c)

/-! ## Requests (R372) -/

/-- Bytes of a plank's scale area (R375). -/
def scaleArea (fmt : Nat) : Nat := if fmt = 0 then 0 else if fmt = 5 then 4096 else 2048
/-- Objects of a turn group (Table 9.3). -/
def turnG (fmt : Nat) : Nat := if fmt = 0 then 2 else if fmt = 5 then 8 else 4
/-- Columns of a plank format (Table 2.12). -/
def plankCols (fmt : Nat) : Nat := if fmt = 0 then 256 else if fmt = 5 then 1024 else 512
/-- The element format code of Table 7.5 for a plank format code of Table 2.12. -/
def plankElem (fmt : Nat) : Nat := if fmt = 0 then 1 else fmt + 5

/-- Whether an entry's plank comes from the partner: a store plank; or a resident plank whose stack is gone, or which an uncommitted
attempt has overwritten (R27 to R30, R372). -/
def State.fromStore (s : State) (e : Entry) : Bool :=
  decide (e.variant = 0) &&
  (decide (e.source = 0) || s.job.overwritten.contains e.object || s.job.lostPlanks.contains e.object || !s.stackOk e.stackAddr (65536 + scaleArea e.fmt))

/-- The turn run that holds entry i: its first index and its length; a with-grain entry is a run of one (R247). -/
def runAt : Nat → List MEnt → Nat → Nat → Nat × Nat
  | 0, _, i, _ => (i, 1)
  | _, [], i, _ => (i, 1)
  | n + 1, e :: es, i, pos =>
    let g := if e.e.grain = 1 then turnG e.e.fmt else 1
    if i < pos + g then (pos, g) else runAt n ((e :: es).drop g) i (pos + g)

/-- A request record (Table 14.6). -/
def reqRecord (object version role kind tensors : Nat) : Nat :=
  object % 2 ^ 32 + 2 ^ 32 * (version % 65536) + 2 ^ 48 * role + 2 ^ 49 * kind + 2 ^ 52 * tensors

/-- A CREDIT frame: 32 increments and up to 16 request records (Table 14.5). -/
def creditFrame (incs recs : List Nat) : Frame :=
  let inc := (List.range 32).flatMap (fun i => leBytes 4 (incs.getD i 0))
  let rec' := (List.range 16).flatMap (fun i => leBytes 8 (recs.getD i 0))
  frame 5 4 recs.length (inc ++ rec')

/-- The version a landing expects: PLANK_VERSION.EXPECTED (R258, Table 9.8). -/
def State.landV (s : State) (l : Nat) : Nat := s.fld (landReg l 0x404) 15 0

/-- Whether the grain turner has a group buffer for the source of entry i: the entry turns no group, its group holds a buffer, or one of
the two is free (R251). -/
def groupRoom (es : List MEnt) (x : Landing) (i : Nat) : Bool :=
  let turns := fun k => decide (((es[k]?).map (fun q => q.e.grain)).getD 0 = 1)
  let run := fun k => (runAt (k + 1) es k 0).1
  let groups := (x.planks.filter (fun b => turns b.idx)).map (fun b => run b.idx)
  !turns i || groups.contains (run i) || decide (groups.eraseDups.length < 2)

/-- The next entries a landing may request, at most fuel of them: the requests not yet issued stay within PLANK_AHEAD, and no further
turn source is requested while both group buffers are occupied (R251, R372). -/
def State.newRequests (s : State) (l role : Nat) (es : List MEnt) : Nat → Landing → Landing × List Nat
  | 0, x => (x, [])
  | n + 1, x =>
    match es[x.reqIdx]? with
    | none => (x, [])
    | some m =>
      let skip := State.newRequests s l role es n { x with reqIdx := x.reqIdx + 1 }
      if !s.fromStore m.e then skip
      else if s.fld (landReg l 0) 6 1 ≤ (x.planks.filter (fun b => !b.issued && !b.stack)).length then (x, [])
      else if !groupRoom es x x.reqIdx then (x, [])
      else
        let b : PlankBuf := { role := role, idx := x.reqIdx, object := m.e.object }
        let r := State.newRequests s l role es n { x with planks := x.planks ++ [b], reqIdx := x.reqIdx + 1 }
        (r.1, reqRecord m.e.object (s.landV l) role 0 0 :: r.2)

/-- Requests what may be requested now, in CREDIT frames of at most 16 records. -/
def State.fillRequests (s : State) (l : Nat) : State :=
  match s.job.crossing with
  | none => s
  | some role =>
    let es := s.merged l role
    let r := s.newRequests l role es (es.length + 1) (s.land l)
    let s := s.setLand l r.1
    forAll (chunks 16 (r.2.length + 1) r.2) (fun k s => s.pushFrame l (creditFrame [] k)) s

/-! ## The grain turner (R246 to R251) -/

/-- Element code i of column c of a plank image in a buffer's data. -/
def plankEl (d : Mem) (fmt c r : Nat) : Nat :=
  let w := fmtBits (plankElem fmt)
  let b := (c * 128 + r) * w
  bits (Mem.readNat d (b / 8) 2) (b % 8 + w - 1) (b % 8)

/-- Address of the scale of block q of column c in the side fields (Table 14.7), side fields from 65536. -/
def plankScaleAt (fmt c q : Nat) : Nat :=
  let per := if fmt = 5 then 4 else 2
  65536 + 16 * (c / per) + 4 * (c % per) + q

/-- A re-blocked element: its code in the element type, whether it changed, and whether it is NaN (R249, R250). -/
def turnEl (fmt code src S : Nat) : Nat × Bool × Bool :=
  let ef := plankElem fmt
  let f := fmtOf ef
  let num := if ef = 8 ∨ ef = 9 then f.decode (code % 64) else f.decode code
  if src = 255 then (0, false, true)
  else
    match num with
    | .nan => (0, false, true)
    | .inf neg => (f.infCode neg, false, false)
    | .fin neg m e =>
      let r := if m = 0 then f.signCode neg else (roundFin f .rne neg m (e + (src : Int) - S)).1
      let back := if m = 0 then num else (f.decode r).scale ((S : Int) - src)
      (r, cmpNum num back != .eq, false)

/-- One block of 32 elements of a cross-grain column: codes, scale, whether inexact, whether it holds NaN. -/
def turnBlock (fmt : Nat) (els : List (Nat × Nat)) : List Nat × Nat × Bool × Bool :=
  let good := (els.map (fun e => e.2)).filter (fun x => x != 255)
  let S := if good.isEmpty then 127 else good.foldl max 0
  let r := els.map (fun e => turnEl fmt e.1 e.2 S)
  let nan := r.any (fun e => e.2.2)
  let inex := r.any (fun e => e.2.1)
  if nan && (fmt == 3 || fmt == 4 || fmt == 5) then (els.map (fun _ => 0), 255, inex, true)
  else (r.map (fun e => if e.2.2 then (if fmt = 1 then 0x7F else 0x7E) else e.1), S, inex, nan)

/-- Cross-grain plank q of the group whose source images are srcs: its image, inexact blocks and NaN blocks (R248 to R250). -/
def turnPlank (fmt q : Nat) (srcs : List Mem) : Mem × Nat × Nat :=
  let C := plankCols fmt
  let src := fun j => srcs.getD (j / 128) []
  let w := fmtBits (plankElem fmt)
  if fmt = 0 then
    let els := (List.range C).flatMap (fun j => (List.range 128).map (fun i => plankEl (src j) 0 (128 * q + i) (j % 128)))
    (Mem.write [] 0 (els.flatMap (leBytes 2)), 0, 0)
  else
    (List.range C).foldl (fun r j =>
      let blocks := (List.range 4).map (fun b => turnBlock fmt ((List.range 32).map (fun k =>
        let c := 128 * q + 32 * b + k
        (plankEl (src j) fmt c (j % 128), (Mem.byte (src j) (plankScaleAt fmt c (j % 128 / 32))).toNat))))
      let col := leBytes (16 * w) (unlanes w (blocks.flatMap (fun b => b.1)))
      let m := Mem.write r.1 (16 * w * j) col
      let m := blocks.zipIdx.foldl (fun m e => Mem.write m (plankScaleAt fmt j e.2) (leBytes 1 e.1.2.1)) m
      (m, r.2.1 + (blocks.filter (fun b => b.2.2.1)).length, r.2.2 + (blocks.filter (fun b => b.2.2.2)).length)) ([], 0, 0)

/-! ## Issue (R26, R42, R333, R335, R378, R379) -/

/-- The last plank number of a crossing (R34). -/
def State.planksOf (s : State) (role : Nat) : Nat := match s.job.loaded with
  | none => 0
  | some m => if role = 0 then m.man.fwdPlanks else m.man.bwdPlanks

/-- A landing's issue position: one less than its next unissued plank, or P − 1 with its list exhausted (R39). -/
def State.issuePos (s : State) (l role : Nat) : Nat :=
  match (s.merged l role)[(s.land l).issueIdx]? with
  | some m => (m.e.plank + 2 ^ 32 - 1) % 2 ^ 32
  | none => (s.planksOf role + 2 ^ 32 - 1) % 2 ^ 32

/-- Sends a mark tick with the landing's issue position to both root hubs (R39, Table 13.9). -/
def State.markTick (s : State) (l role : Nat) : State :=
  { s with sn := s.sn ++ [{ typ := 1, head := l, a := role, b := s.issuePos l role }] }

/-- Whether a HOLD of VC vc stays while its cause lasts: the host ordered it, or VC0 to VC3 are held for a job that does not run, or that is
about to replay; VC3 carries a restore (R387, R491, Table 17.10). -/
def State.holdStays (s : State) (l vc : Nat) : Bool :=
  bit (s.land l).hostHold.toNat vc ||
  (decide (vc < 4) && (decide (3 ≤ s.job.st) || decide (s.job.need ≠ 0) || (s.job.restoring.isSome && decide (vc ≠ 3))))

/-- Progress on a VC: a HOLD that the landing sent for it ends, unless it stays (R387). -/
def State.progress (s : State) (l vc : Nat) : State :=
  let m := (s.reg (landReg l 8)).toNat
  if bit m vc && !s.holdStays l vc then s.sendHold l (m - 2 ^ vc) 0 0 else s

/-- Whether a plank of landing l is the next entry of half h's girt schedule, of which the merged order may leave entries out (R347). -/
def State.schedMatch (s : State) (l h role plank variant : Nat) : Bool := match s.job.loaded with
  | none => true
  | some m => match SMap.get none m.scheds h with
    | none => true
    | some sc =>
      let n := ((s.halfFlights h).map (fun e => e.2.plank)).eraseDups.length
      let sent := (s.merged l role).filter (fun m => (maskHalves l m.near m.far).contains h)
      let tab := (if role = 0 then sc.fwd else sc.bwd).filter (fun e => !(s.land l).takes || sent.any (fun m => m.e.plank == e.1))
      (tab[n]?).map (fun e => (e.1, e.2.2)) == some (plank, variant)

/-- The tap sequencer of a half compares a plank of landing l with its schedule; a mismatch is a fault of the landing, which stops working
(R347, R443). -/
def State.schedCheck (s : State) (l h role plank variant : Nat) : State :=
  if s.schedMatch l h role plank variant then s
  else (s.orReg (landReg (halfLanding h) (0x800 + 4 * (h % 48 % 12))) 0x2000).onLand l (fun x => { x with faulted := true })

/-- The tag word of Table 13.2: TYPE ty of a plank of a role, with COPY_NEAR and COPY_FAR. -/
def tagWord (ty role plank variant fmt : Nat) (lastUse grain near far green : Bool) : W64 :=
  let b := fun (x : Bool) (i : Nat) => if x then 2 ^ i else 0
  BitVec.ofNat 64 (ty + 4 * role + 8 * (plank % 2 ^ 32) + 2 ^ 35 * (variant % 256) + 2 ^ 43 * (fmt % 8) + b lastUse 46 + b grain 47 + b near 48 +
    b far 49 + b green 50)

/-- The PLANK_START word (ty 0), CONFIRM (1) or DENY (2) of a plank on the girt of half h (R334). -/
def Flight.tag (f : Flight) (h ty : Nat) : W64 :=
  let row := h % 48 % 12
  tagWord ty f.role f.plank f.variant f.fmt f.lastUse f.grain (bit f.near row) (bit f.far row) f.green

/-- Puts a plank on the addressed girts: each addressed half's count of issued planks rises (R335, R336). -/
def State.putFlight (s : State) (l : Nat) (m : MEnt) (green : Bool) (avail : Nat) (data : Mem) : State :=
  let e := m.e
  let hs := maskHalves l m.near m.far
  let f : Flight := { landing := l, role := e.role, plank := e.plank, fmt := e.fmt, variant := e.variant, lastUse := bit e.flags 1, grain := decide (e.grain = 1),
                      near := m.near, far := m.far, green := green, avail := avail, data := data }
  let s := s.onLand l (fun x => { x with ihCount := hs.foldl (fun c h => SMap.set 0 c h (SMap.get 0 c h + 1)) x.ihCount })
  { s with flights := s.flights ++ [f] }

/-- After the issue of entry i for the first time: position, tick, slip of the last entry, requests (R39, R44, R261). Of two equal slips the
later issue is named, and an issue ahead of its offset has slip 0 (DESIGN CHOICE, log entry 41). -/
def State.afterIssue (s : State) (l role i : Nat) (e : Entry) : State :=
  let s := s.onLand l (fun x => { x with issueIdx := i + 1 })
  let s := (s.markTick l role).progress l 0
  let s :=
    if (s.merged l role).length ≤ i + 1 then
      let slip := s.time - s.job.crossStart - e.offset / 11
      let s := if s.job.slipMax ≤ slip then s.onJob (fun j => { j with slipMax := slip, slipLanding := l }) else s
      s.onJob (fun j => { j with crossDone := insNat j.crossDone l, bwdIssued := if role = 1 then insNat j.bwdIssued l else j.bwdIssued })
    else s
  s.fillRequests l

/-- Whether a landing may issue: it works and has started the crossing, its partner is not changed, the job runs (R42, R388). -/
def State.mayIssuePlank (s : State) (l : Nat) : Bool :=
  s.landWorks l && (s.land l).started && !(s.land l).halted && decide (2 ≤ s.job.st ∧ s.job.st ≤ 3) && !s.job.aborted

/-- Green planks of half h as core p has them: those whose verdict has not reached its slot, and those on the girt that it has yet to
meet (R378, R418). -/
def State.greenDue (s : State) (p h : Nat) : Nat :=
  let c := s.core p
  let met := c.seen + (if c.passing.isSome then 1 else 0)
  ((List.range 8).filter (fun k => (c.slot k).used && (c.slot k).green)).length + (((s.halfFlights h).drop met).filter (fun f => f.2.green)).length

/-- Whether landing l may issue a plank green now: cut-through, a store plank with frame 0 checked, fewer than two unconfirmed green
planks and no double sister in any addressed half (R378, R418, R440). -/
def State.mayGreen (s : State) (l : Nat) (m : MEnt) (b : PlankBuf) : Bool :=
  bit (s.reg (landReg l 0)).toNat 0 && s.fromStore m.e && decide (m.e.grain = 0) && decide (1 ≤ b.frames) && !b.bad &&
  (maskHalves l m.near m.far).all (fun h =>
    decide (((s.halfFlights h).filter (fun f => f.2.green && f.2.verdict.isNone)).length < 2) &&
    (s.parts l h).all (fun p => decide (s.greenDue p h < 2)) &&
    !bit (s.reg (landReg (halfLanding h) 0x710)).toNat (h % 48 % 12))

/-- The verdict on the last issue of a plank by a landing. -/
def State.lastFlight (s : State) (l plank : Nat) : Option Flight :=
  (s.flights.filter (fun f => f.landing == l && f.plank == plank)).getLast?

/-- The landing issues: a denied plank again once it is complete, else its next plank once it is available (R26, R378, R379). -/
def plankIssue (l : Nat) (s : State) : State :=
  match s.job.crossing with
  | none => s
  | some role =>
    let x := s.land l
    let es := s.merged l role
    let denied := x.planks.find? (fun b => b.issued && b.role == role && match es[b.idx]? with
      | some m => decide (m.e.grain = 0) && (match s.lastFlight l m.e.plank with
        | some f => f.verdict == some false
        | none => false)
      | none => false)
    if !s.mayIssuePlank l then s
    else match denied with
      | some b =>
        match es[b.idx]? with
        | some m =>
          if b.full && (maskHalves l m.near m.far).all (s.hasCredit l) then
            (s.putFlight l m false 256 b.data).onLand l (fun x => { x with planks := x.planks.filter (fun y => y != b) })
          else s
        | none => s
      | none =>
        match es[x.issueIdx]?, x.planks.find? (fun b => b.idx == x.issueIdx && b.role == role) with
        | some m, some b =>
          let hs := maskHalves l m.near m.far
          if !hs.all (s.hasCredit l) then s
          else
            let chk := fun (s : State) => forAll hs (fun h s => s.schedCheck l h role m.e.plank m.e.variant) s
            if m.e.grain = 1 then
              let run := runAt (x.issueIdx + 1) es x.issueIdx 0
              let srcs := (List.range run.2).filterMap (fun k => x.planks.find? (fun b => b.idx == run.1 + k && b.role == role && b.full))
              if srcs.length < run.2 then s
              else
                let q := x.issueIdx - run.1
                let t := turnPlank m.e.fmt q (srcs.map (fun b => b.data))
                let s := ((chk s).bump (landReg l 0x400) 15 0 t.2.1).bump (landReg l 0x400) 23 16 t.2.2
                let s := s.putFlight l m false 256 t.1
                let keep := if q + 1 = run.2 then x.planks.filter (fun y => !(y.role == role && decide (run.1 ≤ y.idx ∧ y.idx < run.1 + run.2)))
                  else x.planks.map (fun y => if y == b then { y with issued := true } else y)
                let s := s.onLand l (fun x => { x with planks := keep })
                s.afterIssue l role x.issueIdx m.e
            else if b.full then
              let s := ((chk s).putFlight l m false 256 b.data).onLand l (fun x => { x with planks := x.planks.filter (fun y => y != b) })
              s.afterIssue l role x.issueIdx m.e
            else if s.mayGreen l m b then
              let s := ((chk s).putFlight l m true b.frames b.data).onLand l (fun x =>
                { x with planks := x.planks.map (fun y => if y == b then { y with issued := true } else y) })
              s.afterIssue l role x.issueIdx m.e
            else s
        | _, _ => s

/-- A landing event: nothing happens at a landing that is absent or whose bay is dark. -/
def landEvent (l : Nat) (f : State → State) (s : State) : Res :=
  if 8 ≤ l then .refused .noSuchUnit
  else if (s.land l).present && s.bayUp (landingBay l) then .next (f s) else .next s

/-- The verdict on a green plank of a landing: CONFIRM, or zero beats from the first missing frame and DENY (R379). -/
def State.judge (s : State) (l plank : Nat) (ok : Bool) : State :=
  { s with flights := s.flights.map (fun f =>
      if f.landing == l && f.plank == plank && f.green && f.verdict.isNone then { f with verdict := some ok } else f) }

/-- A frame of a green plank has not arrived when its beat is due: the oldest unconfirmed green plank is denied (R379). -/
def State.denyOldest (s : State) (l : Nat) : State :=
  match s.flights.find? (fun f => f.landing == l && f.green && f.verdict.isNone) with
  | some f => s.judge l f.plank false
  | none => s

/-- GREEN_FRAME_LATE. -/
def execGreenFrameLate (l : Nat) (s : State) : Res := landEvent l (fun s => s.denyOldest l) s

/-- Side fields of a plank image in a stack: the scale area spread over the frames (R375, Table 14.7). -/
def spreadScales (fmt : Nat) (sc : List Byte) : Mem :=
  let per := if fmt = 5 then 16 else 8
  if fmt = 0 then [] else
    ((chunks per 257 sc).zipIdx).foldl (fun m e => Mem.write m (65536 + 16 * e.2) e.1) []

/-- Where a resident or variant plank lies: variants in copy V mod 2 (R28, R326). -/
def State.plankAt (s : State) (e : Entry) : Nat :=
  let cp := match s.job.loaded with
    | some m => (m.variants.find? (fun v => v.tag == e.variant && e.variant != 0)).map (fun v => v.copyLen) |>.getD 0
    | none => 0
  e.stackAddr + (if e.variant = 0 then 0 else (s.job.version % 2) * cp)

/-- The image of a resident or variant plank (R28, R326). -/
def State.stackPlank (s : State) (e : Entry) : Mem :=
  let a := s.plankAt e
  Mem.write [] 0 (Mem.read s.stack a 65536) ++ spreadScales e.fmt (Mem.read s.stack (a + 65536) (scaleArea e.fmt))

/-- The stack-sourced entry of a role's plank, from any landing's order. -/
def State.stackEntry (s : State) (role plank : Nat) : Option Entry :=
  (List.range 8).findSome? (fun l => ((s.merged l role).find? (fun m => m.e.plank == plank && !s.fromStore m.e)).map (fun m => m.e))

/-- A stack-sourced plank is read once and reaches every landing whose order names it (R28, R326). -/
def State.givePlank (s : State) (role plank : Nat) : State :=
  if s.job.crossing ≠ some role then s
  else
    let s := match s.stackEntry role plank with
      | some e => (s.hubCount 0 (s.plankAt e) 65536).hubCount 0 (s.plankAt e + 65536) (scaleArea e.fmt)
      | none => s
    upTo 8 (fun l s =>
    let x := s.land l
    let es := s.merged l role
    match es.findIdx? (fun m => m.e.plank == plank && !s.fromStore m.e) with
    | none => s
    | some i =>
      if i < x.issueIdx ∨ x.planks.any (fun b => b.idx == i && b.role == role) ∨ !s.landWorks l ∨ !groupRoom es x i then s
      else match es[i]? with
        | none => s
        | some m =>
          let b : PlankBuf := { role := role, idx := i, object := m.e.object, frames := 256, data := s.stackPlank m.e, full := true, version := s.job.version,
                                stack := true }
          s.onLand l (fun x => { x with planks := x.planks ++ [b] })) s

/-- STACK_PLANK_READ: the read waits at the hub while that holds accesses (R403, R412). -/
def stackPlankRead (role plank : Nat) (s : State) : State :=
  match s.stackEntry role plank with
  | none => s
  | some e =>
    let b := e.stackAddr / 2 ^ 36
    if !s.hubHolds b then s.givePlank role plank
    else if (s.bay b).q.any (fun r => r.kind == 4 && r.core == role && r.spad == plank) then s
    else s.hubQueue b { core := role, wr := false, addr := e.stackAddr, spad := plank, data := [], kind := 4 }

/-- STACK_PLANK_READ. -/
def execStackPlankRead (role plank : Nat) (s : State) : Res := .next (stackPlankRead role plank s)

/-- A change of a core's release count reaches its serving landing (R335, R336). -/
def releaseCountUpdate (l half p count : Nat) (s : State) : State :=
  if coreHalf p = half ∧ count ≤ (s.core p).releases then
    s.onLand l (fun x => { x with relSeen := SMap.set 0 x.relSeen p (max count (SMap.get 0 x.relSeen p)) })
  else s

/-- RELEASE_COUNT_UPDATE. -/
def execReleaseCountUpdate (l half p count : Nat) (s : State) : Res :=
  if 2880 ≤ p ∨ 96 ≤ half then .refused .noSuchUnit else landEvent l (releaseCountUpdate l half p count) s

/-! ## Taps -/

/-- Whether a core holds a variant tag (Table 12.5). -/
def State.holdsTag (s : State) (p tag : Nat) : Bool :=
  let r := (s.reg (coreReg p 0 0x60)).toNat
  decide (tag = 0) || decide (bits r 7 0 = tag) || (bit r 16 && decide (bits r 15 8 = tag))

/-- Slot markers of a passing plank that is not copied: 255 excluded by its variant (R324), 254 otherwise. -/
def passSkip : Nat := 255
def passNone : Nat := 254

/-- A PLANK_START word reaches a tap: the next plank of the half's girt (R81, R324, R334, R414, R428). -/
def plankStart (p pl : Nat) (s : State) : State :=
  let c := s.core p
  match c.passing, (s.halfFlights (coreHalf p))[c.seen]? with
  | none, some (i, f) =>
    if f.plank ≠ pl then s
    else if !c.part ∨ c.noCopy then s.setCore p { c with passing := some (i, 0, passNone) }
    else if !s.holdsTag p f.variant then s.setCore p { c with passing := some (i, 0, passSkip) }
    else
      let kept := (List.range 8).find? (fun k => (c.slot k).denied && (c.slot k).plank == pl && (c.slot k).role == f.role)
      let k := kept.getD (c.nextFill % max 1 c.tapSlots)
      if kept.isNone ∧ (c.slot k).used then
        (s.setCore p { c with noCopy := true, passing := some (i, 0, passNone) }).orReg (coreReg p 7 4) 0x1000
      else
        let c := c.setSlot k { used := true, role := f.role, plank := pl, fmt := f.fmt, green := f.green }
        s.setCore p { c with
          nextFill := (if kept.isNone then c.nextFill + 1 else c.nextFill), passing := some (i, 0, k),
          openSrc := (if f.green then c.openSrc ||| BitVec.ofNat 12 (2 ^ k) else c.openSrc) }
  | _, _ => s

/-- PLANK_START. -/
def execPlankStart (p pl : Nat) (s : State) : Res := coreEvent p (plankStart p pl) s


/-- The last beat of a plank has entered the tap: the arrived mark advances, the seasoned mark with it when the plank is seasoned, and
a plank that the core skips under R324 counts as a release (R36, R82, R335). -/
def State.lastBeat (s : State) (p k : Nat) (f : Flight) : State :=
  let s := s.onCore p (fun c => { c with passing := none, seen := c.seen + 1 })
  let m : Mark := (s.crossingNo f.role, f.plank)
  if k = passSkip then s.onCore p Core.addRelease
  else if k = passNone then s
  else
    let s := s.markArrived p m
    if ((s.core p).slot k).green then s else s.onCore p (fun c => { c with seaM := maxMark c.seaM m })

/-- Beat b of the passing plank enters the tap buffer, its side field with the line of the last of 4 frames (R79); a green plank's
beat whose frame has not arrived is zero once the landing has denied the plank (R379). -/
def forwardBeat (p pl b : Nat) (s : State) : State :=
  let c := s.core p
  match c.passing with
  | none => s
  | some (i, n, k) =>
    match s.flights[i]? with
    | none => s
    | some f =>
      if f.plank ≠ pl ∨ n ≠ b ∨ (f.avail ≤ b ∧ f.verdict = none) then s
      else
        let el := if b < f.avail then Mem.read f.data (256 * b) 256 else List.replicate 256 0
        let sd := (List.range 4).flatMap (fun i =>
          let n := b / 4 * 4 + i
          if n < f.avail then Mem.read f.data (65536 + 16 * n) 16 else List.replicate 16 0)
        let s :=
          if k < 8 then
            let a := c.tapBase + k * slotBytes
            let m := Mem.write c.spad (a + 256 * b) el
            let c := { c with spad := if b % 4 = 3 then Mem.write m (a + 65536 + 64 * (b / 4)) sd else m }
            ((s.setCore p (c.setSlot k { c.slot k with beats := b + 1 })).tally p 0xF 1).bwCount (coreReg p 5 0xC0) 0 none 272
          else s
        let s := s.onCore p (fun c => { c with passing := some (i, b + 1, k) })
        if b = 255 then s.lastBeat p k f else s

/-- FORWARD_BEAT. -/
def execForwardBeat (p pl b : Nat) (s : State) : Res := coreEvent p (forwardBeat p pl b) s

/-- The slot in which a core holds plank pl green, when the landing's verdict on the plank is v. -/
def State.judged (s : State) (p pl : Nat) (v : Bool) : Option Nat :=
  let c := s.core p
  if (s.halfFlights (coreHalf p)).any (fun e => e.2.plank == pl && e.2.green && e.2.verdict == some v) then
    (List.range 8).find? (fun k => (c.slot k).green && (c.slot k).plank == pl)
  else none

/-- A CONFIRM word reaches the tap: the source closes seasoned, and the seasoned mark advances unless the tap has overrun in the crossing
(R81, R82, R416). -/
def confirm (p pl : Nat) (s : State) : State :=
  match s.judged p pl true with
  | none => s
  | some k => s.onCore p (fun c =>
      let t := c.slot k
      let c := (c.setSlot k { t with green := false }).clearSrc (BitVec.ofNat 12 (2 ^ k))
      if t.beats = 256 ∧ !c.noCopy then { c with seaM := maxMark c.seaM (s.crossingNo t.role, pl) } else c) |>.releaseGreen p

/-- CONFIRM. -/
def execConfirm (p pl : Nat) (s : State) : Res := coreEvent p (confirm p pl) s

/-- A DENY word reaches the tap (Table 16.2, order 1): the slot is unfilled and kept for the reissue, the release count rises, and the
core rolls back to the point it holds; without a point nothing of it is green (R419). -/
def deny (p pl : Nat) (s : State) : State :=
  match s.judged p pl false with
  | none => s
  | some k =>
    let s := s.onCore p (fun c =>
      let t := c.slot k
      let c := (c.setSlot k { t with green := false, denied := true, beats := 0 }).addRelease
      { c with openSrc := c.openSrc &&& ~~~(BitVec.ofNat 12 (2 ^ k)),
               passing := (match c.passing with
                 | some (i, n, j) => some (i, n, if j = k then passNone else j)
                 | none => none) })
    if (s.core p).rolling ∨ (s.core p).point.isNone then s else s.startRollback p

/-- DENY. -/
def execDeny (p pl : Nat) (s : State) : Res := coreEvent p (deny p pl) s

/-- Whether a rolling-back core has come to rest: streams wait, pending operations do not start, everything else has completed, and every
export since the point has returned (Table 16.2, orders 2 and 3). -/
def Core.rolledOut (c : Core) : Bool :=
  (match c.mulX with
   | some o => decide (o.kind = 2 ∨ o.kind = 3)
   | none => true) && c.epiX.isNone && (c.dtX.isNone || c.placing) && c.vpipe.isEmpty && c.scq.isEmpty && c.xfers.isEmpty &&
  c.exports.all (fun e => e.pt != c.ptSeq)

/-- Writes the log back in reverse order (Table 16.2, order 4): each line takes the bytes its entry holds in the log area. -/
def Core.undo (c : Core) (q : Point) (sill : Bool) : Mem :=
  q.log.foldr (fun e m => if e.sill == sill then Mem.write m e.addr (Mem.read c.spad e.at_ 64) else m) (if sill then c.sill else c.spad)

/-- Clears every mask but those of the tap slots whose planks remain open (Table 16.2, order 6). -/
def Core.unmask (c : Core) : Core :=
  let c := c.clearSrc 0xFFF
  { c with preds := [none, none, none, none], greenEv := [] }

/-- Which operations issued since the point are suppressed after a rollback: all but the last n TRELs, which it cancels (R429). -/
def supList (ops : List Bool) (n : Nat) : List Bool :=
  (ops.foldr (fun trel r => if trel && decide (0 < r.2) then (false :: r.1, r.2 - 1) else (true :: r.1, r.2)) (([], n) : List Bool × Nat)).1

/-- Restores the memories, registers and loop state of the point, repeats the last load, clears the masks, and lets the operations issued
before the point go on (Table 16.2, orders 2 to 7, R429, R430). A TREL issued before the point stays issued. -/
def Core.rollTo (c : Core) (q : Point) : Core :=
  let since := fun (pt : Nat) => pt == c.ptSeq
  let kept := max c.relDone q.rel
  let cancelled := c.relIssued - kept
  let src := c.openSrc &&& 0xFF
  let c := { c with mulX := c.mulX.filter (fun o => !since o.pt), dtX := c.dtX.filter (fun o => !since o.pt), dq := [],
                    spad := c.undo q false, sill := c.undo q true, v := q.v, s := q.s, x := q.x, loops := q.loops,
                    strides := q.strides, seg := q.seg, segRole := q.segRole, lastLoad := q.lastLoad,
                    lastFmt := q.lastLoad.map (fun (o : MulOp) => o.fmt), relIssued := kept,
                    fresh := q.regions.foldl (fun (l : List Nat) (e : Nat × W32 × Bool) => if e.2.2 then insNat l e.1 else l.filter (fun n => n != e.1)) c.fresh }
  let c := if q.loadAfter then { c with tile := q.lastLoad.map c.loadTile } else c
  let c := { c.unmask with openSrc := src, point := none, rolling := false, pcEnd := false, wait := .none,
                           suppress := supList c.cntSince cancelled ++ c.suppress, cntSince := [] }
  ((c.startMul).startEpi).startDt

/-- ROLLBACK: once the discarded work has come to rest the core resumes at its point's bundle (Table 16.2). -/
def rollback (p : Nat) (s : State) : State :=
  let c := s.core p
  match c.point with
  | none => s
  | some q =>
    if !c.rolling ∨ !c.rolledOut then s
    else
      let s := forAll q.regions (fun e s => s.setReg (regnReg p e.1) e.2.1) s
      let s := s.setCore p (c.rollTo q)
      (s.setPc p q.bundle).setFld (coreReg p 0 4) 16 13 0

/-- ROLLBACK. -/
def execRollback (p : Nat) (s : State) : Res := coreEvent p (rollback p) s

end Sys2Proof.Machine
end

