-- ==== Sys2Proof/Machine/Return.lean ====
section
/-! DEFINITION. Return girts, the landings' EXA arrays, the landing ring and the owner's rounding, ledger and export (R181, R252, R268 to R291, R341 to R345, R441, R554). -/

namespace Sys2Proof.Machine

/-! ## Lines -/

/-- The half at whose landing core p's return girt ends (R338, R340). -/
def State.lineHalf (s : State) (p : Nat) : Nat :=
  match s.joinOf (coreRow p) 1 with
  | 0 => coreHalf p
  | 1 => coreRow p
  | _ => 48 + coreRow p

/-- The taps of the return girt that ends at half h, from the landing outward; in a joined row they run on across the midline (R338). -/
def State.lineCores (s : State) (h : Nat) : List Nat :=
  if s.joinOf (h % 48) 1 = 0 then halfCores h
  else halfCores h ++ (halfCores (if h < 48 then h + 48 else h - 48)).reverse

/-- The entries whose objects return over the line of half h, in order: last use in the step, addressing the line (R181, R341). -/
def State.lineObjs (s : State) (h : Nat) : List MEnt :=
  (s.merged (halfLanding h) 1).filter (fun m => bit m.e.flags 1 && (bit m.near (h % 48 % 12) || bit m.far (h % 48 % 12)))

/-- Whether a core's half is addressed by an entry of its line's landing (R181). -/
def State.addressesEnt (s : State) (p : Nat) (m : MEnt) : Bool :=
  (maskHalves (halfLanding (s.lineHalf p)) m.near m.far).contains (coreHalf p)

/-- The entries that the SEXPs of a core's running role, or of its other role, bind to, in order (R181, R324). -/
def State.roleEnts (s : State) (p : Nat) (other : Bool) : List MEnt :=
  (s.lineObjs (s.lineHalf p)).filter (fun m =>
    s.addressesEnt p m && (decide (m.e.variant = 0) || decide (m.e.variant = s.roleTag p other)))

/-- The entries that the running role's SEXPs bind to. -/
def State.sexpEnts (s : State) (p : Nat) : List MEnt := s.roleEnts p false

/-- Whether an instruction store holds a SEXP; an empty one tells nothing, and counts as holding it (R343, log entry 41). -/
def holdsSexp (istore : Mem) : Bool :=
  istore.isEmpty || istore.any (fun c => c.1 % 32 == 7 && c.2.toNat / 4 == 7 && bit (Mem.byte istore (c.1 - 7)).toNat 0)

/-- Whether a role of core p has bound entry m, holds a SEXP that will bind it, or may still issue one (R181, R343). -/
def State.bindsRole (s : State) (p : Nat) (other : Bool) (bound : Nat) (es : List Export) (ended : Bool) (istore : Mem) (m : MEnt) : Bool :=
  match (s.roleEnts p other).findIdx? (fun x => x.e.plank == m.e.plank) with
  | none => false
  | some i => decide (i < bound + (es.filter (fun e => e.plank.isNone)).length) || (!ended && holdsSexp istore)

/-- Whether the running role of a core that takes part binds entry m. -/
def State.bindsOwn (s : State) (p : Nat) (m : MEnt) : Bool :=
  let c := s.core p
  c.part && s.coreUp p && s.bindsRole p false c.bound c.exports c.endHold c.istore m

/-- Whether the stored role of a double sister that takes part binds entry m. -/
def State.bindsOther (s : State) (p : Nat) (m : MEnt) : Bool :=
  let c := s.core p
  match c.stored with
  | none => false
  | some k => c.part && s.coreUp p && s.bindsRole p true k.bound k.exports k.endHold k.istore m

/-- Whether a core adds a partial for entry m: it takes part, and a SEXP of one of its roles is bound to it or may still come (R343). -/
def State.gives (s : State) (p : Nat) (m : MEnt) : Bool := s.bindsOwn p m || s.bindsOther p m

/-- The regions of an object's export (R181). -/
def exportRegions (fmt : Nat) : Nat := if fmt = 0 then 4 else if fmt = 5 then 16 else 8

/-! ## Band fill (R342) -/

/-- Beats of a band: one per column (R342). -/
def bandBeats (fmt : Nat) : Nat := plankCols fmt

/-- The format of a bound export's plank. -/
def State.exportFmt (s : State) (p : Nat) (e : Export) : Nat :=
  ((s.sexpEnts p).find? (fun m => e.plank == some m.e.plank)).map (fun m => m.e.fmt) |>.getD 0

/-- Band buffers a core's return tap has in use, of two. -/
def State.bandsHeld (s : State) (p : Nat) : Nat :=
  ((s.core p).exports.map (fun e => e.bands - e.beats / max 1 (bandBeats (s.exportFmt p e)))).sum

/-- Whether a plank of the return crossing has reached a core's tap: its next beat is the tap's, or the far tap's turn to start it has come
(R181, R341). -/
def State.reachesTap (s : State) (p pl : Nat) : Bool :=
  let h := s.lineHalf p
  let line := s.lineCores h
  match line.findIdx? (fun q => q == p) with
  | none => false
  | some k => (s.ret h).beats.any (fun b => b.plank == pl && b.at_ == k + 1) ||
      (decide (k + 1 = line.length) && ((s.lineObjs h)[(s.ret h).idx]?).any (fun m => m.e.plank == pl))

/-- Binds the first unbound SEXP to the next last-use entry of the core (R181, R319). A wrong region count is EXPORT_SIZE, once, when the
plank reaches the tap; it waits while a region is green and while the SEXP's point is held, whose rollback may discard the bundle (R205,
R206). -/
def State.bindExport (s : State) (p : Nat) : State :=
  let c := s.core p
  match c.exports.find? (fun e => e.plank.isNone), (s.sexpEnts p)[c.bound]? with
  | some e, some m =>
    if e.cnt ≠ exportRegions m.e.fmt then
      if e.faulted ∨ !s.reachesTap p m.e.plank ∨ (List.range e.cnt).any (fun i => c.regnMask (e.reg + i) != 0) ∨
         (c.point.isSome ∧ e.pt = c.ptSeq) then s
      else (s.programFault p fExportSize e.bundle 0).onCore p (fun c =>
        { c with exports := c.exports.map (fun x => if x == e then { x with faulted := true } else x) })
    else
      let s := forAll (List.range e.cnt) (fun i s => s.setReg (coreReg p 1 (0x500 + 4 * (e.reg + i))) (BitVec.ofNat 32 m.e.variant)) s
      s.onCore p (fun c =>
        { c with bound := c.bound + 1, exports := c.exports.map (fun x => if x == e then { x with plank := some m.e.plank } else x) })
  | _, _ => s

/-- The sill lines of band n of an export: K-rows 16n to 16n + 15 of its C columns, one line of the band's 16 banks a column (R342). -/
def Core.bandLines (c : Core) (e : Export) (C n : Nat) : Mem :=
  c.sill.filter (fun x => decide (64 * e.reg ≤ x.1 / 512 ∧ x.1 / 512 < 64 * e.reg + C ∧ x.1 % 512 / 64 = n))

/-- The tap fills its next band: the object is bound, none of its regions is green or has a write in flight, and one of the two band
buffers is free (R78, R342). -/
def returnBandFill (p : Nat) (s : State) : State :=
  if s.job.crossing ≠ some 1 then s
  else
    let s := if (s.core p).exports.any (fun e => e.plank.isNone) then s.bindExport p else s
    let c := s.core p
    match c.exports.find? (fun e => e.plank.isSome && decide (e.bands < 8)) with
    | none => s
    | some e =>
      let rs := (List.range e.cnt).map (fun i => e.reg + i)
      let ok := rs.all (fun r => c.regnMask r == 0 && !c.feet.any (fun f => f.2.rw.contains r)) && decide (s.bandsHeld p < 2)
      let e' := { e with bands := e.bands + 1, bufs := SMap.set [] e.bufs e.bands (c.bandLines e (bandBeats (s.exportFmt p e)) e.bands) }
      if ok then s.setCore p { c with exports := c.exports.map (fun x => if x == e then e' else x) } else s

/-- RETURN_BAND_FILL. -/
def execReturnBandFill (p : Nat) (s : State) : Res := coreEvent p (returnBandFill p) s

/-! ## Return beats (R341, R343 to R345) -/

/-- The export of plank pl at a core whose beat b is ready in a filled band. -/
def State.readyExport (s : State) (p pl b : Nat) : Option Export :=
  (s.core p).exports.find? (fun e => e.plank == some pl && e.beats == b && decide (b / max 1 (bandBeats (s.exportFmt p e)) < e.bands))

/-- The 16 converted values of beat b of an export, from its band buffer: the value of K-row r and column j lies in bank r at address
a + j (R252, R269, R342). -/
def State.beatVals (s : State) (p : Nat) (e : Export) (b : Nat) : List XV :=
  let C := plankCols (s.exportFmt p e)
  (List.range 16).map (fun i =>
    let el := 16 * b + i
    XV.ofF32 (Mem.readNat (SMap.get [] e.bufs (el / C / 16)) ((64 * e.reg + el % C) * 512 + 4 * (el / C)) 4) (s.logicalOf p))

/-- An export's beat has been accepted: after the last the regions stop being export regions and the return mark advances (R36, R77). -/
def State.takeBeat (s : State) (p : Nat) (e : Export) : State :=
  let total := 8 * bandBeats (s.exportFmt p e)
  let C := max 1 (bandBeats (s.exportFmt p e))
  let left := { e with beats := e.beats + 1, bufs := e.bufs.filter (fun k => decide ((e.beats + 1) / C ≤ k.1)) }
  if e.beats + 1 < total then s.onCore p (fun c => { c with exports := c.exports.map (fun x => if x == e then left else x) })
  else
    let s := forAll (List.range e.cnt) (fun i s => s.setFld (regnReg p (e.reg + i)) 16 16 0) s
    s.onCore p (fun c => { c with exports := c.exports.filter (fun x => x != e), retM := some (s.crossingNo 1, e.plank.getD 0) })

/-- A beat of a plank, with the escape blocks that follow it, that leaves a router (R522). -/
def State.passed (s : State) (p : Nat) (vals : List XV) : State := s.bwCount (coreReg p 5 0xC0) 1 none (256 * (1 + escBlocks vals))

/-- A tap's addition into a passing beat, with its counters; a reserved window code is noted with its time (R268, R270, R272, R431, R554). -/
def State.tapAdd (s : State) (p : Nat) (vals own : List XV) : List XV × State :=
  let r := addAll vals own
  let esc := escStarted vals r.1
  let s := (s.bump (coreReg p 7 8) 15 0 esc).tally p 0x11 esc
  let s := if r.2 then s.orReg (coreReg p 7 8) 0x20000 else s
  let s :=
    if vals.any (fun v => decide (3 < v.cls)) then
      (s.orReg (coreReg p 7 8) 0x10000).onCore p (fun c =>
        { c with badTimes := c.badTimes.filter (fun t => decide (s.time ≤ t + 100000000)) ++ [s.time] })
    else s
  (r.1, (s.tally p 0x10 1).passed p r.1)

/-- The RETURN_START word of an object at half h (R334, R341). -/
def MEnt.returnTag (m : MEnt) (h : Nat) : W64 :=
  let row := h % 48 % 12
  tagWord 3 1 m.e.plank m.e.variant m.e.fmt (bit m.e.flags 1) (decide (m.e.grain = 1)) (bit m.near row) (bit m.far row) false

/-- A beat moves on: it has passed tap position k. -/
def State.putBeat (s : State) (h : Nat) (old : Option RetBeat) (new : RetBeat) : State :=
  let g := s.ret h
  match old with
  | some b => s.setRet h { g with beats := g.beats.map (fun x => if x == b then new else x) }
  | none => s.setRet h { g with beats := g.beats ++ [new] }

/-- A return beat reaches the tap of core p, which adds its values and passes the sum on, or holds it for want of a SEXP, of a filled
band or of room in the next skid buffer (R343, R344). The far tap starts beats; a double sister starts its supplement pass (R441). -/
def returnBeat (p : Nat) (s : State) : State :=
  let h := s.lineHalf p
  let line := s.lineCores h
  match line.findIdx? (fun q => q == p) with
  | none => s
  | some k =>
    let g := s.ret h
    if 2 ≤ (g.beats.filter (fun b => b.at_ == k)).length then s
    else
      let far := decide (k + 1 = line.length)
      let arriving : Option (Option RetBeat × RetBeat) :=
        match g.beats.find? (fun b => b.at_ == k + 1) with
        | some b => some (some b, { b with at_ := k })
        | none =>
          match far, g.plank with
          | true, some pl => some (none, { plank := pl, b := g.next, at_ := k, vals := List.replicate 16 {} })
          | _, _ => none
      match arriving with
      | some (old, nb) =>
        match (s.lineObjs h).find? (fun m => m.e.plank == nb.plank) with
        | none => s
        | some m =>
          let started := fun (s : State) => if old.isSome then s else
            let g := s.ret h
            if nb.b + 1 = 8 * bandBeats m.e.fmt then s.setRet h { g with plank := none, next := 0, idx := g.idx + 1 }
            else s.setRet h { g with next := nb.b + 1 }
          let nb := if old.isNone ∧ nb.b = 0 then { nb with tag := some (m.returnTag h) } else nb
          if nb.supp.isSome ∨ !s.gives p m then started ((s.putBeat h old nb).passed p nb.vals)
          else
            match s.readyExport p nb.plank nb.b with
            | none => s
            | some e =>
              let r := s.tapAdd p nb.vals (s.beatVals p e nb.b)
              started ((r.2.putBeat h old { nb with vals := r.1 }).takeBeat p e)
      | none =>
        -- supplement pass of a double sister whose object has already passed its tap (R441)
        match (s.core p).stored, (s.core p).exports.find? (fun e => e.plank.isSome && (s.readyExport p (e.plank.getD 0) e.beats).isSome) with
        | some _, some e =>
          let pl := e.plank.getD 0
          let done := ((s.lineObjs h).take g.idx).any (fun m => m.e.plank == pl) && !g.beats.any (fun b => b.plank == pl && decide (k < b.at_))
          let tag := if e.beats = 0 then ((s.lineObjs h).find? (fun m => m.e.plank == pl)).map (fun m => m.returnTag h) else none
          if done then
            ((s.putBeat h none { plank := pl, b := e.beats, at_ := k, vals := s.beatVals p e e.beats, supp := some p, tag := tag }).takeBeat p e).passed p
              (s.beatVals p e e.beats)
          else s
        | _, _ => s

/-- The far tap starts the next object of its line: when its own band 0 is filled, or at once when it contributes nothing (R341, R343). -/
def returnObjectStart (h : Nat) (s : State) : State :=
  let g := s.ret h
  match g.plank, (s.lineObjs h)[g.idx]?, (s.lineCores h).getLast? with
  | none, some m, some p =>
    if s.job.crossing ≠ some 1 ∨ (s.gives p m ∧ (s.readyExport p m.e.plank 0).isNone) then s
    else s.setRet h { g with plank := some m.e.plank, next := 0 }
  | _, _, _ => s

/-- RETURN_OBJECT_START. -/
def execReturnObjectStart (half : Nat) (s : State) : Res := if 96 ≤ half then .refused .noSuchUnit else .next (returnObjectStart half s)

/-! ## Reduction slots (R273) -/

/-- The reduction slot of an object's pass at a landing, a new one while fewer than two are occupied; it takes the NAN_POLICY then in
force (R273, R283). -/
def State.slotFor (s : State) (l : Nat) (e : Entry) : Option RSlot :=
  let x := s.land l
  match x.rslots.find? (fun r => r.plank == e.plank) with
  | some r => some r
  | none =>
    if x.rslots.length < 2 then some { object := e.object, plank := e.plank, fmt := e.fmt, policy := s.fld (landReg l 0x500) 1 0 } else none

/-- Stores a reduction slot. -/
def Landing.putSlot (x : Landing) (r : RSlot) : Landing :=
  if x.rslots.any (fun y => y.plank == r.plank) then { x with rslots := x.rslots.map (fun y => if y.plank == r.plank then r else y) }
  else { x with rslots := x.rslots ++ [r] }

/-- The EXA images that a reduction slot holds. -/
def RSlot.images (r : RSlot) : List Int := ((r.own ++ r.ring).filter (fun e => e.2.escapes)).map (fun e => e.2.val)

/-- Where the spilled images of reduction slot k of landing l begin: below the ledger's spill area in the landing bay's reserve (R273, R399,
log entry 24). -/
def State.redSpill (s : State) (l k : Nat) : Nat :=
  landingBay l * 2 ^ 36 + s.stackLimit (landingBay l) - 268435456 - 67108864 + 33554432 * k

/-- Whether a reduction slot's spilled images must wait for the landing bay's stack (R273, R403). -/
def State.spillWaits (s : State) (l : Nat) (r : RSlot) : Bool := decide (8192 < r.images.length) && s.bayWaits (landingBay l)

/-- Stores a reduction slot; images beyond the 8,192 of its escape store spill into the stack (R273). -/
def State.storeSlot (s : State) (l : Nat) (r : RSlot) : State :=
  let s := s.onLand l (fun x => x.putSlot r)
  if r.images.length ≤ 8192 then s
  else
    let k := ((s.land l).rslots.findIdx? (fun y => y.plank == r.plank)).getD 0
    let bs := (r.images.drop 8192).flatMap (fun i => leBytes 40 (wrapInt 320 i))
    (s.orReg (landReg l 0x504) 2).stackPut (s.redSpill l k) (bs.take 33554432)

/-- Adds values into elements of a sum from index i; the flag is the OR of the range flags. -/
def addInto (sum : SMap XV) : Nat → List XV → SMap XV × Bool
  | _, [] => (sum, false)
  | i, v :: vs =>
    let r := (SMap.get {} sum i).add v
    let t := addInto (SMap.set {} sum i r.1) (i + 1) vs
    (t.1, r.2 || t.2)

/-- A variant by its tag. -/
def State.variantOf (s : State) (tag : Nat) : Option Variant :=
  if tag = 0 then none else (s.job.loaded.map (fun m => m.variants)).getD [] |>.find? (fun v => v.tag == tag)

/-- Bytes of a tensor of an object of C columns (Table 11.1). -/
def tensorBytes (u : Micro) (C code : Nat) : Nat :=
  match code with
  | 0 => (if u.masterForm = 0 then 4 else 2) * 128 * C
  | 1 => 128 * C
  | 4 => 4 * 128
  | 5 => 4 * C
  | _ => (if u.momentForm = 0 then 4 else 2) * 128 * C

/-- The offsets of a state block's tensors, each at a multiple of 64 bytes, and of the working plank after them (R325). -/
def blockOffsets (u : Micro) (C : Nat) (codes : List Nat) : List (Nat × Nat) × Nat :=
  codes.foldl (fun (a : List (Nat × Nat) × Nat) c =>
    let o := ceilDiv a.2 64 * 64
    (a.1 ++ [(c, o)], o + tensorBytes u C c)) ([], 0) |> fun a => (a.1, ceilDiv a.2 64 * 64)

/-- The state tensors that the program of a layer tag group uses, by code (Table 11.1). -/
def stateCodes (u : Micro) (groups : List TagGroup) (group : Nat) : List Nat :=
  let uses := ((groups[group]?).bind (fun g => u.progs[g.program]?)).map (fun p => p.uses) |>.getD 0
  [0] ++ (if u.masterForm = 1 then [1] else []) ++ (if bit uses 0 then [2] else []) ++ (if bit uses 1 then [3] else []) ++
  (if bit uses 2 then [4, 5] else [])

/-- The tensors that an object of a group needs at its update (R294). -/
def State.wantTensors (s : State) (group : Nat) : List Nat :=
  match s.job.loaded with
  | none => [0]
  | some m =>
    match m.micro with
    | none => [0]
    | some u => stateCodes u m.groups group

/-- Whether step s is an application step (R284). -/
def State.applies (s : State) : Bool := match s.job.loaded with
  | none => false
  | some m => (s.job.step + 1) % max 1 m.man.thinN == 0

/-- Header flag [1] (export) and flag [2] (variants) of the manifest in use. -/
def State.manFlag (s : State) (i : Nat) : Bool := match s.job.loaded with
  | none => false
  | some m => bit m.man.flags i

/-- The state tensors of a variant's object in copy V mod 2 of its block (R325, R327). -/
def State.variantState (s : State) (v : Variant) (e : Entry) (want : List Nat) : SMap Mem :=
  match s.job.loaded.bind (fun m => m.micro) with
  | none => []
  | some u =>
    let C := plankCols e.fmt
    let a := v.base + (s.job.version % 2) * v.copyLen + (e.object - v.first) * v.blockLen
    (blockOffsets u C want).1.foldl (fun (t : SMap Mem) k =>
      SMap.set [] t k.1 (Mem.write [] 0 (Mem.read s.stack (a + k.2) (tensorBytes u C k.1)))) []

/-- Whether an entry's variant is frozen: its objects pass through no LUU (R327). -/
def State.frozenEnt (s : State) (e : Entry) : Bool := ((s.variantOf e.variant).map (fun v => v.frozen)).getD false

/-- Gets the state of an object, at most two buffered: from the partner, or a variant's from its block in the stack, once the hub there holds
no accesses (R294, R327, R372, R403, R412). -/
def State.askState (s : State) (l : Nat) (e : Entry) : State :=
  let x := s.land l
  if !s.applies ∨ s.manFlag 1 ∨ s.frozenEnt e ∨ 2 ≤ x.sbuf.length ∨ x.sbuf.any (fun b => b.object == e.object) then s
  else
    let want := s.wantTensors (e.tagGroup % 4096)
    match s.variantOf e.variant with
    | some v =>
      let a := v.base + (s.job.version % 2) * v.copyLen + (e.object - v.first) * v.blockLen
      if s.bayWaits (a / 2 ^ 36) then s
      else (s.hubCount 0 a v.blockLen).setLand l
        { x with sbuf := x.sbuf ++ [{ object := e.object, want := want, tens := s.variantState v e want, done := want }] }
    | none =>
      let mask := want.foldl (fun m t => m + 2 ^ t) 0
      let s := s.setLand l { x with sbuf := x.sbuf ++ [{ object := e.object, want := want }] }
      s.pushFrame l (creditFrame [] [reqRecord e.object (s.landV l) 0 1 mask])

/-- The owner that works: the named landing, or its pair when it has stopped (R277). -/
def State.ownerOf (s : State) (e : Entry) : Nat := if s.landWorks e.owner then e.owner else pairOf e.owner

/-- A landing takes the oldest beat of a served line into its reduction slot; with both slots occupied the girt waits (R273, R344). -/
def landingExaAdd (l half : Nat) (s : State) : State :=
  let g := s.ret half
  match g.beats.find? (fun b => b.at_ == 0) with
  | none => s
  | some b =>
    match (s.lineObjs half).find? (fun m => m.e.plank == b.plank) with
    | none => s
    | some m =>
      match s.slotFor l m.e with
      | none => s
      | some r =>
        let a := addInto r.own (16 * b.b) b.vals
        if halfLanding half ≠ l ∨ !s.landWorks l ∨ s.spillWaits l { r with own := a.1 } then s
        else
          let key := match b.supp with
            | some p => 1000 + p
            | none => half
          let first := r.beats.isEmpty
          let s := s.storeSlot l { r with own := a.1, beats := SMap.set 0 r.beats key (SMap.get 0 r.beats key + 1) }
          let s := s.bump (landReg l 0x508) 31 16 (escBlocks b.vals)
          let s := if a.2 then s.orReg (landReg l 0x504) 0x20 else s
          let s := if b.vals.any (fun v => decide (3 < v.cls)) then s.orReg (landReg l 0x504) 8 else s
          let s := s.setRet half { g with beats := g.beats.filter (fun x => x != b) }
          if first ∧ s.ownerOf m.e = l then s.askState l m.e else s

/-- LANDING_EXA_ADD. -/
def execLandingExaAdd (l half : Nat) (s : State) : Res :=
  if 96 ≤ half then .refused .noSuchUnit else landEvent l (landingExaAdd l half) s

/-! ## The landing ring (R274 to R277) -/

/-- The next working landing after l in ring order (R277). -/
def State.ringAfter (s : State) (l : Nat) : Nat :=
  let seq := (List.range 8).foldl (fun (r : List Nat × Nat) _ => let n := ringNext r.2; (r.1 ++ [n], n)) ([], l)
  (seq.1.find? s.landWorks).getD l

/-- Groups of 256 elements of an object. -/
def groupsOf (fmt : Nat) : Nat := plankCols fmt / 2

/-- Whether a landing's own sum of group g is complete: every line it serves for the entry, and every supplement pass (R276, R441). -/
def State.ownDone (s : State) (l : Nat) (r : RSlot) (g : Nat) : Bool :=
  (List.range 12).all (fun i =>
    let h := landingHalf l i
    match (s.lineObjs h).find? (fun m => m.e.plank == r.plank) with
    | none => true
    | some m =>
      decide (16 * (g + 1) ≤ SMap.get 0 r.beats h) &&
      (s.lineCores h).all (fun p =>
        !(s.bindsOwn p m && s.bindsOther p m) ||
        decide (16 * (g + 1) ≤ SMap.get 0 r.beats (1000 + p))))

/-- The backward entry of an object's last use, at any landing. -/
def State.objEntry (s : State) (obj : Nat) : Option Entry :=
  (List.range 8).findSome? (fun l => ((s.merged l 1).find? (fun m => m.e.object == obj && bit m.e.flags 1)).map (fun m => m.e))

/-- The resident location of an object of the base model: the stack address that an entry for it names (R29). -/
def State.residentAt (s : State) (obj : Nat) : Option Nat :=
  (List.range 16).findSome? (fun k =>
    ((s.orderOf (k / 2) (k % 2)).entries.find? (fun e => e.object == obj && e.source == 1 && e.variant == 0)).map (fun e => e.stackAddr))

/-- The 256 elements of a group. -/
def groupVals (sum : SMap XV) (g : Nat) : List XV := (List.range 256).map (fun i => SMap.get {} sum (256 * g + i))

/-- A landing adds its own sum to group g and forwards it to the next landing; the owner adds its own last (R274, R276). -/
def ringGroupForward (l obj g : Nat) (s : State) : State :=
  match s.objEntry obj with
  | none => s
  | some e =>
    match s.slotFor l e with
    | none => s
    | some r =>
      let owner := s.ownerOf e
      let first := s.ringAfter owner == l
      if groupsOf e.fmt ≤ g ∨ r.sentG.contains g ∨ !s.ownDone l r g ∨ !(first || r.ringG.contains g) ∨ !s.landWorks l then s
      else
        let a := addAll (groupVals r.own g) (groupVals r.ring g)
        let s := if a.2 then s.orReg (landReg l 0x504) 0x20 else s
        -- what has been forwarded, or added at the owner, leaves the slot's escape store
        let r := { r with sentG := insNat r.sentG g, ring := r.ring.filter (fun e => e.1 / 256 != g) }
        if owner = l then
          let own := a.1.zipIdx.foldl (fun m v => SMap.set {} m (256 * g + v.2) v.1) r.own
          if s.spillWaits l { r with own := own } then s else s.storeSlot l { r with own := own }
        else
          let n := s.ringAfter l
          match s.slotFor n e with
          | none => s
          | some q =>
            let ring := a.1.zipIdx.foldl (fun m v => SMap.set {} m (256 * g + v.2) v.1) q.ring
            if s.spillWaits n { q with ring := ring } then s else
            let s := s.storeSlot n { q with ring := ring, ringG := insNat q.ringG g }
            let s := s.bump (landReg n 0x508) 31 16 ((chunks 16 17 a.1).map escBlocks).sum
            s.onLand l (fun x =>
              if r.sentG.length = groupsOf e.fmt then { x with rslots := x.rslots.filter (fun y => y.plank != r.plank) }
              else x.putSlot { r with own := r.own.filter (fun k => k.1 / 256 != g) })

/-! ## The owner (R279 to R291) -/

/-- An element on its way out of the exact path: index, exact sum, FP32 code and non-finite class (0 finite, 1 NaN, 2 and 3 the
infinities, 4 rounding overflow). -/
structure OutEl where
  idx : Nat
  x : XV
  code : Nat
  cls : Nat
  deriving DecidableEq, Repr, Inhabited

/-- The FP32 result and class of a sum; rnd tells whether it leaves through the rounding of Table 10.8 (R280). -/
def outOf (idx : Nat) (x : XV) (rnd : Bool) : OutEl :=
  let r := x.round
  ⟨idx, x, r.1, if x.cls ≠ 0 then x.cls else if rnd && r.2 then 4 else 0⟩

/-- NONFINITE_SUM for one element (R280): landing, object, ELEMENT, ORIGIN, NAN_SEEN, class, group. -/
def State.nonfinite (s : State) (l obj group : Nat) (o : OutEl) : State :=
  let s := (s.orReg (landReg l 0x504) 1).bump (landReg l 0x508) 15 0 1
  let n := (s.land l).nonfin
  let s := s.onLand l (fun x => { x with nonfin := n + 1 })
  if n < 16 then
    let org := if o.cls = 4 then 0xFFFF else o.x.origin
    s.raise 0x0301 [(1, l), (4, obj), (4, o.idx), (4, org), (1, if o.cls = 4 then 0 else if o.x.nanSeen then 1 else 0), (1, o.cls - 1), (2, group)]
  else s

/-- The owner's treatment of a non-finite sum under NAN_POLICY pol (Table 10.9): the element passed on. -/
def State.policy (s : State) (l obj group pol : Nat) (o : OutEl) : OutEl × State :=
  if o.cls = 0 then (o, s)
  else
    let s := s.nonfinite l obj group o
    match pol with
    | 1 => (⟨o.idx, {}, 0, 0⟩, s.bump (landReg l 0x50C) 31 0 1)
    | 2 => (o, s)
    | _ => (o, (s.orReg (landReg l 0x504) 0x10).onLand l (fun x => { x with heldStep := true }))

/-- The ledger range of an object. -/
def State.ledgerOf (s : State) (obj : Nat) : Option (Ledger × LedgerRange) :=
  match s.job.loaded with
  | none => none
  | some m => m.ledger.bind (fun k => (k.ranges.find? (fun r => decide (r.first ≤ obj ∧ obj < r.first + r.count))).map (fun r => (k, r)))

/-- Bytes of a ledger element (Table 10.10). -/
def ledSize (form : Nat) : Nat := if form = 1 then 16 else 4

/-- The ledger's escape capacity of a landing's area, in images. -/
def State.escCap (s : State) : Nat := ((s.job.loaded.bind (fun m => m.ledger)).map (fun k => k.escImages)).getD 0

/-- Images that the spill area of a landing bay's reserve holds: 256 MiB (R287). -/
def spillCap : Nat := 268435456 / 40

/-- Where image n of landing l lies: in its ledger escape area, and beyond that at the end of the landing bay's reserve (R287, R399, log
entry 24). -/
def State.escAddr (s : State) (l n : Nat) : Nat :=
  let base := ((s.job.loaded.bind (fun m => m.ledger)).map (fun k => k.escBase.getD l 0)).getD 0
  let b := landingBay l
  if n < s.escCap then base + 40 * n else b * 2 ^ 36 + s.stackLimit b - 268435456 + 40 * (n - s.escCap)

/-- Whether a hub that holds images of landing l holds accesses (R403, R412). -/
def State.escWaits (s : State) (l : Nat) : Bool := s.bayWaits (s.escAddr l 0 / 2 ^ 36) || s.bayWaits (landingBay l)

/-- The places of landing l's images that are in use. -/
def State.escUsed (s : State) (l : Nat) : List Nat := (s.ledEsc.filter (fun e => (e.2 - 1) / 2 ^ 32 == l)).map (fun e => (e.2 - 1) % 2 ^ 32)

/-- The image of the escaped entry at address a. An entry that only a master has written as an escape has no image: a free value (log
entry 5). -/
def State.escImage (s : State) (a : Nat) : Int := match SMap.get 0 s.ledEsc a with
  | 0 => signed 320 (leNat ((List.range 40).map (fun i => Config.freeByte (a + i))))
  | k + 1 => signed 320 (Mem.readNat s.stack (s.escAddr (k / 2 ^ 32) (k % 2 ^ 32)) 40)

/-- A ledger entry at address a as an exact value, cls 4 for a reserved code (R268, R285). -/
def State.ledRead (s : State) (form a : Nat) : XV :=
  if form = 1 then wcfValue (Mem.readNat s.stack a 16) (s.escImage a) else XV.ofF32 (Mem.readNat s.stack a 4) 0xFFFF

/-- Stores the image of the escaped entry at address a: it keeps the entry's place or takes the lowest free one. None with area and spill
full (R287). -/
def State.keepImage (s : State) (l a : Nat) (img : Nat) : Option State :=
  let used := s.escUsed l
  let free := ((List.range (used.length + 1)).find? (fun n => !used.contains n)).getD 0
  let k := match SMap.get 0 s.ledEsc a with
    | 0 => free + l * 2 ^ 32
    | k + 1 => k
  let n := k % 2 ^ 32
  if s.escCap + spillCap ≤ n then none
  else
    let to_ := s.escAddr (k / 2 ^ 32) n
    let s := s.readFirst to_ 40
    some { s.stackPut to_ (leBytes 40 img) with ledEsc := SMap.set 0 s.ledEsc a (k + 1) }

/-- Whether an image lies beyond its landing's escape area (R287). -/
def State.spilled (s : State) (a : Nat) : Bool := decide (s.escCap < SMap.get 0 s.ledEsc a % 2 ^ 32)

/-- Writes a WCF ledger entry; with area and spill full the owner holds the step (R285, R287). -/
def State.ledWrite (s : State) (l a el : Nat) (x : XV) : State :=
  if !x.escapes then { s with stack := Mem.writeNat s.stack a 16 (x.wcf el), ledEsc := SMap.set 0 s.ledEsc a 0 }
  else match s.keepImage l a (wrapInt 320 x.val) with
    | none => (s.orReg (landReg l 0x504) 0x14).onLand l (fun x => { x with heldStep := true })
    | some t =>
      let t := if t.spilled a then t.orReg (landReg l 0x504) 4 else t
      { t with stack := Mem.writeNat t.stack a 16 (x.wcf el) }

/-- The elements of an object that are not zero in its sum or its ledger, rising. -/
def State.liveEls (s : State) (r : RSlot) (led : Option (Ledger × LedgerRange)) : List Nat :=
  let own := r.own.map (fun e => e.1)
  match led with
  | none => own
  | some (k, g) =>
    let E := 128 * plankCols r.fmt
    let sz := ledSize k.form
    let base := g.base + (r.object - g.first) * E * sz
    let cells := s.stack.filter (fun c => decide (base ≤ c.1 ∧ c.1 < base + E * sz))
    (cells.map (fun c => (c.1 - base) / sz)).foldl insNat own

/-- RETURN frames of an exported object (R288, R289): 16 elements a frame, each followed by its escape blocks. -/
def State.returnFrames (s : State) (e : Entry) (val : Nat → XV) : List Frame :=
  let grp := e.tagGroup / 4096
  (List.range (8 * plankCols e.fmt)).flatMap (fun b =>
    let xs := (List.range 16).map (fun i => val (16 * b + i))
    let mk := fun (kind : Nat) (pay : List Byte) =>
      { frame 3 (8 + grp) (16 * b + 2 ^ 32 * grp + 2 ^ 40 * kind + 2 ^ 64 * (s.job.step % 2 ^ 32)) pay with
        object := e.object, version := s.job.version }
    let esc := chunks 6 17 ((xs.zipIdx).filter (fun x => x.1.escapes))
    let blocks := esc.zipIdx.map (fun k =>
      mk 1 ((k.1.flatMap (fun x => leBytes 40 (wrapInt 320 x.1.val))) ++ List.replicate (240 - 40 * k.1.length) 0 ++
        leBytes 2 ((k.1.map (fun x => 2 ^ x.2)).sum) ++ leBytes 1 k.1.length ++ leBytes 1 (if k.2 + 1 < esc.length then 1 else 0) ++
        List.replicate 12 0))
    mk 0 ((xs.zipIdx).flatMap (fun x => leBytes 16 (x.1.wcf (16 * b + x.2)))) :: blocks)

/-- The flags of an addition to a ledger entry: a reserved code, a sum outside the EXA range (R268, R554). -/
def State.ledFlags (s : State) (l : Nat) (old : XV) (range : Bool) : State :=
  let s := if 3 < old.cls then s.orReg (landReg l 0x504) 8 else s
  if range then s.orReg (landReg l 0x504) 0x20 else s

/-- One element of a ledger-only step (R284, R285): a non-finite step sum held leaves its entry unchanged (R282); a sum that a reserved
code or the EXA range makes NaN is a non-finite sum as well (R268, R554). The policy applies once to an element (R280). -/
def State.ledgerStep (s : State) (l group : Nat) (r : RSlot) (form base el : Nat) : State :=
  let x := SMap.get {} r.own el
  let o := s.policy l r.object group r.policy (outOf el x (form == 0))
  let a := base + el * ledSize form
  let known := (outOf el x (form == 0)).cls != 0
  if o.1.cls ≠ 0 ∧ r.policy ≠ 2 then o.2
  else if form = 1 then
    let old := o.2.ledRead 1 a
    let sum := old.add o.1.x
    let s := o.2.ledFlags l old sum.2
    if known then s.ledWrite l a el (if r.policy = 1 ∧ (sum.2 ∨ 3 < old.cls) then {} else sum.1)
    else if sum.2 ∨ 3 < old.cls then
      let t := s.policy l r.object group r.policy (outOf el sum.1 false)
      t.2.ledWrite l a el t.1.x
    else s.ledWrite l a el sum.1
  else { o.2 with stack := Mem.writeNat o.2.stack a 4 (add32 (Mem.readNat o.2.stack a 4) o.1.code) }

/-- A sum rounded for an FP32 ledger, as the FP32 addition takes it: a rounding overflow is an infinity of no origin (R279, Table 10.8). -/
def roundedXV (x : XV) : XV := if x.cls = 0 then XV.ofF32 x.round.1 0xFFFF else x

/-- One element of an application step: the ledger entry is added and written back as zero, then the policy applies to the total (R284). -/
def State.applyEl (s : State) (l group : Nat) (r : RSlot) (led : Option (Nat × Nat)) (exp : Bool) (el : Nat) : OutEl × State :=
  let x := SMap.get {} r.own el
  match led with
  | none => s.policy l r.object group r.policy (outOf el x (!exp))
  | some (form, base) =>
    let a := base + el * ledSize form
    let old := s.ledRead form a
    if form = 1 then
      let sum := old.add x
      let s := s.ledFlags l old sum.2
      let s := { s with stack := Mem.zero s.stack a 16, ledEsc := SMap.set 0 s.ledEsc a 0 }
      s.policy l r.object group r.policy (outOf el sum.1 (!exp))
    else
      let st := outOf el x true
      let code := add32 (Mem.readNat s.stack a 4) st.code
      let sum := (old.add (roundedXV x)).1
      let tot := if sum.cls = 0 then XV.ofF32 code 0xFFFF else sum
      let s := { s with stack := Mem.zero s.stack a 4 }
      s.policy l r.object group r.policy ⟨el, tot, code, if st.cls = 4 ∧ tot.cls ≠ 1 then 4 else tot.cls⟩

/-- The owner completes an object's sum: policy, ledger, then the LUU or the export (R279 to R291, R293). -/
def ownerRounding (l : Nat) (s : State) : State :=
  match (s.land l).rslots.find? (fun r => decide (r.sentG.length = groupsOf r.fmt) && match s.objEntry r.object with
    | some e => s.ownerOf e == l
    | none => false) with
  | none => s
  | some r =>
    match s.objEntry r.object with
    | none => s
    | some e =>
      let group := e.tagGroup % 4096
      let led := if ((s.job.loaded.map (fun m => m.man.thinN)).getD 1) ≤ 1 then none else s.ledgerOf r.object
      let els := s.liveEls r led
      let at_ := led.map (fun k => (k.1.form, k.2.base + (r.object - k.2.first) * (128 * plankCols r.fmt) * ledSize k.1.form))
      let len := 128 * plankCols r.fmt * (at_.map (fun k => ledSize k.1)).getD 0
      if at_.any (fun k => s.bayWaits (k.2 / 2 ^ 36) || (k.1 == 1 && s.escWaits l)) then s else
      let s := match at_ with
        | some k => (s.hubCount 0 k.2 len).hubCount 1 k.2 len
        | none => s
      let s := (s.readFirst ((at_.map (fun k => k.2)).getD 0) len).onLand l (fun x => { x with rslots := x.rslots.filter (fun y => y.plank != r.plank) })
      if !s.applies then
        match at_ with
        | none => s.onLand l (fun x => { x with pendDone := insNat x.pendDone r.object })
        | some (form, base) =>
          let s := forAll els (fun el s => s.ledgerStep l group r form base el) s
          s.onLand l (fun x => { x with pendDone := insNat x.pendDone r.object })
      else
        let exp := s.manFlag 1
        let out := els.foldl (fun (a : List OutEl × State) el =>
          let o := a.2.applyEl l group r at_ exp el
          (a.1 ++ [o.1], o.2)) ([], s)
        if exp then
          let m := out.1.foldl (fun (m : SMap XV) o => SMap.set {} m o.idx o.x) []
          let fs := out.2.returnFrames e (fun i => SMap.get {} m i)
          out.2.onLand l (fun x => { x with outQ := x.outQ ++ fs, pendDone := insNat x.pendDone r.object })
        else if s.frozenEnt e then out.2.onLand l (fun x => { x with pendDone := insNat x.pendDone r.object })
        else
          let gr := out.1.foldl (fun (m : SMap Nat) o => SMap.set 0 m o.idx o.code) []
          let k : LuuObj := { object := r.object, fmt := r.fmt, group := group, variant := e.variant, grads := gr }
          (out.2.onLand l (fun x => { x with luuQ := x.luuQ ++ [k] })).askState l e

/-- OWNER_ROUNDING. -/
def execOwnerRounding (l : Nat) (s : State) : Res := landEvent l (ownerRounding l) s

end Sys2Proof.Machine
end

