-- ==== Sys2Proof/Machine/Manifest.lean ====
section
/-! DEFINITION. The manifest image: layout, the checks of Table 2.14, alternates, placement and fit (R52 to R60, R555), with the
checks of sections that other chapters own (R168, R198, R230, R247, R275, R286, R298 to R301, R308, R318 to R325, R339, R346, R351,
R421). -/

namespace Sys2Proof.Machine

/-- n bytes at offset o of a byte string, as a number. -/
def num (bs : List Byte) (o n : Nat) : Nat := leNat ((bs.drop o).take n)

/-- Loader statuses (Table 19.6). -/
def stMagic : Nat := 0x10
def stVersion : Nat := 0x11
def stLayout : Nat := 0x12
def stDigest : Nat := 0x13
def stSection : Nat := 0x14
def stField : Nat := 0x15
def stProgram : Nat := 0x16
def stPlankOrder : Nat := 0x17
def stWait : Nat := 0x18
def stNoFit : Nat := 0x19

/-! ## Header and section table (Tables 2.7 and 2.8) -/

/-- A section-table entry. -/
structure RawSec where
  typ : Nat
  flags : Nat
  inst : Nat
  off : Nat
  len : Nat
  crc : Nat
  alt : Nat
  deriving DecidableEq, Repr, Inhabited

/-- The section-table entries of an image, as many as its bytes hold. -/
def rawSecs (bs : List Byte) : List RawSec :=
  (List.range (min (num bs 0x18 4) (bs.length / 32))).map (fun i =>
    let e := (bs.drop (0x100 + 32 * i)).take 32
    ⟨num e 0 2, num e 2 2, num e 4 4, num e 8 8, num e 0x10 8, num e 0x18 4, num e 0x1C 2⟩)

/-- Whether two sections share a byte. -/
def RawSec.overlaps (a b : RawSec) : Bool := decide (0 < a.len ∧ 0 < b.len ∧ a.off < b.off + b.len ∧ b.off < a.off + a.len)

/-- Check 3 of Table 2.14. -/
def layoutOk (bs : List Byte) (len : Nat) : Bool :=
  let total := num bs 0x10 8
  let tabEnd := 0x100 + 32 * num bs 0x18 4
  let ss := rawSecs bs
  num bs 0xC 4 == 256 && decide (total ≤ len ∧ total ≤ bs.length ∧ tabEnd ≤ total) &&
  ss.all (fun s => s.off % 64 == 0 && decide (tabEnd ≤ s.off ∧ s.off + s.len ≤ total)) &&
  (List.range ss.length).all (fun i => (List.range i).all (fun j => !((ss.getD i default).overlaps (ss.getD j default))))

/-- Check 4 of Table 2.14. -/
def digestOk (bs : List Byte) : Bool :=
  let total := num bs 0x10 8
  sha384 ((bs.take total).drop 0x100) == (bs.drop 0xD0).take 48 &&
  (rawSecs bs).all (fun s => crc32c ((bs.drop s.off).take s.len) == s.crc)

/-- The manifest as held after its layout has been checked. -/
def manifestOf (bs : List Byte) : Manifest :=
  { mid := (bs.drop 0x80).take 16, logical := num bs 0x20 4, fwdPlanks := num bs 0x24 4, bwdPlanks := num bs 0x28 4,
    thinN := num bs 0x2C 2, minSpares := num bs 0x2E 1, flags := num bs 0x2F 1,
    bayCores := ((bs.drop 0x30).take 60).map BitVec.toNat, altCount := num bs 0x1C 4,
    lat := ((bs.drop 0x70).take 16).map BitVec.toNat,
    secs := (rawSecs bs).map (fun s => ⟨s.typ, s.flags, s.inst, s.alt, (bs.drop s.off).take s.len⟩) }

/-! ## Sections in use -/

/-- The sections in use under alternate k: its own, and those base sections that it does not replace (R53). -/
def Manifest.effective (m : Manifest) (k : Nat) : List Section :=
  let own := if k = 0 then [] else m.secs.filter (fun s => s.alt == k)
  own ++ (m.secs.filter (fun s => s.alt == 0)).filter (fun s => !own.any (fun t => t.typ == s.typ && t.inst == s.inst))

/-- A section by type and instance. -/
def findSec (ss : List Section) (typ inst : Nat) : Option (List Byte) :=
  (ss.find? (fun s => s.typ == typ && s.inst == inst)).map (fun s => s.bytes)

/-- PLACEMENT entries as (bay, preferred core index) (R56). -/
def placementOf (ss : List Section) : List (Nat × Nat) :=
  match findSec ss 9 0 with
  | none => []
  | some b => (List.range (b.length / 4)).map (fun i => (num b (4 * i) 1, num b (4 * i + 1) 1))

/-- The logical core count under a set of sections (R555). -/
def logicalOfSecs (ss : List Section) : Nat := (placementOf ss).length

/-- The preferred physical core of a logical core. -/
def preferred (ss : List Section) (n : Nat) : Nat :=
  let e := (placementOf ss).getD n (0, 0)
  e.1 * 48 + e.2

/-! ## Plank orders (Tables 2.11 and 2.12) -/

/-- A plank-order entry. -/
def entryOf (b : List Byte) : Entry :=
  { plank := num b 0 4, object := num b 4 4, offset := num b 8 4, halves := num b 0xC 2, role := num b 0xE 1, fmt := num b 0xF 1,
    owner := num b 0x10 1, grain := num b 0x11 1, source := num b 0x12 1, flags := num b 0x13 1, tagGroup := num b 0x14 2,
    variant := num b 0x16 1, stackAddr := num b 0x18 8 % 2 ^ 42 }

/-- A plank-order section, with as many entries as its bytes hold. -/
def orderOfBytes (b : List Byte) : Order :=
  { startBar := num b 2 2, entries := (List.range (min (num b 4 4) ((b.length - 64) / 32))).map (fun i => entryOf ((b.drop (64 + 32 * i)).take 32)) }

/-- The plank orders by landing × 2 + role. -/
def ordersOf (ss : List Section) : SMap Order :=
  (List.range 16).foldl (fun m i => match findSec ss 6 i with
    | some b => SMap.set {} m i (orderOfBytes b)
    | none => m) []

/-- Whether entry e of landing l addresses half h (Table 2.12; a midline join addresses the half across the midline). -/
def addresses (l : Nat) (e : Entry) (h : Nat) : Bool :=
  (halfLanding h == l && bit e.halves (h % 48 % 12)) ||
  (halfLanding h == pairOf l && bit e.flags 2 && bit e.halves (h % 48 % 12))

/-- The entries of a role that address half h, with their landings. -/
def entriesAt (os : SMap Order) (role h : Nat) : List (Nat × Entry) :=
  (List.range 8).flatMap (fun l => ((SMap.get {} os (2 * l + role)).entries.filter (fun e => addresses l e h)).map (fun e => (l, e)))

/-- The runs of grain-1 entries meet R247. -/
def runsOk : Nat → List Entry → Bool
  | 0, _ => true
  | _, [] => true
  | n + 1, e :: es =>
    if e.grain ≠ 1 then runsOk n es
    else
      let g := turnG e.fmt
      let run := (e :: es).take g
      decide (run.length = g) &&
      run.zipIdx.all (fun x => x.1.grain == 1 && x.1.fmt == e.fmt && x.1.plank == e.plank + x.2 && x.1.halves == e.halves &&
        x.1.flags / 4 == e.flags / 4 && bit x.1.flags 0 == bit e.flags 0) &&
      runsOk n ((e :: es).drop g)

/-- A plank-order section meets R55 and R247, with legal codes, for its landing and role; P planks; groups layer tag groups. A header that
names another landing or role, or more entries than the section holds, breaks it as well (DESIGN CHOICE, log entry 41). -/
def orderOk (b : List Byte) (inst P groups : Nat) (exp var : Bool) (tags : List Nat) : Bool :=
  let o := orderOfBytes b
  let role := inst % 2
  num b 0 1 == inst / 2 && num b 1 1 == role && decide (o.startBar ≤ 63) && decide (64 + 32 * num b 4 4 ≤ b.length) &&
  o.entries.all (fun e => decide (e.plank < P) && e.halves / 4096 == 0 && e.halves != 0 && e.role == role &&
    decide (e.fmt ≤ 5 ∧ e.owner ≤ 7 ∧ e.grain ≤ 1 ∧ e.source ≤ 1) && e.flags / 8 == 0 && decide (e.tagGroup % 4096 < groups) &&
    (role == 1 || e.grain == 0) && (!exp || role == 0 || bit e.flags 0) &&
    (!var || (if e.variant = 0 then e.source == 0 && (role == 0 || !bit e.flags 1) else e.source == 1 && tags.contains e.variant))) &&
  (o.entries.zip (o.entries.drop 1)).all (fun p => decide (p.1.plank < p.2.plank)) && runsOk (o.entries.length + 1) o.entries

/-- Rows that a landing's order of a role joins (R337). -/
def joinRows (os : SMap Order) (l role : Nat) : Nat :=
  (SMap.get {} os (2 * l + role)).entries.foldl (fun m e => if bit e.flags 2 then m ||| e.halves else m) 0
/-- Rows that a landing's order of a role addresses. -/
def rowsUsed (os : SMap Order) (l role : Nat) : Nat := (SMap.get {} os (2 * l + role)).entries.foldl (fun m e => m ||| e.halves) 0

/-- A row joined by one landing is not addressed by its pair, and all entries that address it carry the join flag (R339). -/
def joinsOk (os : SMap Order) : Bool :=
  (List.range 8).all (fun l => (List.range 2).all (fun r =>
    let j := joinRows os l r
    j &&& rowsUsed os (pairOf l) r == 0 &&
    (SMap.get {} os (2 * l + r)).entries.all (fun e => bit e.flags 2 || e.halves &&& j == 0)))

/-- Every entry that names an object names the same owner, which has a backward plank order, be it one without entries (R275). -/
def ownersOk (ss : List Section) (os : SMap Order) : Bool :=
  let es := (List.range 8).flatMap (fun l => (SMap.get {} os (2 * l + 1)).entries)
  let all := es ++ (List.range 8).flatMap (fun l => (SMap.get {} os (2 * l)).entries)
  es.all (fun e => (findSec ss 6 (2 * e.owner + 1)).isSome && all.all (fun f => f.object != e.object || f.owner == e.owner))

/-! ## Girt schedules (Tables 13.4 and 13.5) -/

/-- A GIRT_SCHEDULE section, with as many entries as its bytes hold. -/
def schedOf (b : List Byte) : Sched :=
  let ent := fun (i : Nat) => (num b (64 + 8 * i) 4, num b (64 + 8 * i + 4) 1, num b (64 + 8 * i + 5) 1)
  let most := (b.length - 64) / 8
  let nf := min (num b 8 4) most
  { fwdLanding := num b 1 1, bwdLanding := num b 2 1, flags := num b 3 1, tapBase := num b 4 2 % 4096, tapSlots := num b 6 1,
    fwd := (List.range nf).map ent, bwd := (List.range (min (num b 0xC 4) (most - nf))).map (fun i => ent (nf + i)) }

/-- The girt schedules by half. -/
def schedsOf (ss : List Section) : SMap (Option Sched) :=
  (List.range 96).foldl (fun m h => match findSec ss 5 h with
    | some b => SMap.set none m h (some (schedOf b))
    | none => m) []

/-- A schedule lists exactly its landings' entries that address the half, and bits that Table 13.4 gives as 0 are 0 (R346, log entry 41). -/
def schedOk (os : SMap Order) (h : Nat) (b : List Byte) : Bool :=
  let s := schedOf b
  let want := fun (role : Nat) => (entriesAt os role h).map (fun e =>
    (e.2.plank, (if bit e.2.flags 1 then 1 else 0) + 2 * e.2.grain, e.2.variant))
  let landing := fun (role named : Nat) => (entriesAt os role h).all (fun e => e.1 == named)
  let joined := fun (role : Nat) => (List.range 8).any (fun l =>
    (l == halfLanding h || l == pairOf (halfLanding h)) && bit (joinRows os l role) (h % 48 % 12))
  num b 0 1 == h && decide (s.fwdLanding ≤ 7 ∧ s.bwdLanding ≤ 7 ∧ 2 ≤ s.tapSlots ∧ s.tapSlots ≤ 8 ∧ s.flags ≤ 3 ∧ num b 4 2 < 4096) &&
  decide (64 + 8 * (num b 8 4 + num b 0xC 4) ≤ b.length) && landing 0 s.fwdLanding && landing 1 s.bwdLanding &&
  s.fwd == want 0 && s.bwd == want 1 && bit s.flags 0 == joined 0 && bit s.flags 1 == joined 1

/-! ## Programs and segment tables -/

/-- The bundles of a program section. -/
def bundlesOf (b : List Byte) : List Bundle := (chunks 32 (b.length / 32 + 1) b).map (fun x => bundleOf (leNat x))

/-- The CT operation of a bundle, when its slot is valid. -/
def bCtOp (b : Bundle) : Option Instr := if b.hdr.getLsbD 4 then decodeCt 0 (decodeHdr b.hdr) b.ct else none
/-- The DT operation of a bundle, when its slot is valid. -/
def bDtOp (b : Bundle) : Option Instr := if b.hdr.getLsbD 2 then decodeDt 0 (decodeHdr b.hdr) b.dt else none

/-- The mark wait of a bundle. -/
def bMarkWait (b : Bundle) : Option WaitmF := match (bCtOp b) with
  | some (.waitm _ _ f) => some f
  | _ => none
/-- Whether a bundle holds an MSEND of class 0, slotted traffic (R188). -/
def bSlotted (b : Bundle) : Bool := match (if b.hdr.getLsbD 3 then decodeMv 0 (decodeHdr b.hdr) b.mv else none) with
  | some (.msend _ _ f) => f.cls == 0
  | _ => false
/-- Whether a bundle holds ENDSTEP. -/
def bIsEnd (b : Bundle) : Bool := match (bCtOp b) with
  | some (.endstep _ _) => true
  | _ => false
/-- Whether a bundle holds a predicted operation (R228). -/
def bPredicts (b : Bundle) : Bool := match (bDtOp b) with
  | some (.dtgat _ _ f) => f.mode == 10
  | some (.dtcmp _ _ f) => f.mode == 10
  | _ => false
/-- Whether a bundle holds a check (R229). -/
def bChecks (b : Bundle) : Bool := match (bDtOp b) with
  | some (.dtgatCheck _ _ _) => true
  | some (.dtgat _ _ f) => f.mode == 3
  | _ => false

/-- The loops of a program: (level, first body bundle, last body bundle, count). -/
def loopsOf (bs : List Bundle) : List (Nat × Nat × Nat × Nat) :=
  bs.zipIdx.filterMap (fun b => match (bCtOp b.1) with
    | some (.loop _ _ f) => some (f.lvl.toNat, b.2 + 1, b.2 + f.body.toNat, f.count.toNat)
    | _ => none)

/-- Predictions and checks of a program meet R230 and R421. -/
def predsOk (bs : List Bundle) : Bool :=
  let ix := bs.zipIdx
  let chk := (ix.filter (fun b => (bChecks b.1))).map (fun b => b.2)
  let prd := (ix.filter (fun b => (bPredicts b.1))).map (fun b => b.2)
  let ends := (ix.filter (fun b => bIsEnd b.1)).map (fun b => b.2)
  let nextChk := fun (i : Nat) => (chk.find? (fun c => decide (i < c)))
  bs.all (fun b => !(bChecks b) || !(decodeHdr b.hdr).predEn) &&
  prd.all (fun i => decide ((prd.filter (fun j => decide (i ≤ j) && nextChk i == nextChk j)).length ≤ 4)) &&
  (loopsOf bs).all (fun l => prd.all (fun i => !decide (l.2.1 ≤ i ∧ i ≤ l.2.2.1) || chk.any (fun c => decide (i < c ∧ c ≤ l.2.2.1)))) &&
  prd.all (fun i => match ends.find? (fun e => decide (i < e)) with
    | some e => chk.any (fun c => decide (i < c ∧ c < e))
    | none => chk.any (fun c => decide (i < c))) &&
  ix.all (fun b => !(bPredicts b.1) || (decodeHdr b.1.hdr).group || b.2 == 0 || (bMarkWait b.1).isSome)

/-- Segment-table entries (start, planned, slack) (Table 2.10). -/
def segsOf (b : List Byte) : List (Nat × Nat × Nat) :=
  (List.range (b.length / 16)).map (fun i => (num b (16 * i) 2, num b (16 * i + 4) 4, num b (16 * i + 8) 4))

/-- A program and its segment table meet R54, R230 and R421. -/
def programOk (prog seg : List Byte) : Bool :=
  let bs := bundlesOf prog
  let starts := (segsOf seg).map (fun e => e.1)
  let waits := (bs.zipIdx.filter (fun b => (bMarkWait b.1).isSome)).map (fun b => b.2)
  decide (32 ≤ prog.length ∧ prog.length ≤ 262144) && prog.length % 32 == 0 && seg.length % 16 == 0 && starts.head? == some 0 &&
  (starts.zip (starts.drop 1)).all (fun p => decide (p.1 < p.2)) && (starts.drop 1).all waits.contains && waits.all starts.contains &&
  starts.all (fun i => decide (i < bs.length)) && predsOk bs

/-- The records of a CORE_IMAGE section as (address, data); none when one breaks R168. Fewer than 16 bytes after the last record pass as
padding where all are 0 and break the section otherwise (DESIGN CHOICE, log entry 41). -/
def imageRecs : Nat → List Byte → Option (List (Nat × List Byte))
  | 0, _ => some []
  | n + 1, b =>
    if b.length < 16 then (if b.all (fun x => x == 0) then some [] else none)
    else
      let a := num b 0 4 % 2 ^ 24
      let len := num b 4 4
      if a % 64 ≠ 0 ∨ len % 64 ≠ 0 ∨ b.length < 16 + len then none
      else (imageRecs n (b.drop (16 + len))).map (fun r => (a, (b.drop 16).take len) :: r)

/-! ## Waits (R38, R198) -/

/-- The plank numbers x, x + st, x + 2 st and on, modulo 2^32, for n indexes, until one of them is the first again; none when one of them is
not allowed. -/
def walkPlanks (allowed : Nat → Bool) (first st : Nat) : Nat → Nat → Option (List Nat)
  | 0, _ => some []
  | n + 1, x =>
    if !allowed x then none
    else
      let y := (x + st) % 2 ^ 32
      if y = first then some [x] else (walkPlanks allowed first st n y).map (fun r => x :: r)

/-- Whether every plank number that a WAITM at bundle i can form is allowed: all index combinations of its enclosing loops, under every
stride that an MSTR of the level sets, and 0. The planks of the levels before are among those of the next, whose index begins at 0; a level
of COUNT 0 counts as one of index 0 (DESIGN CHOICE, log entry 41). -/
def waitAllowed (allowed : Nat → Bool) (bs : List Bundle) (i : Nat) (f : WaitmF) : Bool :=
  let strides := fun (lvl : Nat) => (0 :: bs.filterMap (fun b => match (bCtOp b) with
    | some (.mstr _ _ m) => if m.lvl.toNat = lvl then some (m.stride.toNat % 2 ^ 32) else none
    | _ => none)).eraseDups
  let encl := (loopsOf bs).filter (fun l => decide (l.2.1 ≤ i ∧ i ≤ l.2.2.1) && bit f.lm.toNat l.1)
  let level := fun (xs : List Nat) (l : Nat × Nat × Nat × Nat) =>
    let walks := (strides l.1).flatMap (fun st => xs.map (fun x => walkPlanks allowed x st (max 1 l.2.2.2) x))
    if walks.all (fun w => w.isSome) then some (walks.flatMap (fun w => w.getD [])).eraseDups else none
  let base := f.base.toNat % 2 ^ 32
  allowed base && (encl.foldl (fun (acc : Option (List Nat)) l => acc.bind (fun xs => level xs l)) (some [base])).isSome

/-- Every local mark wait of a program names planks that address the half and, with variants, a tag the core holds (R38, R324). A global
wait is not checked: R38 gives no status for one that names no plank of the crossing (DESIGN CHOICE, log entry 41). -/
def waitsOk (os : SMap Order) (half tag : Nat) (bs : List Bundle) : Bool :=
  let es := fun (role : Nat) => ((entriesAt os role half).filter (fun e => e.2.variant == 0 || e.2.variant == tag)).map (fun e => e.2.plank)
  bs.zipIdx.all (fun b => match (bMarkWait b.1) with
    | none => true
    | some f =>
      f.kind == 3 ||
      (let ps := es (if f.role then 1 else 0)
       waitAllowed (fun p => ps.contains p) bs b.2 f))

/-! ## Update unit, tag groups, ledger, variants -/

/-- LUU microcode (Tables 11.3 to 11.5). -/
def microOf (b : List Byte) : Micro :=
  let np := num b 0 1
  let at_ := 64 + 80 * np
  { progs := (List.range np).map (fun i =>
      let o := 64 + 80 * i
      { count := num b o 1, uses := num b (o + 1) 1, pass1 := num b (o + 2) 1, code := (List.range 16).map (fun k => num b (o + 16 + 4 * k) 4) }),
    masterForm := num b 1 1, momentForm := num b 2 1, betaP1 := num b 8 4, betaP2 := num b 0xC 4, p1Init := num b 0x10 4,
    p2Init := num b 0x14 4,
    sched := (List.range (min (num b 4 2) (b.length / 16))).map (fun i => (num b (at_ + 16 * i) 8, num b (at_ + 16 * i + 8) 4, num b (at_ + 16 * i + 12) 4)) }

/-- A program record meets R300 and R301. -/
def progOk (p : Prog) : Bool :=
  decide (1 ≤ p.count ∧ p.count ≤ 16) && p.uses / 8 == 0 && decide (p.pass1 ≤ p.count) && (p.pass1 == 0 || bit p.uses 2) &&
  (p.code.take p.count).all (fun w =>
    let op := bits w 31 27
    let d := bits w 26 22
    let src := match op with
      | 0 => []
      | 7 | 10 | 11 | 13 => [bits w 21 17]
      | 4 | 5 | 12 => [bits w 21 17, bits w 16 12, bits w 11 7]
      | _ => [bits w 21 17, bits w 16 12]
    let decl := fun (r : Nat) => (r != 2 || bit p.uses 0) && (r != 3 || bit p.uses 1) && (!decide (4 ≤ r ∧ r ≤ 6) || bit p.uses 2)
    decide (op ≤ 13) && (op == 0 || [1, 2, 3, 12, 13, 14, 15].contains d) && src.all decl)

/-- A microcode section meets R298 to R301. -/
def microOk (b : List Byte) : Bool :=
  let u := microOf b
  decide (1 ≤ u.progs.length ∧ u.progs.length ≤ 4 ∧ u.masterForm ≤ 2 ∧ u.momentForm ≤ 1 ∧ 1 ≤ u.sched.length ∧ u.sched.length ≤ 256) &&
  decide (64 + 80 * u.progs.length + 16 * u.sched.length ≤ b.length) && u.progs.all progOk &&
  (u.sched.zip (u.sched.drop 1)).all (fun p => decide (p.1.1 < p.2.1))

/-- Layer tag groups (Tables 11.9 and 11.10). -/
def groupsOfBytes (b : List Byte) : List TagGroup :=
  (List.range (min (num b 0 4) ((b.length - 64) / 128))).map (fun g =>
    let o := 64 + 128 * g
    { program := num b (o + 2) 1, flags := num b (o + 3) 1, initCode := num b (o + 4) 1, initERef := signed 8 (num b (o + 5) 1),
      rhoLo := num b (o + 8) 4, rhoHi := num b (o + 0xC) 4, rhoFloor := num b (o + 0x10) 4,
      ks := (List.range 16).map (fun k => num b (o + 0x20 + 4 * k) 4) })

/-- A TAG_GROUPS section meets the ranges of its tables (R308). -/
def groupsOk (b : List Byte) (progs : Option Nat) : Bool :=
  let n := num b 0 4
  let gs := groupsOfBytes b
  decide (1 ≤ n ∧ n ≤ 4096 ∧ 64 + 128 * n ≤ b.length) && decide (1 ≤ num b 4 2 ∧ num b 4 2 ≤ 512) &&
  gs.zipIdx.all (fun g => num b (64 + 128 * g.2) 2 == g.2 && decide (g.1.initCode ≤ 2 ∧ -126 ≤ g.1.initERef ∧ g.1.initERef ≤ 127) &&
    g.1.flags / 32 == 0 && (match progs with
      | some k => decide (g.1.program < k)
      | none => true))

/-- LEDGER_LAYOUT (Tables 10.11 and 10.12). -/
def ledgerOfBytes (b : List Byte) : Ledger :=
  { form := num b 0 1, escBase := (List.range 8).map (fun i => num b (8 + 8 * i) 8 % 2 ^ 42), escImages := num b 0x48 4,
    ranges := (List.range (min (num b 4 4) ((b.length - 128) / 16))).map (fun i =>
      let o := 128 + 16 * i
      { first := num b o 4, count := num b (o + 4) 4, base := num b (o + 8) 6 % 2 ^ 42, fmt := num b (o + 14) 1, owner := num b (o + 15) 1 }) }

/-- A ledger layout meets R286 for the objects of the backward orders. -/
def ledgerOk (b : List Byte) (os : SMap Order) : Bool :=
  let k := ledgerOfBytes b
  let es := (List.range 8).flatMap (fun l => (SMap.get {} os (2 * l + 1)).entries)
  decide (k.form ≤ 1 ∧ 128 + 16 * num b 4 4 ≤ b.length) && (k.form == 0 || decide (65536 ≤ k.escImages)) &&
  (k.ranges.zip (k.ranges.drop 1)).all (fun p => decide (p.1.first + p.1.count ≤ p.2.first)) &&
  k.ranges.all (fun r => decide (r.fmt ≤ 5 ∧ r.owner ≤ 7) && r.base % 64 == 0) &&
  es.all (fun e => match k.ranges.filter (fun r => decide (r.first ≤ e.object ∧ e.object < r.first + r.count)) with
    | [r] => r.fmt == e.fmt && r.owner == e.owner
    | _ => false)

/-- The variants of a VARIANT_TABLE (Table 12.2) and its assignment bytes. -/
def variantsOf (b : List Byte) (logical : Nat) : List Variant × List Nat :=
  let n := num b 0 1
  ((List.range n).map (fun i =>
      let o := 64 + 32 * i
      { tag := num b o 1, frozen := bit (num b (o + 1) 1) 0, first := num b (o + 4) 4, objects := num b (o + 8) 4, blockLen := num b (o + 12) 4,
        base := num b (o + 0x10) 8 % 2 ^ 42, copyLen := num b (o + 0x18) 8 % 2 ^ 42 }),
   ((b.drop (64 + 32 * n)).take logical).map BitVec.toNat)

/-- Whether n bytes from a stack address lie in one bay below its limit less r bytes. -/
def State.inBay (s : State) (a n r : Nat) : Bool :=
  let b := a / 2 ^ 36
  decide (b < 60) && !(s.bay b).dark && decide (a % 2 ^ 36 + n + r ≤ s.stackLimit b)

/-- A VARIANT_TABLE meets R321. -/
def State.variantsOk (s : State) (b : List Byte) (logical : Nat) : Bool :=
  let v := variantsOf b logical
  let tags := v.1.map (fun x => x.tag)
  decide (1 ≤ v.1.length ∧ v.1.length ≤ 64 ∧ 64 + 32 * v.1.length + logical ≤ b.length) &&
  (tags.zip (tags.drop 1)).all (fun p => decide (p.1 < p.2)) &&
  (List.range v.1.length).all (fun i => num b (64 + 32 * i + 1) 1 / 2 == 0) &&
  v.1.all (fun x => decide (1 ≤ x.tag ∧ x.tag ≤ 64 ∧ 1 ≤ x.objects ∧ x.objects ≤ 131072 ∧ x.objects * x.blockLen ≤ x.copyLen) &&
    x.blockLen % 64 == 0 && x.base % 64 == 0 && x.copyLen % 64 == 0 && s.inBay x.base (x.copyLen + x.objects * x.blockLen) 0) &&
  (List.range v.1.length).all (fun i => (List.range i).all (fun j =>
    let a := v.1.getD i default
    let c := v.1.getD j default
    decide (a.first + a.objects ≤ c.first ∨ c.first + c.objects ≤ a.first))) &&
  v.2.all (fun t => t == 0 || tags.contains t)

/-- The output of core p's router on the landing ring route (Table 13.7), and the input the ring's flits come from: the landing where one
attaches, else the opposite side. -/
def ringOutput (p : Nat) : Option (Nat × Nat) :=
  let col := coreCol p
  let row := coreRow p
  let via := fun (o i : Nat) => some (o, if (col = 0 ∨ col = 63) ∧ [8, 20, 27, 39].contains row then 0 else i)
  if col = 0 ∧ 8 ≤ row ∧ row < 39 then via 3 1
  else if row = 39 ∧ col < 63 then via 2 4
  else if col = 63 ∧ 8 < row ∧ row ≤ 39 then via 1 3
  else if row = 8 ∧ 0 < col then via 4 2
  else none

/-- A SLOT_TABLE's own length, and no slot on a directed link of the landing ring route (R351, R356). -/
def slotsOk (b : List Byte) (p : Nat) : Bool :=
  let owned := fun (o : Nat) => (List.range 256).any (fun i => bit (num b (0x40 + 256 * o + i) 1) 7)
  b.length == 1408 && (match ringOutput p with
    | some (o, _) => !owned o
    | none => true)

/-! ## Checks 5 to 9 for one set of sections -/

/-- Whether every section that Table 2.9 requires is present, and each section of check 5 holds its own rules. A core has slotted traffic
when its program sends some; a landing needs microcode when it has a plank order (DESIGN CHOICE, log entry 41). -/
def State.secsOk (s : State) (m : Manifest) (ss : List Section) : Bool :=
  let n := logicalOfSecs ss
  let os := ordersOf ss
  let has := fun (t i : Nat) => (findSec ss t i).isSome
  let exp := bit m.flags 1
  let used := (ss.filter (fun x => x.typ == 6)).map (fun x => x.inst / 2)
  let halves := (List.range 96).filter (fun h => !(entriesAt os 0 h).isEmpty || !(entriesAt os 1 h).isEmpty)
  let micros := (ss.filter (fun x => x.typ == 7)).map (fun x => x.bytes)
  let slots := ss.filter (fun x => x.typ == 4 && decide (x.inst < n))
  (List.range n).all (fun i => has 1 i && has 2 i && (has 4 i || !(bundlesOf ((findSec ss 1 i).getD [])).any bSlotted)) && halves.all (has 5) &&
  (exp || used.all (has 7)) && has 8 0 && has 9 0 &&
  (!bit m.flags 0 || has 10 0) && (decide (m.thinN ≤ 1) || has 11 0) && (!bit m.flags 2 || has 12 0) &&
  (placementOf ss).all (fun e => decide (e.1 ≤ 59 ∧ e.2 ≤ 47)) && micros.all (fun b => some b == micros.head? && microOk b) &&
  (match findSec ss 8 0 with
   | some b => groupsOk b (micros.head?.map (fun u => (microOf u).progs.length))
   | none => false) &&
  (match findSec ss 11 0 with
   | some b => ledgerOk b os
   | none => true) &&
  (match findSec ss 12 0 with
   | some b => !bit m.flags 2 || s.variantsOk b n
   | none => true) &&
  slots.all (fun x => slotsOk x.bytes (preferred ss x.inst)) &&
  (List.range 64).all (fun g => decide ((slots.filter (fun x => bit (num x.bytes (0x540 + g) 1) 6)).length ≤ 1)) &&
  (List.range 4).all (fun g => slots.all (fun x => num x.bytes (0x57C + g) 1 == 0))

/-- Check 7 for one set of sections. -/
def programsOk (ss : List Section) : Bool :=
  (List.range (logicalOfSecs ss)).all (fun i =>
    programOk ((findSec ss 1 i).getD []) ((findSec ss 2 i).getD []) &&
    (match findSec ss 3 i with
     | some b => (imageRecs (b.length / 16 + 1) b).isSome
     | none => true))

/-- The tags of the variant table in use. -/
def tagsOf (m : Manifest) (ss : List Section) : List Nat × List Nat :=
  if bit m.flags 2 then
    (match findSec ss 12 0 with
     | some b => let v := variantsOf b (logicalOfSecs ss); (v.1.map (fun x => x.tag), v.2)
     | none => ([], []))
  else ([], [])

/-- The variants and assignments of a set of sections (R321). -/
def variantsIn (m : Manifest) (ss : List Section) : List Variant :=
  if bit m.flags 2 then ((findSec ss 12 0).map (fun b => (variantsOf b (logicalOfSecs ss)).1)).getD [] else []

/-- The entry of every variant's object lies in the variant's range and names the working plank of copy 0 (R320, R325). -/
def variantsPlaced (m : Manifest) (ss : List Section) (os : SMap Order) : Bool :=
  let vs := variantsIn m ss
  let gs := groupsOfBytes ((findSec ss 8 0).getD [])
  let u := (ss.find? (fun x => x.typ == 7)).map (fun x => microOf x.bytes)
  (os.flatMap (fun o => o.2.entries)).all (fun e =>
    !bit m.flags 2 || e.variant == 0 || (match vs.find? (fun v => v.tag == e.variant), u with
      | some v, some u =>
        decide (v.first ≤ e.object ∧ e.object < v.first + v.objects) &&
        e.stackAddr == v.base + (e.object - v.first) * v.blockLen + (blockOffsets u (plankCols e.fmt) (stateCodes u gs (e.tagGroup % 4096))).2
      | _, _ => false))

/-- Check 8 for one set of sections. -/
def planksOk (m : Manifest) (ss : List Section) : Bool :=
  let os := ordersOf ss
  let groups := match findSec ss 8 0 with
    | some b => num b 0 4
    | none => 0
  let tags := (tagsOf m ss).1
  let P := fun (r : Nat) => if r = 0 then m.fwdPlanks else m.bwdPlanks
  (ss.filter (fun x => x.typ == 6)).all (fun x =>
    decide (x.inst < 16) && orderOk x.bytes x.inst (P (x.inst % 2)) groups (bit m.flags 1) (bit m.flags 2) tags) &&
  (List.range 2).all (fun r => (((List.range 8).flatMap (fun l => (SMap.get {} os (2 * l + r)).entries)).map
    (fun e => e.plank)).eraseDups.length == P r) &&
  ownersOk ss os && variantsPlaced m ss os && joinsOk os && (ss.filter (fun x => x.typ == 5)).all (fun x => decide (x.inst < 96) && schedOk os x.inst x.bytes)

/-- Check 9 for one set of sections, against the half of each preferred core. -/
def allWaitsOk (m : Manifest) (ss : List Section) : Bool :=
  let os := ordersOf ss
  let assign := (tagsOf m ss).2
  (List.range (logicalOfSecs ss)).all (fun i =>
    waitsOk os (coreHalf (preferred ss i)) (assign.getD i 0) (bundlesOf ((findSec ss 1 i).getD [])))

/-- An alternate's condition: kind, flags and items (R57). -/
def Manifest.condition (m : Manifest) (k : Nat) : Option (Nat × Nat × List Nat) :=
  (m.secs.find? (fun x => x.typ == 13 && x.inst == k)).map (fun x =>
    (num x.bytes 0 1, num x.bytes 1 1, (List.range (min (num x.bytes 4 2) (x.bytes.length / 2))).map (fun i => num x.bytes (8 + 2 * i) 2)))

/-- An ALT_CONDITION meets R57. -/
def conditionOk (b : List Byte) : Bool :=
  let kind := num b 0 1
  decide (1 ≤ kind ∧ kind ≤ 3 ∧ 8 + 2 * num b 4 2 ≤ b.length) &&
  (List.range (num b 4 2)).all (fun i =>
    let x := num b (8 + 2 * i) 2
    match kind with
    | 1 => decide (x / 64 ≤ 59 ∧ x % 64 ≤ 47)
    | 2 => decide (x ≤ 59)
    | _ => decide (x ≤ 7))

/-- Sections and alternates that check 5 asks about once; the microcode sections of a manifest are identical (R298). -/
def Manifest.tableOk (m : Manifest) : Bool :=
  m.secs.all (fun x => !decide (x.typ = 0 ∨ (14 ≤ x.typ ∧ x.typ < 0x8000)) || bit x.flags 0) &&
  (List.range m.secs.length).all (fun i => (List.range i).all (fun j =>
    let a := m.secs.getD i default
    let b := m.secs.getD j default
    !(a.typ == b.typ && a.inst == b.inst && a.alt == b.alt) && (a.typ != 7 || b.typ != 7 || a.bytes == b.bytes))) &&
  m.secs.all (fun x => decide (x.alt ≤ m.altCount)) && (m.secs.filter (fun x => x.typ == 13)).all (fun x => conditionOk x.bytes)

/-- The base and the alternates of a manifest. -/
def Manifest.alts (m : Manifest) : List Nat := List.range (min 255 m.altCount + 1)

/-- Check 5 for alternate k: its condition, and its count under MAP_PRESERVING (R555). -/
def Manifest.altOk (m : Manifest) (k : Nat) : Bool :=
  k == 0 || (match m.condition k with
    | none => false
    | some c => !bit c.2.1 0 || decide (logicalOfSecs (m.effective k) = m.logical))

/-- Check 6 of Table 2.14. -/
def Manifest.fieldsOk (m : Manifest) : Bool :=
  let pl := placementOf (m.effective 0)
  decide (1 ≤ m.thinN ∧ m.thinN ≤ 256 ∧ 1 ≤ m.logical ∧ m.logical ≤ 2880 ∧ m.altCount ≤ 255) && m.bayCores.all (fun n => decide (n ≤ 48)) &&
  m.bayCores.sum == m.logical && m.flags / 8 == 0 && !(bit m.flags 1 && bit m.flags 2) &&
  (List.range 60).all (fun b => (pl.filter (fun e => e.1 == b)).length == m.bayCores.getD b 0)

/-! ## Placement and fit (R31, R56, R59, R399) -/

/-- Whether a core in half h2 is eligible for a role whose core lies in half h1 (R436). -/
def eligible (ss : List Section) (h1 h2 : Nat) : Bool :=
  let os := ordersOf ss
  let sc := schedsOf ss
  let tap := fun (h : Nat) => (SMap.get none sc h).map (fun s => (s.tapBase, s.tapSlots))
  (List.range 2).all (fun r => (entriesAt os r h1).all (fun e => addresses e.1 e.2 h2)) && tap h1 == tap h2

/-- The substitute for core p among the candidate cores: in p's half the nearest in tap position, ties to the lower; else the lowest
index (R56, R437). -/
def nearestOf (p : Nat) (cands : List Nat) : Option Nat :=
  let dist := fun (q : Nat) => if tapPos p ≤ tapPos q then tapPos q - tapPos p else tapPos p - tapPos q
  let same := cands.filter (fun q => coreHalf q == coreHalf p)
  let better := fun (a b : Nat) => decide (dist b < dist a) || (dist b == dist a && decide (tapPos b < tapPos a))
  match same with
  | q :: qs => some (qs.foldl (fun a b => if better a b then b else a) q)
  | [] => cands.foldl (fun (a : Option Nat) b => match a with
      | none => some b
      | some x => if coreIdx b < coreIdx x then some b else some x) none

/-- Places the logical cores in ascending order (R56); none when one has no eligible substitute. -/
def State.placeAll (s : State) (ss : List Section) : Option (List (Nat × Nat)) :=
  (List.range (logicalOfSecs ss)).foldl (fun (acc : Option (List (Nat × Nat))) n =>
    acc.bind (fun pl =>
      let p := preferred ss n
      let held := fun (q : Nat) => pl.any (fun e => e.2 == q)
      if !s.fenced p && !held p then some (pl ++ [(n, p)])
      else
        let cands := ((List.range 48).map (fun i => coreBay p * 48 + i)).filter (fun q =>
          !s.fenced q && !held q && eligible ss (coreHalf p) (coreHalf q))
        (nearestOf p cands).map (fun q => pl ++ [(n, q)]))) (some [])

/-- The stack ranges that a manifest's sections and the job's carry list place, as (address, bytes) (R31). A RESIDENT_MAP's layout is not
given, so resident planks are taken from the plank orders; addresses that programs form at run time are not known here (log entry 41). -/
def State.residentData (s : State) (m : Manifest) (ss : List Section) : List (Nat × Nat) :=
  let os := ordersOf ss
  let es := (List.range 16).flatMap (fun i => (SMap.get {} os i).entries)
  let planks := ((es.filter (fun e => e.source == 1 && e.variant == 0)).map (fun e => (e.stackAddr, 65536 + scaleArea e.fmt))).eraseDups
  let led := match findSec ss 11 0 with
    | some b =>
      let k := ledgerOfBytes b
      if m.thinN ≤ 1 then [] else
        k.ranges.map (fun r => (r.base, r.count * 128 * plankCols r.fmt * (if k.form = 1 then 16 else 4))) ++
        (if k.form = 1 then k.escBase.map (fun a => (a, 40 * k.escImages)) else [])
    | none => []
  let var := (variantsIn m ss).flatMap (fun v => [(v.base, v.objects * v.blockLen), (v.base + v.copyLen, v.objects * v.blockLen)])
  let live := (List.range 60).filter (fun b => !(s.bay b).dark)
  let fmt := match findSec ss 8 0 with
    | some b =>
      let gs := groupsOfBytes b
      live.flatMap (fun y => (y * 2 ^ 36 + num b 0x10 8 % 2 ^ 42, 16 * gs.length) ::
        (if gs.any (fun g => bit g.flags 3) then [(y * 2 ^ 36 + num b 8 8 % 2 ^ 42, gs.length * 48 * 128)] else []))
    | none => []
  planks ++ led ++ var ++ fmt ++ s.job.carry

/-- Inserts a range by its address. -/
def insRange (r : Nat × Nat) : List (Nat × Nat) → List (Nat × Nat)
  | [] => [r]
  | x :: xs => if r.1 ≤ x.1 then r :: x :: xs else x :: insRange r xs

/-- Bytes that ranges cover together, a byte in several counted once. -/
def coveredBytes (rs : List (Nat × Nat)) : Nat :=
  ((rs.foldr insRange []).foldl (fun (a : Nat × Nat) r => (a.1 + (r.1 + r.2 - max a.2 r.1), max a.2 (r.1 + r.2))) (0, 0)).1

/-- R31 and R399 hold in every bay. -/
def State.residentOk (s : State) (m : Manifest) (ss : List Section) : Bool :=
  let rs := (s.residentData m ss).filter (fun r => r.2 != 0)
  let reserve := 5 * 2 ^ 30
  rs.all (fun r => s.inBay r.1 r.2 reserve) &&
  (List.range 60).all (fun b =>
    let n := coveredBytes (rs.filter (fun r => r.1 / 2 ^ 36 == b))
    n == 0 || decide (n + reserve ≤ s.stackLimit b))

/-- The working planks of one variant copy, their scale areas among them, stay within 4 GiB (R322, R375). -/
def variantSizeOk (m : Manifest) (ss : List Section) : Bool :=
  let es := (ordersOf ss).flatMap (fun o => o.2.entries)
  (variantsIn m ss).all (fun v =>
    let scales := ((es.filter (fun e => e.variant == v.tag)).map (fun e => (e.object, scaleArea e.fmt))).eraseDups
    decide (v.objects * 65536 + (scales.map (fun e => e.2)).sum ≤ 4 * 2 ^ 30))

/-- Unfenced cores of a bay: the zero bits of FENCE_LO and FENCE_HI (Table 17.13). -/
def State.goodCores (s : State) (b : Nat) : Nat :=
  let zeros := fun (w n : Nat) => ((List.range n).filter (fun i => !bit w i)).length
  zeros (s.reg (hubReg b 0x504)).toNat 32 + zeros (s.reg (hubReg b 0x508)).toNat 16

/-- Whether a set of sections fits the module, with the placement it gives (R59); paired lets a working landing stand for its pair (R22). -/
def State.fitOf (s : State) (m : Manifest) (ss : List Section) (paired : Bool := false) : Option (List (Nat × Nat)) :=
  let pl := placementOf ss
  let cores := fun (b : Nat) => (pl.filter (fun e => e.1 == b)).length
  let bays := (List.range 60).filter (fun b => decide (0 < cores b))
  let landings := (List.range 8).filter (fun l => (findSec ss 6 (2 * l)).isSome || (findSec ss 6 (2 * l + 1)).isSome)
  if bays.all (fun b => !(s.bay b).dark && decide (cores b + max m.minSpares (s.fld (hubReg b 0x500) 29 25) ≤ s.goodCores b)) &&
     landings.all (fun l => s.landWorks l || (paired && s.landWorks (pairOf l))) && s.residentOk m ss && variantSizeOk m ss then s.placeAll ss
  else none

/-- Whether the condition of alternate k matches: every item is lost, a core fenced, a bay dark, a landing not working (R57). -/
def State.condMatches (s : State) (m : Manifest) (k : Nat) : Bool := match m.condition k with
  | none => false
  | some c => c.2.2.all (fun x => match c.1 with
    | 1 => s.fenced (x / 64 * 48 + x % 64)
    | 2 => (s.bay x).dark
    | _ => !s.landWorks x)

/-- The base when it fits, else the first alternate in ascending index whose condition matches and which fits (R59). -/
def State.chooseAlt (s : State) (m : Manifest) : Option (Nat × List (Nat × Nat)) :=
  match s.fitOf m (m.effective 0) with
  | some pl => some (0, pl)
  | none => ((m.alts.drop 1).findSome? (fun k =>
      if s.condMatches m k then (s.fitOf m (m.effective k)).map (fun pl => (k, pl)) else none))

/-- The manifest or alternate as loaded, its sections parsed. -/
def loadedOf (m : Manifest) (k : Nat) (pl : List (Nat × Nat)) : Loaded :=
  let ss := m.effective k
  let n := logicalOfSecs ss
  let tg := (findSec ss 8 0).getD []
  let vt := if bit m.flags 2 then (findSec ss 12 0).map (fun b => variantsOf b n) else none
  { man := m, alt := k, logical := n, place := pl, orders := ordersOf ss, scheds := schedsOf ss,
    micro := if bit m.flags 1 then none else ((ss.find? (fun x => x.typ == 7)).map (fun x => microOf x.bytes)),
    groups := groupsOfBytes tg, zeroRunK := num tg 4 2, tailLimit := num tg 6 2, statsOff := num tg 8 8 % 2 ^ 42,
    fmtOff := num tg 0x10 8 % 2 ^ 42,
    ledger := if m.thinN ≤ 1 then none else (findSec ss 11 0).map ledgerOfBytes,
    variants := (vt.map (fun v => v.1)).getD [], assign := (vt.map (fun v => v.2)).getD [],
    segs := (List.range n).foldl (fun t i => SMap.set [] t i (segsOf ((findSec ss 2 i).getD []))) [] }

/-- Runs the checks of Table 2.14 on an image of a command's length, in order: the first failing status, or what is loaded (R58, R59). -/
def State.checkManifest (s : State) (bs : List Byte) (len : Nat) : Except Nat Loaded :=
  if bs.take 8 ≠ [0x57, 0x52, 0x58, 0x4D, 0x41, 0x4E, 0x49, 0x46] then .error stMagic
  else if num bs 8 2 ≠ 1 ∨ 3 < num bs 0xA 2 then .error stVersion
  else if !layoutOk bs len then .error stLayout
  else if !digestOk bs then .error stDigest
  else
    let m := manifestOf bs
    let sets := m.alts.map m.effective
    if !m.tableOk || !m.alts.all m.altOk || !sets.all (s.secsOk m) || logicalOfSecs (m.effective 0) != m.logical then .error stSection
    else if !m.fieldsOk then .error stField
    else if !sets.all programsOk then .error stProgram
    else if !sets.all (planksOk m) then .error stPlankOrder
    else if !sets.all (allWaitsOk m) then .error stWait
    else match s.chooseAlt m with
      | none => .error stNoFit
      | some (k, pl) => .ok (loadedOf m k pl)

/-- Latency bytes of a stepping (Table 2.13). -/
def latencies (stepping : Nat) : List Nat := if stepping = 1 then [14, 6, 40, 9, 11, 128] else [11, 5, 36, 9, 11, 128]

end Sys2Proof.Machine
end

