-- ==== Sys2Proof/Machine/Load.lean ====
section
/-! DEFINITION. What loading a manifest or an alternate writes (R62, R168, R323, R346, R351, R352, R361), barrier counters (R361 to R364),
escape tables (R353), the sync network's reach (R360) and the end-of-service floor (R10, R11). -/

namespace Sys2Proof.Machine

/-- The active and standby root hubs' bays (Table 13.15). -/
def State.rootBay (s : State) : Nat := s.fld (gloReg 0x30C) 5 0
def State.standbyBay (s : State) : Nat := s.fld (gloReg 0x30C) 13 8

/-! ## Barrier counters (R361) -/

/-- The key of a hub's counter; hub 60 stands for the root hubs. -/
def ctrKey (hub ctr : Nat) : Nat := hub * 64 + ctr
def State.bar (s : State) (hub ctr : Nat) : BarSt := SMap.get {} s.bars (ctrKey hub ctr)
/-- Stores a counter; both root hubs keep the same root counters (R363). -/
def State.setBar (s : State) (hub ctr : Nat) (b : BarSt) : State :=
  let s := { s with bars := SMap.set {} s.bars (ctrKey hub ctr) b }
  if hub = 60 then { s with barsSb := SMap.set {} s.barsSb ctr b } else s

/-- The units a hub sends BAR_DONE to: its bay's cores, or every core and landing (landing l is unit 2880 + l). -/
def barUnits (hub : Nat) : List Nat := if hub = 60 then List.range 2888 else (List.range 48).map (fun i => hub * 48 + i)

/-- A counter that its arrivals complete: A returns to 0, D rises, and BAR_DONE goes out with D (R361). Scope 1 needs an active root. -/
def State.barCheck (s : State) (hub ctr : Nat) : State :=
  let b := s.bar hub ctr
  if b.p = 0 ∨ b.arr.length < b.p then s
  else
    let d := (b.d + 1) % 65536
    let s := s.setBar hub ctr { b with arr := b.arr.drop b.p, d := d }
    if hub = 60 ∧ !s.bayUp s.rootBay then s
    else { s with sn := s.sn ++ (barUnits hub).map (fun u =>
        ({ typ := 4, head := u, a := (if hub = 60 then 1 else 0), b := ctr, c := d } : Token)) }

/-- The counters on which a role's program holds a BARA: (scope, counter) (R361). -/
def State.roleBars (s : State) (n : Nat) : List (Bool × Nat) := match s.job.loaded with
  | none => []
  | some m => ((bundlesOf ((findSec (m.man.effective m.alt) 1 n).getD [])).filterMap (fun b => match bCtOp b with
      | some (.bara _ _ f) => some (f.scope, f.bctr.toNat)
      | _ => none)).eraseDups

/-- Adds k to, or takes it from, the participants of a role's counters at a core (R361, R362). -/
def State.roleParts (s : State) (p n : Nat) (add : Bool) : State :=
  forAll (s.roleBars n) (fun c s =>
    let hub := if c.1 then 60 else coreBay p
    let b := s.bar hub c.2
    (s.setBar hub c.2 { b with p := if add then b.p + 1 else b.p - 1 })) s

/-- A fenced core leaves the counters of its bay hub and of both root hubs: its open arrivals and its roles (R362). -/
def State.dropFromBars (s : State) (p : Nat) : State :=
  let s := forAll (s.core p).roles (fun n s => s.roleParts p n false) s
  let keys := (s.bars.map (fun e => e.1)).filter (fun k => k / 64 == coreBay p || k / 64 == 60)
  forAll keys (fun k s =>
    let b := s.bar (k / 64) (k % 64)
    (s.setBar (k / 64) (k % 64) { b with arr := b.arr.filter (fun w => w != p) }).barCheck (k / 64) (k % 64)) s

/-! ## Escape tables (R353) -/

/-- Neighbour of core p at a router output (1 north, 2 east, 3 south, 4 west). -/
def meshNbr (p o : Nat) : Option Nat :=
  let c := coreCol p
  let r := coreRow p
  match o with
  | 1 => if r = 0 then none else coreAt c (r - 1)
  | 2 => if c = 63 then none else coreAt (c + 1) r
  | 3 => if r = 47 then none else coreAt c (r + 1)
  | 4 => if c = 0 then none else coreAt (c - 1) r
  | _ => none

/-- The output that leads from p to its neighbour q. -/
def outTo (p q : Nat) : Nat := ((List.range 5).find? (fun o => meshNbr p o == some q)).getD 0

/-- Whether output o of router p is fenced (Table 13.12). -/
def State.outFenced (s : State) (p o : Nat) : Bool := bit (s.reg (coreReg p 8 0)).toNat o
/-- Whether a router is fenced: its bay is dark, or every neighbour fences the output that leads to it. -/
def State.routerFenced (s : State) (p : Nat) : Bool :=
  (s.bay (coreBay p)).dark ||
  ((List.range 5).filterMap (fun o => (meshNbr p o).map (fun q => s.outFenced q (outTo q p)))).all (fun x => x)

/-- The sound neighbours of router p that a set of routers, one bit each, leaves out. -/
def newNbrs (ok : Nat → Bool) (seen p : Nat) : List Nat :=
  ((List.range 5).filterMap (fun o => meshNbr p o)).filter (fun q => !bit seen q && ok q)

/-- The routers joined to the tree in n further choices: each takes the least weighted link from the tree to a sound router outside it.
seen has a bit for each router of the tree; links are the links that leave it. -/
def growTree (ok : Nat → Bool) (gen : Nat) : Nat → Nat → List (Nat × Nat) → SMap Nat → SMap Nat
  | 0, _, _, par => par
  | n + 1, seen, links, par =>
    match links.filter (fun l => !bit seen l.2) with
    | [] => par
    | l :: ls =>
      let best := ls.foldl (fun (a : Nat × Nat) b => if Config.linkWeight gen b.1 b.2 < Config.linkWeight gen a.1 a.2 then b else a) l
      let seen := seen ||| 2 ^ best.2
      growTree ok gen n seen ((newNbrs ok seen best.2).map (fun q => (best.2, q)) ++ l :: ls) (SMap.set 0 par best.2 (best.1 + 1))

/-- Firmware writes every escape table on a spanning tree of the sound routers, rooted at the lowest sound router of the active root
hub's bay (R353). -/
def State.writeEscapes (s : State) : State :=
  let ok := fun (p : Nat) => !s.routerFenced p
  let root := (((List.range 48).map (fun i => s.rootBay * 48 + i)).find? ok).getD (s.rootBay * 48)
  { s with
    escParent := growTree ok s.freeCtr 2880 (2 ^ root) ((newNbrs ok (2 ^ root) root).map (fun q => (root, q))) [], escW := [], freeCtr := s.freeCtr + 1 }
    |>.cnNote s.mpNo (coreReg 2879 8 0x4B3C) 1 false

/-- A router and its ancestors in the escape tree, nearest first. -/
def escAncestors (par : SMap Nat) : Nat → Nat → List Nat
  | 0, p => [p]
  | n + 1, p => match SMap.get 0 par p with
    | 0 => [p]
    | k + 1 => p :: escAncestors par n k

/-- The escape output at router p for destination core d: down toward d inside p's subtree, else up to p's parent; 0 is local. -/
def State.escTree (s : State) (p d : Nat) : Nat :=
  if p = d then 0
  else
    let up := escAncestors s.escParent 2880 d
    match up.findIdx? (fun q => q == p) with
    | some (i + 1) => outTo p (up.getD i d)
    | _ => match SMap.get 0 s.escParent p with
      | 0 => 0
      | k + 1 => outTo p k

/-- A word of a router's escape table as read (core block 8, offsets 0x4000 to 0x4B3F). -/
def State.escWord (s : State) (p w : Nat) : W32 :=
  match SMap.get none s.escW (p * 720 + w) with
  | some v => v
  | none => BitVec.ofNat 32 (((List.range 4).map (fun i => s.escTree p (4 * w + i) * 256 ^ i)).sum)

/-- The escape output that router p's table gives for core d. -/
def State.escOut (s : State) (p d : Nat) : Nat := bits (s.escWord p (d / 4)).toNat (8 * (d % 4) + 2) (8 * (d % 4))

/-! ## Reach of the sync network (R360) -/

/-- The next output by dimension order for a flit from src to dst at core p; by column first when the row-first turn would lie in an
absent corner (R352). -/
def dimRoute (src p dst : Nat) : Nat :=
  let c := coreCol p
  let r := coreRow p
  let tc := coreCol dst
  let tr := coreRow dst
  let ew := if c < tc then 2 else 4
  let ns := if r < tr then 3 else 1
  if p = dst then 0
  else if (coreAt tc (coreRow src)).isNone then (if r ≠ tr then ns else ew)
  else if c ≠ tc then ew else ns

/-- The node a unit attaches to: a core's own, a landing's ring attach router (unit 2880 + l). -/
def snNode (u : Nat) : Nat :=
  if u < 2880 then u else
  let l := u - 2880
  (coreAt (if l < 4 then 0 else 63) (([8, 20, 27, 39][l % 4]?).getD 0)).getD 0

/-- The set of nodes, one bit each, within n hops of a set over nodes that ok admits: seen so far, and those reached last. -/
def snReach (ok : Nat → Bool) : Nat → Nat → List Nat → Nat
  | 0, seen, _ => seen
  | n + 1, seen, rim =>
    let r := rim.foldl (fun (a : Nat × List Nat) p =>
      let new := newNbrs ok a.1 p
      (new.foldl (fun m q => m ||| 2 ^ q) a.1, new ++ a.2)) (seen, [])
    snReach ok n r.1 r.2

/-- The next node toward root hub bay r from node p under the SN route tables last written: in dimension order, or, where a fenced router
lies on that way, the first neighbour on a shortest sound way (R360; the choice among those is a DESIGN CHOICE, log entry 41). -/
def State.snNext (s : State) (r p : Nat) : Option Nat :=
  let ok := fun (q : Nat) => !bit s.snFenced q
  let root := r * 48
  let dim := (List.range 112).foldl (fun (a : Option (List Nat)) _ => a.bind (fun w => match w with
    | [] => none
    | q :: _ => if q = root then some w else match meshNbr q (dimRoute p q root) with
      | some n => if ok n then some (n :: w) else none
      | none => none)) (some [p])
  let dist := fun (q : Nat) => (List.range 2880).find? (fun n => bit (snReach ok n (2 ^ root) [root]) q)
  match dim with
  | some w => (w.reverse.drop 1).head?
  | none => (List.range 5).findSome? (fun o => match meshNbr p o with
      | some q => if ok q ∧ (dist q).map (fun n => n + 1) = dist p then some q else none
      | none => none)

/-- Firmware writes the SN route tables around the routers that are fenced, toward both root hubs; a detour that makes a route to one of
them longer than 112 hops raises SN_PATH_LONG, once (R360, R364). -/
def State.checkPaths (s : State) : State :=
  let s := { s with snFenced := ((List.range 2880).filter s.routerFenced).foldl (fun n p => n ||| 2 ^ p) 0 }
  if s.pathLong || s.snFenced == 0 then s
  else
    let ok := fun (p : Nat) => !bit s.snFenced p
    let units := (List.range 2880).filter s.coreUp ++ ((List.range 8).filter s.linkUp).map (fun l => snNode (2880 + l))
    let short := fun (b : Nat) => units.all (bit (snReach ok 112 (2 ^ (b * 48)) [b * 48]))
    let sb := bit (s.reg (gloReg 0x30C)).toNat 14
    if short s.rootBay && (!sb || short s.standbyBay) then s else { s.raise 0x0608 [] with pathLong := true }

/-- The active MP rewrites escape tables and SN routes; with none, the next one does (R480, R482). -/
def State.mpRewrite (s : State) : State := if s.active.isSome then (s.writeEscapes).checkPaths else { s with mpEsc := true }

/-! ## End of service (R10, R11) -/

/-- Usable cores, stack capacity in GiB and working landings (R10). Nothing fences a landing: one whose link is trained counts, also after a
fault of it has been reported (DESIGN CHOICE, log entry 41). -/
def State.usableCores (s : State) : Nat := ((List.range 60).map s.goodCores).sum
def State.usableStack (s : State) : Nat := ((List.range 60).map (fun b => if (s.bay b).dark then 0 else s.fld (hubReg b 0x400) 6 0)).sum
def State.workingLandings (s : State) : Nat := ((List.range 8).filter s.linkUp).length

/-- Evaluates the floor; the event is raised when it is first crossed, and the condition stays latched (R11, Table 17.19). -/
def State.floorCheck (s : State) : State :=
  let c := decide (s.usableCores < 1440)
  let k := decide (s.usableStack < 1920)
  let l := decide (s.workingLandings < 2)
  if !(c || k || l) then s
  else
    let old := bit (s.reg (gloReg 0x510)).toNat 0
    let s := s.orReg (gloReg 0x510) ((if c then 2 else 0) ||| (if k then 4 else 0) ||| (if l then 8 else 0) ||| 1)
    if old then s else s.raise 0x0606 []

/-- Evaluates the floor in service; a start evaluates it in order 9 (Table 21.1). -/
def State.endOfService (s : State) : State := if s.phase = 0 then s.floorCheck else s

/-! ## Loading -/

/-- The CORE_IMAGE records of a role. -/
def imageOf (ss : List Section) (n : Nat) : List (Nat × List Byte) := match findSec ss 3 n with
  | none => []
  | some b => (imageRecs (b.length / 16 + 1) b).getD []

/-- Zeroes a core's scratchpad and sill and writes its CORE_IMAGE (R168); bytes of a record beyond the scratchpad are dropped (DESIGN CHOICE,
log entry 41). -/
def Core.writeImage (c : Core) (recs : List (Nat × List Byte)) : Core :=
  { c with spad := recs.foldl (fun m r => Mem.write m r.1 (r.2.take (spadTop - r.1))) [], sill := [] }

/-- Writes a logical core's entry into the maps of every router (R352). -/
def State.writeMap (s : State) (n p : Nat) : State :=
  upTo 2880 (fun q s => s.fldMp (coreReg q 8 (0x2000 + 4 * (n / 2))) (16 * (n % 2) + 15) (16 * (n % 2)) (physCode p)) s

/-- TAP_CTRL: a TAP_SLOTS outside 2 to 8 keeps its old value; a slot area not wholly below 0xC0_0000 voids the whole write (R80). -/
def State.writeTapCtrl (s : State) (p : Nat) (v : W32) : State :=
  let a := coreReg p 7 0
  let slots := if 2 ≤ field v 15 12 ∧ field v 15 12 ≤ 8 then field v 15 12 else s.fld a 15 12
  let base := field v 11 0
  if base * 4096 + slots * slotBytes ≤ spadTop then s.setReg a (BitVec.ofNat 32 (base + 4096 * slots)) else s

/-- TAP_CTRL of a core from the girt schedule of its half, written as by any master (R80, R346). -/
def State.writeTap (s : State) (p : Nat) (m : Loaded) : State := match SMap.get none m.scheds (coreHalf p) with
  | none => s
  | some sc => (s.writeTapCtrl p (BitVec.ofNat 32 (sc.tapBase + 4096 * sc.tapSlots))).cnNote s.mpNo (coreReg p 7 0) 1 false

/-- Places role n on core p, switched on and stopped first (R85, R473): instruction store, TAP_CTRL, VARIANT_ASSIGN, DSIS_STATUS, the maps
and the barrier counts (R62, R323, R346, R352, R361). -/
def State.placeRole (s : State) (m : Loaded) (n p : Nat) : State :=
  let ss := m.man.effective m.alt
  let s := (s.setFld (coreReg p 0 0) 0 0 0).setFld (coreReg p 0 0x80) 1 0 0
  let s := s.onCore p (fun c => { c with istore := Mem.write c.istore 0 ((findSec ss 1 n).getD []), roles := [n], curRole := some n })
  let s := s.onBay (coreBay p) (fun y => { y with powered := insNat y.powered (coreIdx p) })
  let s := (s.writeTap p m).fldMp (coreReg p 0 0x60) 31 0 (m.assign.getD n 0)
  (s.writeMap n p).roleParts p n true

/-- Writes a SLOT_TABLE section into the router of the core that PLACEMENT names (R351). -/
def State.writeSlots (s : State) (ss : List Section) (n : Nat) : State := match findSec ss 4 n with
  | none => s
  | some b =>
    let p := preferred ss n
    upTo 336 (fun i s => s.regBy s.mpNo (coreReg p 8 (0x1000 + 4 * i)) (BitVec.ofNat 32 (num b (0x40 + 4 * i) 4))) s

/-- Spares of a bay are held switched off while SPARES_COLD is 1 (R473). -/
def State.coldSpares (s : State) (b : Nat) : State :=
  if bit (s.reg (hubReg b 0x614)).toNat 24 then
    s.onBay b (fun y => { y with powered := y.powered.filter (fun i => !(s.core (b * 48 + i)).roles.isEmpty) })
  else s

/-- Counts the double sisters of a bay into its hub and FENCE_LAST.DOUBLES (R438, Table 17.14). -/
def State.countDoubles (s : State) (b : Nat) : State :=
  let n := ((List.range 48).filter (fun i => !s.fenced (b * 48 + i) && (s.core (b * 48 + i)).stored.isSome)).length
  (s.onBay b (fun y => { y with doubles := n })).setFld (hubReg b 0x50C) 14 11 n

/-- DSIS_HALVES of the landing that serves half h: whether the half holds a double sister (R441, Table 17.16). -/
def State.showDouble (s : State) (h : Nat) : State :=
  let on := (halfCores h).any (fun p => !s.fenced p && (s.core p).stored.isSome)
  s.setFld (landReg (halfLanding h) 0x710) (h % 48 % 12) (h % 48 % 12) (if on then 1 else 0)

/-- Takes the second role from every core: none is a double sister any more (R438). -/
def State.endDoubles (s : State) : State :=
  let ps := (s.cores.filter (fun e => e.2.stored.isSome)).map (fun e => e.1)
  let s := forAll ps (fun p s => (s.onCore p (fun c => { c with stored := none })).setFld (coreReg p 0 0x80) 1 0 0) s
  forAll ps (fun p s => (s.countDoubles (coreBay p)).showDouble (coreHalf p)) s

/-- With a job on, the resident planks whose place is new, or was lost, count as of another version until a commit, and before its start
those that were lost (R29, R30; DEDUCED, log entry 41). -/
def State.movePlanks (s : State) (m : Loaded) : State :=
  let now := ((m.orders.flatMap (fun o => o.2.entries)).filter (fun e => e.source == 1 && e.variant == 0)).map (fun e => (e.object, e.stackAddr))
  let moved := (now.filter (fun e => s.residentAt e.1 != some e.2 || s.job.lostPlanks.contains e.1)).map (fun e => e.1)
  s.onJob (fun j => { j with lostPlanks := [], overwritten := (if 2 ≤ j.st then moved else moved.filter j.lostPlanks.contains).foldl insNat (if j.st = 0 then [] else j.overwritten) })

/-- Whether an alternate has a CORE_IMAGE of its own for role n. -/
def Loaded.ownImage (m : Loaded) (n : Nat) : Bool := m.alt != 0 && m.man.secs.any (fun x => x.alt == m.alt && x.typ == 3 && x.inst == n)

/-- Whether a role keeps its memories over the loading of an alternate: it stays on its core, and neither the alternate nor the one it
follows replaces its CORE_IMAGE (R168). -/
def State.keepsImage (s : State) (m : Loaded) (e : Nat × Nat) : Bool := match s.job.loaded with
  | some o => o.place.contains e && !m.ownImage e.1 && !o.ownImage e.1
  | none => false

/-- Installs a checked manifest, or in a job an alternate (alt): roles with their images, maps, slot tables, barrier counts and the hubs'
frame counters (R62, R168, R350); a core left without a role stops. -/
def State.install (s : State) (m : Loaded) (alt : Bool) : State :=
  let ss := m.man.effective m.alt
  let kept := m.place.filter (fun e => alt && s.keepsImage m e)
  let s := ({ s with bars := [], barsSb := [] }).endDoubles
  let s := s.movePlanks m
  let s := upTo 2880 (fun p s => if (s.core p).roles.isEmpty then s else s.onCore p (fun c => { c with roles := [], curRole := none })) s
  let s := s.onJob (fun j => { j with loaded := some m })
  let s := forAll m.place (fun e s => 
    let s := s.placeRole m e.1 e.2
    if kept.contains e then s else s.onCore e.2 (fun c => c.writeImage (imageOf ss e.1))) s
  let s := upTo 2880 (fun p s => if s.running p ∧ (s.core p).roles.isEmpty then s.setFld (coreReg p 0 0) 0 0 0 else s) s
  let s := forAll (List.range m.logical) (fun n s => s.writeSlots ss n) s
  upTo 60 (fun b s => (s.onBay b (fun y => { y with slot := 0 })).coldSpares b) s

/-- LATENCY_MISMATCH when the manifest's latencies differ from those of the stepping in hand (R60). -/
def State.latencyCheck (s : State) (m : Manifest) : State := if m.lat.take 6 == latencies s.stepping then s else s.raise 0x0108 []

end Sys2Proof.Machine
end

