-- ==== Sys2Proof/Machine/Pace.lean ====
section
/-! DEFINITION. Pace ceilings and pace changes of a bay (R463, R464, R466, Tables 18.5, 18.6, 18.11, 18.12). -/

namespace Sys2Proof.Machine

/-- PACE_STATUS and PACE_CTRL of a bay. -/
def paceStat (b : Nat) : Nat := hubReg b 0x604
def paceCtrl (b : Nat) : Nat := hubReg b 0x600

/-- The pace that the five ceilings of a bay allow: the slowest of them (R463). -/
def State.paceWant (s : State) (b : Nat) : Nat :=
  [s.fld (paceStat b) 3 2, s.fld (paceCtrl b) 1 0, s.fld (paceStat b) 5 4, s.fld (paceStat b) 7 6, s.fld (paceStat b) 9 8].foldl max 0

/-- The value of a ceiling of a bay: 0 job pace, 1 host, 2 phase, 3 thermal, 4 module (Table 18.5). -/
def State.ceilOf (s : State) (b c : Nat) : Nat := match c with
  | 0 => s.fld (paceStat b) 3 2
  | 1 => s.fld (paceCtrl b) 1 0
  | 2 => s.fld (paceStat b) 5 4
  | 3 => s.fld (paceStat b) 7 6
  | _ => s.fld (paceStat b) 9 8

/-- The ceiling that sets a bay's new pace: the one that moved last when it rises, or is as low as the pace; else the first that is as low. -/
def State.paceSetter (s : State) (b moved : Nat) : Nat :=
  let w := s.paceWant b
  if w < s.fld (paceStat b) 1 0 ∨ s.ceilOf b moved = w then moved else ((List.range 5).find? (fun c => s.ceilOf b c == w)).getD moved

/-- A ceiling has moved: a change toward the ceilings starts unless one is in progress (R463, R464). -/
def State.repace (s : State) (b ceil : Nat) : State :=
  let s := s.onBay b (fun y => { y with paceMove := ceil })
  if bit (s.reg (paceStat b)).toNat 10 ∨ s.paceWant b = s.fld (paceStat b) 1 0 then s
  else
    let w := s.paceWant b
    let k := s.paceSetter b ceil
    (s.setFld (paceStat b) 10 10 1).onBay b (fun y => { y with target := w, paceBy := k })

/-- Sets one ceiling field of PACE_STATUS: its low bit and the ceiling's number. -/
def State.setCeil (s : State) (b lo ceil v : Nat) : State :=
  if s.fld (paceStat b) (lo + 1) lo = v then s else (s.setFld (paceStat b) (lo + 1) lo v).repace b ceil

/-- The job pace of every bay (Table 18.5). -/
def State.setJobPace (s : State) (v : Nat) : State := upTo 60 (fun b s => s.setCeil b 2 0 v) s

/-- The phase ceiling of Table 18.6, none when the bay trips: the rail that fails. -/
def phaseCeil (w ws : Nat) : Option Nat :=
  let v := if 14 ≤ w then some 0 else if 12 ≤ w then some 1 else if 9 ≤ w then some 2 else if 6 ≤ w then some 3 else none
  let r := if 3 ≤ ws then some 0 else if ws = 2 then some 1 else none
  match v, r with
  | some a, some b => some (max a b)
  | _, _ => none

/-- I_lim of a bay in A (R466). -/
def iLim (w : Nat) : Nat := 35 * min w 14

/-- HDR_STATUS of a bay: the oldest switch-on in progress (Table 18.17). -/
def State.showHdr (s : State) (b : Nat) : State :=
  let y := s.bay b
  match y.hdr with
  | [] => s.setFld (hubReg b 0x618) 7 0 0
  | (i, _) :: _ => s.setFld (hubReg b 0x618) 7 0 (i + 64 + (if y.hdrQuarter.contains i then 128 else 0))

/-- GUARD of PACE_STATUS: the current guard is engaged by a sample, a failure or a quarter stage (R467, R471). -/
def State.showGuard (s : State) (b : Nat) : State :=
  s.setFld (paceStat b) 11 11 (if (s.bay b).guardCur || !(s.bay b).guardHdr.isEmpty then 1 else 0)

/-! ## Clock sources (R475, R476) -/

/-- CLK_STATUS of a bay (Table 18.21). -/
def clkStat (b : Nat) : Nat := hubReg b 0x628

/-- Whether source code k of bay b exists: a present neighbour that is not dark, or the reference in bays 25 and 34. -/
def State.clkSource (s : State) (b k : Nat) : Bool :=
  if k = 4 then b == 25 || b == 34
  else match bayNbr b k with
    | some n => decide (k < 4) && !(s.bay n).dark
    | none => false

/-- The sources of a bay's list, highest priority first (Table 18.20). -/
def State.clkList (s : State) (b : Nat) : List Nat := (List.range 4).map (fun i => s.fld (hubReg b 0x624) (3 * i + 2) (3 * i))

/-- A bay runs in holdover. -/
def State.holdOver (s : State) (b : Nat) : State := (s.setFld (clkStat b) 3 3 0).setFld (clkStat b) 4 4 1

/-- Locks a bay to the first working source of its list, or leaves it in holdover; true when it has a source. -/
def State.lockClk (s : State) (b : Nat) : Bool × State :=
  match (s.clkList b).find? (fun k => s.clkSource b k && !(s.bay b).lostSrc.contains k) with
  | some k => (true, ((s.setFld (clkStat b) 2 0 k).setFld (clkStat b) 3 3 1).setFld (clkStat b) 4 4 0)
  | none => (false, s.holdOver b)

/-- Firmware has rewritten CLK_CTRL: the bay selects from the new list, in which a source that was lost counts again (R475). -/
def State.reselect (s : State) (b : Nat) : State := ((s.onBay b (fun y => { y with lostSrc := [] })).lockClk b).2

end Sys2Proof.Machine
end

