-- ==== Sys2Proof/Machine/Update.lean ====
section
/-! DEFINITION. The landing update unit, the numerics watch and the gradient format selection (R292 to R311, R327). -/

namespace Sys2Proof.Machine

/-! ## LUU programs -/

/-- The registers of an element, by number (Table 11.6). -/
abbrev LReg := SMap Nat

def LReg.rd (r : LReg) (n : Nat) : Nat := SMap.get 0 r n
def LReg.wr (r : LReg) (n v : Nat) : LReg := SMap.set 0 r n v

/-- The result of an LUU operation with its flags (Table 11.7, Table 11.16, R302); a NaN that it writes is canonical (R127). -/
def luuOp (op a b c : Nat) : FR :=
  let f := fFP32
  let A := f.decode a
  let B := f.decode b
  let C := f.decode c
  let nan := fun (xs : List Num) => if xs.contains .nan then flNanIn else (0 : Fl)
  let canon := fun (x : Nat) => if f.decode x = .nan then f.nanCode else x
  match op with
  | 1 => fpAdd f .rne A B
  | 2 => fpAdd f .rne A B.neg
  | 3 => fpMul f .rne A B
  | 4 => fpFma f .rne A B C
  | 5 => fpFma f .rne A.neg B C
  | 6 => fpDiv f .rne A B
  | 7 => fpSqrt f .rne A
  | 8 => fpMin f a b
  | 9 => fpMax f a b
  | 10 => (canon (a % 2 ^ 31), nan [A])
  | 11 => ((match A with
      | .nan => f.nanCode
      | .inf n => if n then 0xBF800000 else 0x3F800000
      | .fin n m _ => if m = 0 then a else if n then 0xBF800000 else 0x3F800000), nan [A])
  | 12 => (if A ≠ .nan ∧ cmpNum A (.fin false 0 0) = .gt then canon b else canon c, nan [A, B, C])
  | _ => (canon a, nan [A])

/-- Executes an instruction word on an element's registers (R301, R302). -/
def luuInstr (w : Nat) (r : LReg × Fl) : LReg × Fl :=
  let op := bits w 31 27
  if op = 0 then r
  else
    let v := luuOp op (r.1.rd (bits w 21 17)) (r.1.rd (bits w 16 12)) (r.1.rd (bits w 11 7))
    (r.1.wr (bits w 26 22) v.1, r.2 ||| v.2)

/-- Executes instructions in order. -/
def luuRun (code : List Nat) (r : LReg) : LReg × Fl := code.foldl (fun r w => luuInstr w r) (r, 0)

/-- RNE of an FP32 encoding at bit 8 (form 1 of R295); the flag is set when a finite value becomes an infinity. -/
def roundBit8 (x : Nat) : Nat × Bool :=
  let m := x % 2 ^ 31
  if 0x7F800000 < m then (0x7FC00000, false)
  else if m = 0x7F800000 then (x, false)
  else
    let r := (m + 0x7F + (m >>> 8) % 2) / 256 * 256
    (x / 2 ^ 31 * 2 ^ 31 + r, decide (0x7F800000 ≤ r))

/-- The stored master value of a new W under a master form, with the overflow flag (R295). -/
def newMaster (form draw w : Nat) : Nat × Bool :=
  match form with
  | 0 => (w, false)
  | 1 => roundBit8 w
  | _ =>
    let r := roundSR fBF16 draw (fFP32.decode w)
    (r.1 * 65536, r.2)

/-- A moment as stored (R295). -/
def newMoment (form m : Nat) : Nat := if form = 0 then m else (narrow fBF16 .rne (fFP32.decode m)).1

/-! ## One object -/

/-- An object's state as read: images by tensor code (Table 11.1). -/
abbrev Tensors := SMap Mem

/-- Element i of a tensor of k bytes an element. -/
def tensorEl (t : Tensors) (code k i : Nat) : Nat := Mem.readNat (SMap.get [] t code) (k * i) k

/-- The master value of element i (R295). -/
def masterOf (form : Nat) (t : Tensors) (i : Nat) : Nat :=
  match form with
  | 0 => tensorEl t 0 4 i
  | 1 => tensorEl t 0 2 i * 65536 + tensorEl t 1 1 i * 256
  | _ => tensorEl t 0 2 i * 65536

/-- A moment of element i, widened to FP32. -/
def momentOf (form : Nat) (t : Tensors) (code i : Nat) : Nat := if form = 0 then tensorEl t code 4 i else bf16To32 (tensorEl t code 2 i)

/-- What the LUU keeps fixed over an object: the microcode, program and group, and the scalars LR, NI, P1 and P2. -/
structure LuuCtx where
  u : Micro
  prog : Prog
  grp : TagGroup
  lr : Nat
  ni : Nat
  p1 : Nat
  p2 : Nat
  deriving DecidableEq, Repr, Inhabited

/-- The registers on entry to an element (Table 11.6). -/
def LuuCtx.entry (k : LuuCtx) (g w m1 m2 fr fc fm : Nat) : LReg :=
  let base : List (Nat × Nat) := [(0, g), (1, w), (2, m1), (3, m2), (4, fr), (5, fc), (6, fm), (7, k.lr), (8, k.ni), (9, k.p1), (10, k.p2),
    (11, 0x3F800000)]
  let ks := k.grp.ks.zipIdx.map (fun e => (16 + e.2, e.1))
  (base ++ ks).foldl (fun r e => r.wr e.1 e.2) []

/-- New row and column factors and FM from the first pass's sums (R303). -/
def LuuCtx.factors (k : LuuCtx) (C : Nat) (fr fc rs cs : List Nat) : List Nat × List Nat × Nat × Fl :=
  let f := fFP32
  let d := f.decode
  let k2 := k.grp.ks.getD 2 0
  let k3 := k.grp.ks.getD 3 0
  let one := fun (n : Nat) (x : Nat × Nat) =>
    let a := fpDiv f .rne (d x.1) (d (countFp32 n))
    let b := fpMul f .rne (d k2) (d x.2)
    let r := fpFma f .rne (d k3) (d a.1) (d b.1)
    (r.1, a.2 ||| b.2 ||| r.2)
  let nr := (rs.zip fr).map (one C)
  let nc := (cs.zip fc).map (one 128)
  let sum := nr.foldl (fun t x => add32 t x.1) 0
  let fm := fpDiv f .rne (d sum) (d (countFp32 128))
  (nr.map (fun x => x.1), nc.map (fun x => x.1), fm.1, (nr ++ nc).foldl (fun a x => a ||| x.2) fm.2)

/-- The new state of an object: per element the new W register, stored master, M1 and M2; new factors; flags. -/
structure LuuOut where
  els : List (Nat × Nat × Nat × Nat)
  fr : List Nat
  fc : List Nat
  fl : Fl
  tooBig : Bool
  deriving DecidableEq, Repr, Inhabited

/-- Runs an object's program over its elements in ascending order, in one pass or two (R299 to R303); each pass enters an element with the
registers of Table 11.6; draw i is the element's draw. -/
def LuuCtx.run (k : LuuCtx) (C : Nat) (t : Tensors) (grad : Nat → Nat) (draw : Nat → Nat) : LuuOut :=
  let E := 128 * C
  let fac := bit k.prog.uses 2
  let fr0 := if fac then (List.range 128).map (tensorEl t 4 4) else List.replicate 128 0
  let fc0 := if fac then (List.range C).map (tensorEl t 5 4) else List.replicate C 0
  let mean := fun (fr : List Nat) => if fac then (fpDiv fFP32 .rne (fFP32.decode (fr.foldl add32 0)) (fFP32.decode (countFp32 128))).1 else 0
  let ent := fun (fr fc : List Nat) (fm i : Nat) =>
    k.entry (grad i) (masterOf k.u.masterForm t i) (if bit k.prog.uses 0 then momentOf k.u.momentForm t 2 i else 0)
      (if bit k.prog.uses 1 then momentOf k.u.momentForm t 3 i else 0) (fr.getD (i / C) 0) (fc.getD (i % C) 0) fm
  let code := k.prog.code.take k.prog.count
  let two := fac && k.prog.pass1 != 0
  let p1 := code.take k.prog.pass1
  let code2 := if two then code.drop k.prog.pass1 else code
  let fm0 := mean fr0
  let first := if two then (List.range E).map (fun i => luuRun p1 (ent fr0 fc0 fm0 i)) else []
  let t0 := first.map (fun r => r.1.rd 12)
  let rs := (List.range 128).map (fun r => ((List.range C).map (fun j => t0.getD (r * C + j) 0)).foldl add32 0)
  let cs := (List.range C).map (fun j => ((List.range 128).map (fun r => t0.getD (r * C + j) 0)).foldl add32 0)
  let nf := if two then k.factors C fr0 fc0 rs cs else (fr0, fc0, fm0, 0)
  let fl1 := first.foldl (fun a r => a ||| r.2) nf.2.2.2
  let outs := (List.range E).map (fun i =>
    let r0 := ent nf.1 nf.2.1 nf.2.2.1 i
    let r := luuRun code2 r0
    let m := newMaster k.u.masterForm (draw i) (r.1.rd 1)
    ((r.1.rd 1, m.1, r.1.rd 2, r.1.rd 3), r.2, m.2))
  { els := outs.map (fun o => o.1), fr := nf.1, fc := nf.2.1, fl := outs.foldl (fun a o => a ||| o.2.1) fl1, tooBig := outs.any (fun o => o.2.2) }

/-- The working plank image of new master values: BF16, or MX blocks of 32 K-rows of a column with d = 0 (R296); the flag tells of a
saturated element. The image is 64 KiB of elements and the scale area (R375). -/
def workPlank (fmt : Nat) (master : Nat → Nat) : List Byte × Bool :=
  let C := plankCols fmt
  let w := fmtBits (plankElem fmt)
  let cols := (List.range C).map (fun j =>
    (List.range 4).map (fun b =>
      let vals := (List.range 32).map (fun i => master ((32 * b + i) * C + j))
      epiBlock (if fmt = 0 then 1 else fmt + 4) 0 vals))
  let els := cols.flatMap (fun bs => leBytes (16 * w) (unlanes w (bs.flatMap (fun b => b.1))))
  let scs := if fmt = 0 then [] else cols.flatMap (fun bs => bs.flatMap (fun b => leBytes 1 b.2.1))
  (els ++ scs, cols.any (fun bs => bs.any (fun b => b.2.2 &&& flSaturate != 0)))

/-- The tensors of the new state in ascending code order (Table 11.1, R295). -/
def LuuOut.tensors (o : LuuOut) (k : LuuCtx) : List (Nat × List Byte) :=
  let mf := k.u.masterForm
  let me := if k.u.momentForm = 0 then 4 else 2
  [(0, o.els.flatMap (fun e => if mf = 0 then leBytes 4 e.2.1 else leBytes 2 (e.2.1 / 65536)))] ++
  (if mf = 1 then [(1, o.els.flatMap (fun e => leBytes 1 (e.2.1 / 256)))] else []) ++
  (if bit k.prog.uses 0 then [(2, o.els.flatMap (fun e => leBytes me (newMoment k.u.momentForm e.2.2.1)))] else []) ++
  (if bit k.prog.uses 1 then [(3, o.els.flatMap (fun e => leBytes me (newMoment k.u.momentForm e.2.2.2)))] else []) ++
  (if bit k.prog.uses 2 then [(4, o.fr.flatMap (leBytes 4)), (5, o.fc.flatMap (leBytes 4))] else [])

/-- The watch sums of an object: exact sums of the rounded squares of U, W and G (R304). -/
def watchSums (old new grad : List Nat) : XV × XV × XV :=
  let sq := fun (x : Nat) => (fpMul fFP32 .rne (fFP32.decode x) (fFP32.decode x)).1
  let acc := fun (xs : List Nat) => xs.foldl (fun (a : XV) x => (a.add (XV.ofF32 (sq x) 0xFFFF)).1) {}
  let u := List.zipWith (fun w' w => (fpAdd fFP32 .rne (fFP32.decode w') (fFP32.decode w).neg).1) new old
  (acc u, acc old, acc grad)

/-- Watch sums of a group with nothing added. -/
def noWatch : XV × XV × XV := (default, default, default)

/-! ## LUU_UPDATE -/

/-- The step's scalars at a landing, once per attempt of an application step: P1 and P2 advance (R302); the values before are kept
for an aborted attempt. -/
def State.luuScalars (s : State) (l : Nat) : State :=
  match s.job.loaded.bind (fun m => m.micro) with
  | none => s
  | some u =>
    if (s.land l).luuStepDone then s
    else
      let mul := fun (a : W32) (b : Nat) => BitVec.ofNat 32 (fpMul fFP32 .rne (fFP32.decode a.toNat) (fFP32.decode b)).1
      let p1 := s.reg (landReg l 0x604)
      let p2 := s.reg (landReg l 0x608)
      let s := (s.setReg (landReg l 0x604) (mul p1 u.betaP1)).setReg (landReg l 0x608) (mul p2 u.betaP2)
      s.onLand l (fun x => { x with luuStepDone := true, p1Old := p1, p2Old := p2 })

/-- LR of the step (R302). -/
def luuRate (u : Micro) (step : Nat) : Nat :=
  match (u.sched.filter (fun e => decide (e.1 ≤ step))).getLast? with
  | none => 0
  | some (first, start, slope) => (fpFma fFP32 .rne (fFP32.decode slope) (fFP32.decode (countFp32 (step - first))) (fFP32.decode start)).1

/-- The state of an object once it is complete at the landing (R294). -/
def State.luuState (s : State) (l : Nat) (o : LuuObj) : Option Tensors :=
  ((s.land l).sbuf.find? (fun b => b.object == o.object && b.want.all (fun c => b.done.contains c))).map (fun b => b.tens)

/-- The frames of a tensor image: kind 2 freight of version V + 1 (R375, Table 14.8). -/
def State.pendingFrames (s : State) (obj code : Nat) (bs : List Byte) : List Frame :=
  let n := ceilDiv bs.length 256
  (chunks 256 (n + 1) bs).zipIdx.map (fun c =>
    { frame 2 2 (2 + 2 ^ 16 * code + 2 ^ 24 * (s.job.attempt % 256) + 2 ^ 32 * (s.job.step % 2 ^ 32) + 2 ^ 64 * (256 * c.2))
        (c.1 ++ List.replicate (256 - c.1.length) 0) with
      object := obj, version := (s.job.version + 1) % 65536, last := decide (c.2 + 1 = n) })

/-- Whether a core has done with a backward plank: it has arrived there, and no slot holds it any more. -/
def State.plankDone (s : State) (pl p : Nat) : Bool :=
  let c := s.core p
  markGeO c.arrM (s.crossingNo 1, pl) && !c.slots.any (fun t => t.2.used && t.2.plank == pl && t.2.role == 1)

/-- Whether every core of the halves that an object's backward planks address has released them (R29). -/
def State.planksGone (s : State) (obj : Nat) : Bool :=
  (List.range 8).all (fun l => ((s.merged l 1).filter (fun m => m.e.object == obj)).all (fun m =>
    (maskHalves l m.near m.far).all (fun h => (s.parts l h).all (s.plankDone m.e.plank))))

/-- LUU_UPDATE at a landing: the object at the head runs its program, its new state and working plank leave as pending or go to the
variant's next copy, and its watch sums go to the MP (R292 to R304, R327). -/
def luuUpdate (l : Nat) (s : State) : State :=
  match (s.land l).luuQ, s.job.loaded.bind (fun m => m.micro) with
  | o :: rest, some u =>
    if !s.applies then s
    else
      let s := s.luuScalars l
      match s.luuState l o with
      | none => s.orReg (landReg l 0x600) 0x20
      | some t =>
        let m := s.job.loaded
        let grp := ((m.map (fun m => m.groups)).getD []).getD o.group default
        let prog := u.progs.getD grp.program default
        let home := if o.variant = 0 then s.residentAt o.object else none
        let vbase := (s.variantOf o.variant).map (fun v => v.base + ((s.job.version + 1) % 2) * v.copyLen + (o.object - v.first) * v.blockLen)
        let to_ := if vbase.isSome then vbase else home
        if (home.isSome && !s.planksGone o.object) || (to_.any (fun a => s.bayWaits (a / 2 ^ 36))) then s
        else
          let s := s.readFirst (to_.getD 0) (if to_.isNone then 0 else ((s.variantOf o.variant).map (fun v => v.blockLen)).getD (65536 + scaleArea o.fmt))
          let k : LuuCtx := { u := u, prog := prog, grp := grp, lr := luuRate u s.job.step,
                              ni := (fpDiv fFP32 .rne (fFP32.decode 0x3F800000) (fFP32.decode (countFp32 ((m.map (fun m => m.man.thinN)).getD 1)))).1,
                              p1 := (s.reg (landReg l 0x604)).toNat, p2 := (s.reg (landReg l 0x608)).toNat }
          let C := plankCols o.fmt
          let E := 128 * C
          let grad := fun i => SMap.get 0 o.grads i
          let out := k.run C t grad (fun i => drawSR s.job.seedLo s.job.seedHi o.object o.variant i s.job.step)
          let masters := out.els.map (fun e => e.2.1)
          let wp := workPlank o.fmt (fun i => masters.getD i 0)
          let fl : W32 := (if out.fl &&& flInvalid != 0 then 1 else 0) ||| (if out.fl &&& flDivZero != 0 then 2 else 0) |||
            (if out.fl &&& flOverflow != 0 || out.tooBig then 4 else 0) ||| (if out.fl &&& flNanIn != 0 then 8 else 0) |||
            (if wp.2 then 0x10 else 0)
          let ts : List (Nat × List Byte) := out.tensors k
          let s :=
            match s.variantOf o.variant with
            | some v =>
              let a := v.base + ((s.job.version + 1) % 2) * v.copyLen + (o.object - v.first) * v.blockLen
              let off := blockOffsets u C (ts.map (fun (x : Nat × List Byte) => x.1))
              let s := forAll (ts.zip off.1) (fun (x : (Nat × List Byte) × (Nat × Nat)) s => s.stackPut (a + x.2.2) x.1.2) s
              s.stackPut (a + off.2) wp.1
            | none =>
              let fs := ts.flatMap (fun (x : Nat × List Byte) => s.pendingFrames o.object x.1 x.2) ++ s.pendingFrames o.object 8 wp.1
              let s := s.onLand l (fun x => { x with outQ := x.outQ ++ fs, pendObjs := x.pendObjs + 1 })
              match home with
              | some a =>
                let s := s.stackPut a wp.1
                s.onJob (fun j => { j with overwritten := insNat j.overwritten o.object, rewritten := insNat j.rewritten o.object })
              | none => s
          let w := watchSums ((List.range E).map (masterOf u.masterForm t)) masters ((List.range E).map grad)
          let s := s.onJob (fun j =>
            let a := SMap.get noWatch j.watch o.group
            { j with watch := SMap.set noWatch j.watch o.group ((a.1.add w.1).1, (a.2.1.add w.2.1).1, (a.2.2.add w.2.2).1) })
          let s := (s.orReg (landReg l 0x600) fl).bump (landReg l 0x60C) 31 0 1
          s.onLand l (fun x =>
            { x with luuQ := rest, sbuf := x.sbuf.filter (fun b => b.object != o.object), pendDone := insNat x.pendDone o.object })
  | _, _ => s

/-- After an update the landing asks for the state of the next objects waiting, those a return beat of its own has reached (R294). -/
def State.askNext (s : State) (l : Nat) : State :=
  forAll ((s.land l).luuQ.map (fun o => o.object) ++ ((s.land l).rslots.filter (fun r => !r.beats.isEmpty)).map (fun r => r.object)) (fun obj s =>
    match s.objEntry obj with
    | some e => if s.ownerOf e = l then s.askState l e else s
    | none => s) s

/-! ## Numerics watch (R305, R306) -/

/-- Objects that the backward crossing updates: the last-use entries of every working landing. -/
def State.stepObjects (s : State) : List (Nat × Nat) :=
  (s.landsUp.flatMap (fun l => ((s.merged l 1).filter (fun m => bit m.e.flags 1)).map (fun m => (m.e.object, s.ownerOf m.e)))).eraseDups

/-- Whether every object of the step has been updated, exported or entered into the ledger; a frozen variant's objects pass through no
LUU (R327). -/
def State.objectsDone (s : State) : Bool :=
  s.stepObjects.all (fun o => (s.land o.2).pendDone.contains o.1)

/-- Whether every working landing has issued every entry of its backward plank order (R261). -/
def State.backwardIssued (s : State) : Bool := s.landsUp.all (fun l => (s.merged l 1).isEmpty || s.job.bwdIssued.contains l)

/-- The landing that lost input of the present step, if any (R331, R376). -/
def State.inputLost (s : State) : Option Nat := match SMap.get 0 s.job.lostIn s.job.step with
  | 0 => none
  | l + 1 => some l

/-- Whether a landing, a group or lost input holds the step (R282, R305, R331). -/
def State.stepHeld (s : State) : Bool := s.job.holdStep.isSome || s.inputLost.isSome || (List.range 8).any (fun l => (s.land l).heldStep)

/-- Whether the step is over: committed, or, without a commit, entered into the ledger and not held (R24, R61). -/
def State.stepOver (s : State) : Bool :=
  s.job.committed ||
  (!s.applies && !s.job.aborted && s.job.crossing == some 1 && s.objectsDone && s.backwardIssued && !s.stepHeld)

/-- PREPARED (Table 11.14, step 2): a working landing whose backward order is issued, whose objects are done and whose pending or RETURN
frames have all left reports its count of objects sent as pending (R314, R328). -/
def State.prepare (s : State) (l : Nat) : State :=
  let mine := s.stepObjects.filter (fun o => o.2 == l)
  let left := (s.land l).outQ.any (fun f => decide (f.vc = 2 ∨ 8 ≤ f.vc))
  if !s.landWorks l ∨ !s.applies ∨ s.job.aborted ∨ s.job.committed ∨ s.job.st < 2 ∨ s.job.crossing ≠ some 1 ∨
     (SMap.get none s.job.prepared l).isSome ∨ left ∨ !((s.merged l 1).isEmpty || s.job.bwdIssued.contains l) ∨
     !mine.all (fun o => (s.land l).pendDone.contains o.1) then s
  else
    let n := (s.land l).pendObjs
    let s := s.pushFrame l (s.commitFrame 0 ((s.job.version + 1) % 65536) n)
    s.onJob (fun j => { j with prepared := SMap.set none j.prepared l (some n) })

/-- LUU_UPDATE. -/
def execLuuUpdate (l : Nat) (s : State) : Res := landEvent l (fun s => ((luuUpdate l s).askNext l).prepare l) s

/-- ρ of a group from its sums (R305). -/
def ratioOf (su sw : Nat) : Nat :=
  let z := fun (x : Nat) => x % 2 ^ 31 == 0
  if z sw then (if z su then 0 else 0x7F800000)
  else (fpSqrt fFP32 .rne (fFP32.decode (fpDiv fFP32 .rne (fFP32.decode su) (fFP32.decode sw)).1)).1

/-- The watch of one group: band breach and zero-run counter. -/
def State.watchGroup (s : State) (g : Nat) (t : TagGroup) (k : Nat) : State :=
  let w := SMap.get noWatch s.job.watch g
  let su := w.1.round.1
  let sw := w.2.1.round.1
  let rho := ratioOf su sw
  let R := fFP32.decode rho
  let breach := !bit t.flags 1 && (R == .nan || cmpNum R (fFP32.decode t.rhoLo) == .lt || cmpNum R (fFP32.decode t.rhoHi) == .gt)
  let s :=
    if !breach then s
    else
      let s :=
        if s.job.ratioEvents < 16 then
          (s.raise 0x0302 [(2, g), (8, s.job.step), (4, rho), (4, su), (4, sw)]).onJob (fun j => { j with ratioEvents := j.ratioEvents + 1 })
        else s.bump (gloReg 0x208) 15 0 1
      if bit t.flags 0 then
        s.onJob (fun j => { j with holdStep := some (j.holdStep.getD g) })
      else s
  let dark := w.2.2 = {} ∨ (R ≠ .nan ∧ cmpNum R (fFP32.decode t.rhoFloor) = .lt)
  if bit t.flags 2 then s
  else if dark then
    let n := SMap.get 0 s.job.zeroRun g + 1
    let s := s.onJob (fun j => { j with zeroRun := SMap.set 0 j.zeroRun g n })
    if n % max 1 k = 0 then (s.raise 0x0303 [(2, g), (8, s.job.step), (2, n)]).bump (gloReg 0x208) 31 16 1 else s
  else s.onJob (fun j => { j with zeroRun := SMap.set 0 j.zeroRun g 0 })

/-- The active MP forms the ratios of an application step once every object is done (R305, R306). -/
def watchEvaluation (s : State) : State :=
  match s.job.loaded with
  | none => s
  | some m =>
    if s.job.watchDone ∨ !s.applies ∨ s.manFlag 1 ∨ s.job.crossing ≠ some 1 ∨ !s.objectsDone then s
    else
      let s := s.onJob (fun j => { j with watchDone := true, ratioEvents := 0, zeroRunOld := j.zeroRun })
      m.groups.zipIdx.foldl (fun s g => s.watchGroup g.2 g.1 m.zeroRunK) s

/-- WATCH_EVALUATION. -/
def execWatchEvaluation (s : State) : Res := mpRow watchEvaluation s

/-! ## Gradient format selection (R309 to R311) -/

/-- Base address of a bay's stack range (R397). -/
def bayBase (b : Nat) : Nat := b * 2 ^ 36

/-- The merged statistics of a group over the bays that are not dark: bins, amax, non-finite count (R311). -/
def State.mergeStats (s : State) (off g : Nat) : List Nat × Nat × Nat :=
  let recs := ((List.range 60).filter s.bayUp).flatMap (fun b =>
    ((List.range 48).map (fun k => bayBase b + off + (g * 48 + k) * 128)).filter (fun a =>
      Mem.readNat s.stack (a + 4) 4 == s.job.step % 2 ^ 32))
  let cnt := fun (o : Nat) => recs.foldl (fun t a => satAdd (2 ^ 32 - 1) t (Mem.readNat s.stack (a + o) 4)) 0
  ((List.range 16).map (fun i => cnt (8 + 4 * i)),
   recs.foldl (fun m a => (fpAmax fFP32 m (Mem.readNat s.stack (a + 0x48) 4)).1) 0, cnt 0x4C)

/-- Clamps an exponent. -/
def clampTo (lo hi x : Int) : Int := max lo (min hi x)

/-- A format table entry from code, d, e_ref and step (Table 11.11). -/
def fmtEntry (code : Nat) (d e : Int) (step : Nat) : Nat := code + 256 * wrapInt 8 d + 65536 * wrapInt 8 e + 2 ^ 32 * (step % 2 ^ 32)

/-- Writes a group's entry into every bay that is not dark (R309), by accesses of a master (R502). -/
def State.writeFmt (s : State) (master g v : Nat) : State :=
  let off := match s.job.loaded with
    | some m => m.fmtOff
    | none => 0
  let s := s.onJob (fun j => { j with fmt := SMap.set 0 j.fmt g v })
  forAll ((List.range 60).filter s.bayUp) (fun b s => s.hubWrite master (bayBase b + off + 16 * g) (leBytes 16 v)) s

/-- The entry for the next step of a group with format selection on (R311). -/
def State.selectFmt (s : State) (g : Nat) (t : TagGroup) (off tail : Nat) : State :=
  let st := s.mergeStats off g
  let nz := st.1.sum
  let old := SMap.get 0 s.job.fmt g
  let next := s.job.step + 1
  if st.2.2 ≠ 0 ∨ nz = 0 then s.writeFmt s.mpNo g (old % 2 ^ 24 + 2 ^ 32 * (next % 2 ^ 32))
  else
    let lg : Int := match fFP32.decode st.2.1 with
      | .fin _ m e => (Nat.log2 m : Int) + e
      | _ => 127
    let e := clampTo (-126) 127 lg
    let d := clampTo (-127) 127 (14 - e)
    let code :=
      if SMap.get 0 s.job.zeroRun g ≠ 0 then 0
      else if bit t.flags 4 ∧ (st.1.getD 14 0 + st.1.getD 15 0) * 65536 ≤ tail * nz then 2
      else 1
    s.writeFmt s.mpNo g (fmtEntry code d e next)

/-- FORMAT_SELECTION at the step boundary, once no hub that it reads at holds accesses (R311, R403, R412). -/
def formatSelection (s : State) : State :=
  match s.job.loaded with
  | none => s
  | some m =>
    let on := m.groups.any (fun t => bit t.flags 3)
    if !s.stepOver ∨ s.job.formatDone ∨ (on ∧ ((List.range 60).filter s.bayUp).any s.bayWaits) then s
    else
      let s := if on then forAll ((List.range 60).filter s.bayUp) (fun b s => s.hubCount 0 (bayBase b + m.statsOff) (6144 * m.groups.length)) s else s
      let s := s.onJob (fun j => { j with formatDone := true })
      m.groups.zipIdx.foldl (fun s g => if bit g.1.flags 3 then s.selectFmt g.2 g.1 m.statsOff m.tailLimit else s) s

/-- FORMAT_SELECTION. -/
def execFormatSelection (s : State) : Res := mpRow formatSelection s

end Sys2Proof.Machine
end

