-- ==== Sys2Proof/Machine/Access.lean ====
section
/-! DEFINITION. Register and memory accesses from outside a program: live read-only fields, access codes, special registers, the memory
window, the core timer and the bandwidth windows (R17, R80, R358, R359, R392, R398, R423, R500 to R526). -/

namespace Sys2Proof.Machine

/-! ## Address fields (Table 20.1) -/

def aBay (a : Nat) : Nat := a / 2 ^ 26
def aUnit (a : Nat) : Nat := a / 2 ^ 20 % 64
def aBlk (a : Nat) : Nat := a / 2 ^ 16 % 16
def aOff (a : Nat) : Nat := a % 2 ^ 16

/-- The offset of a core's memory window (R510). -/
def winOff : Nat := 0x8000

/-- Whether an address lies in a bay, or at a landing, that answers: not dark and enabled (R509, R529). -/
def State.decodes (s : State) (a : Nat) : Bool :=
  if aBay a < 60 then s.bayUp (aBay a)
  else if aBay a = 60 then decide (aUnit a < 8) && (s.land (aUnit a)).present && s.bayUp (landingBay (aUnit a))
  else decide (aBay a = 63)

/-! ## Live fields -/

/-- A Bool as a bit. -/
def b2n (b : Bool) : Nat := if b then 1 else 0

/-- Read-only bits of a core's registers that show its state now: the mask of those bits and their value. CTRL_PENDING shows a TAP_CTRL that
differs from the one in force (DESIGN CHOICE, log entry 41). -/
def State.liveCore (s : State) (p blk off : Nat) : Nat × Nat :=
  let c := s.core p
  if blk = 0 ∧ off = 0x74 then
    (0x7FFFFFF, c.openSrc.toNat % 4096 + 2 ^ 12 * b2n c.point.isSome + 2 ^ 13 * ((c.point.map (fun q => q.bundle)).getD 0) + 2 ^ 26 * b2n c.rolling)
  else if blk = 0 ∧ off = 0x7C then (0xFFFF, (c.point.map (fun q => q.log.length)).getD 0)
  else if blk = 1 ∧ off = 0 then
    let k := (c.mulX.map (fun o => o.kind)).getD 9
    let cols := (c.mulX.toList ++ c.mulP.toList).any (fun o => decide ((o.kind = 2 ∨ o.kind = 3) ∧ o.next < o.n))
    (0x70, 16 * b2n (k ≤ 1) + 32 * b2n cols + 64 * b2n (c.epiX.isSome || c.epiP.isSome))
  else if blk = 1 ∧ 0x400 ≤ off ∧ off < 0x500 then
    let n := (off - 0x400) / 4
    (0x60000, 2 ^ 17 * b2n (c.regnMask n != 0) + 2 ^ 18 * b2n (c.feet.any (fun f => f.2.rw.contains n)))
  else if blk = 2 ∧ off = 0 then (0xFFFF, vecLat (s.fld (coreReg p 6 8) 3 1))
  else if blk = 3 ∧ off = 4 then
    (0x1FFFFF, c.dtab.length + 2 ^ 13 * c.dq.length + 2 ^ 18 * (c.preds.filter (fun x => x.isSome)).length)
  else if blk = 7 ∧ off = 4 then
    let used := (List.range c.tapSlots).filter (fun k => (c.slot k).used)
    let held := c.exports.any (fun e => e.plank.isSome && (List.range e.cnt).any (fun i => c.regnMask (e.reg + i) != 0))
    (0xFFF, (c.tapSlots - used.length) + 16 * (used.filter (fun k => (c.slot k).green)).length + 64 * b2n held + 128 * c.tapSlots +
      2 ^ 11 * b2n (s.reg (coreReg p 7 0) != c.tapInForce))
  else if blk = 8 ∧ off = 4 then (2 ^ 24, 2 ^ 24 * b2n (!(s.rtr p).held.isEmpty))
  else if blk = 8 ∧ 0x1000 ≤ off ∧ off < 0x1500 then
    (match ringOutput p with
     | some (o, i) => if s.readyUp ∧ (off - 0x1000) / 256 = o then (0xFFFFFFFF, 0x80808080 + 0x01010101 * i) else (0, 0)
     | none => (0, 0))
  else if blk = 8 ∧ 0x4000 ≤ off ∧ off < 0x4B40 then (0xFFFFFFFF, (s.escWord p ((off - 0x4000) / 4)).toNat)
  else (0, 0)

/-- BAR_STATE of a hub's counter (Table 13.14). -/
def State.barWord (s : State) (hub n : Nat) : Nat :=
  let b := s.bar hub n
  b.p % 4096 + 2 ^ 12 * (b.arr.length % 4096) + 2 ^ 24 * (b.d % 256)

/-- Live bits of a bay hub's registers. -/
def State.liveHub (s : State) (b blk off : Nat) : Nat × Nat :=
  if blk = 0 ∧ 0x200 ≤ off ∧ off < 0x300 then (0xFFFFFFFF, s.barWord b ((off - 0x200) / 4)) else (0, 0)

/-- Whether a half's return girt is held: a beat stands before a tap that cannot add yet, or before a landing with both reduction slots
occupied (R344). -/
def State.returnHeld (s : State) (h : Nat) : Bool :=
  decide (s.job.crossing = some 1) && (s.ret h).beats.any (fun b =>
    match (s.lineObjs h).find? (fun m => m.e.plank == b.plank), b.at_ with
    | some m, 0 => (s.slotFor (halfLanding h) m.e).isNone
    | some m, k + 1 => (match (s.lineCores h)[k]? with
      | some p => b.supp.isNone && s.gives p m && (s.readyExport p b.plank b.b).isNone
      | none => false)
    | none, _ => false)

/-- GIRT_STATUS h of a landing, live bits (Table 13.11). -/
def State.girtBits (s : State) (l i : Nat) : Nat :=
  let h := landingHalf l i
  let credit := match s.creditOf l h with
    | some c => min 15 c.toNat
    | none => 0
  let joined := match s.job.crossing with
    | some r => s.joinOf (h % 48) r != 0
    | none => false
  let held := match s.job.crossing with
    | some r => (match (s.merged l r)[(s.land l).issueIdx]? with
      | some m => (maskHalves l m.near m.far).contains h && !s.hasCredit l h && s.mayIssuePlank l
      | none => false)
    | none => false
  credit + 16 * (s.parts l h).length + 2 ^ 10 * b2n joined + 2 ^ 11 * b2n held + 2 ^ 12 * b2n (s.returnHeld h)

/-- Whether a cross-grain plank of landing l is being issued: the tap of an addressed half nearest the landing, of those that answer, has
not taken its last beat (Table 9.4). -/
def State.turnBusy (s : State) (l : Nat) : Bool :=
  (List.range 96).any (fun h => match (halfCores h).find? s.coreUp with
    | some p => ((s.halfFlights h).drop (s.core p).seen).any (fun f => f.2.landing == l && f.2.grain)
    | none => false)

/-- Live bits of a landing's registers. -/
def State.liveLand (s : State) (l blk off : Nat) : Nat × Nat :=
  let x := s.land l
  if blk ≠ 0 then (0, 0)
  else if off = 4 then (0xC0000, 2 ^ 18 * b2n (x.resendIdx.isSome || x.nakWanted) + 2 ^ 19 * b2n (s.reg (landReg l 0xC) != 0))
  else if off = 0x400 then
    let es := match s.job.crossing with
      | some r => s.merged l r
      | none => []
    let gs := (x.planks.filter (fun b => decide (((es[b.idx]?).map (fun q => q.e.grain)).getD 0 = 1))).map (fun b => (runAt (b.idx + 1) es b.idx 0).1)
    (0x7000000, 2 ^ 24 * min 2 gs.eraseDups.length + 2 ^ 26 * b2n (s.turnBusy l))
  else if off = 0x504 then (0x10, 16 * b2n x.heldStep)
  else if off = 0x600 then
    (0x1C0, 64 * b2n (!x.luuQ.isEmpty) + 128 * min 2 (x.sbuf.filter (fun b => b.want.all (fun c => b.done.contains c))).length)
  else if 0x800 ≤ off ∧ off < 0x830 then (0x1FFF, s.girtBits l ((off - 0x800) / 4))
  else if off = 0x914 then (2 ^ 24, 2 ^ 24 * b2n (bit (s.reg (landReg l 0x900)).toNat 0))
  else (0, 0)

/-- Steps between snapshots at a band of the risk score (Table 17.9); 1 at end of service (R450). -/
def State.snapEvery (s : State) : Nat :=
  if bit (s.reg (gloReg 0x510)).toNat 0 then 1 else ([256, 64, 16, 1][s.riskBand]?).getD 256

/-- COMMIT_STATUS (Table 11.19). -/
def State.commitStatus (s : State) : Nat :=
  let j := s.job
  let mask := ((j.readyCnt.filter (fun e => e.2.isSome)).map (fun e => 2 ^ e.1)).sum
  let wait := (List.range 8).any (fun l => (s.land l).commitRep.isSome)
  let aborting := (List.range 8).any (fun l => (s.land l).outQ.any (fun f => decide (f.typ = 9 ∧ f.sideNat 0 1 = 4)))
  let phase := if aborting then 3 else if wait then 2 else if decide (j.st = 2) && !j.committed && !j.prepared.isEmpty then 1 else 0
  j.version + 2 ^ 16 * mask + 2 ^ 24 * phase + 2 ^ 26 * b2n (j.st = 4)

/-- Live bits of the module registers. -/
def State.liveGlo (s : State) (blk off : Nat) : Nat × Nat :=
  if blk ≠ 0 then (0, 0)
  else if off = 0x200 then (0xFFFFFFFF, s.commitStatus)
  else if 0x400 ≤ off ∧ off < 0x500 then (0xFFFFFFFF, s.barWord 60 ((off - 0x400) / 4))
  else if off = 0x500 then
    let due := s.job.lastSnapStep + s.snapEvery - s.job.step
    (0x3FF00, 256 * s.riskBand + 2 ^ 10 * min 255 due)
  else if off = 0x504 then
    let last := ((s.job.snaps.filter (fun x => x.taken)).map (fun x => x.number)).foldl max 0
    (0x3FFFFFF, last % 2 ^ 24 + 2 ^ 24 * b2n (s.job.snaps.any (fun x => !x.taken)) + 2 ^ 25 * b2n s.job.restoring.isSome)
  else if off = 0x800 then (0x1F, s.phase + 16 * b2n s.readyUp)
  else if off = 0x808 then (0xF, s.liveOrder + 8 * s.liveBoard)
  else (0, 0)

/-- A register as a read shows it, before RC clearing. -/
def State.regShown (s : State) (a : Nat) : W32 :=
  let lv :=
    if aBay a < 60 then (if aUnit a < 48 then s.liveCore (aBay a * 48 + aUnit a) (aBlk a) (aOff a) else s.liveHub (aBay a) (aBlk a) (aOff a))
    else if aBay a = 60 then s.liveLand (aUnit a) (aBlk a) (aOff a)
    else s.liveGlo (aBlk a) (aOff a)
  (s.reg a &&& ~~~(BitVec.ofNat 32 lv.1)) ||| (BitVec.ofNat 32 lv.2 &&& BitVec.ofNat 32 lv.1)

/-! ## Core memories (R510, R511) -/

/-- An access of n bytes to a core memory at the memory offset of R510: scratchpad, sill image or instruction store. -/
def State.memAccess (s : State) (p o n : Nat) (wr : Option Nat) : ReadBack × State :=
  let c := s.core p
  let bad : ReadBack × State := ({ data := List.replicate n 0, err := true }, s)
  if n = 0 ∨ o % n ≠ 0 then bad
  else if o + n ≤ spadTop then
    match wr with
    | some v => ({}, s.setCore p { c with spad := Mem.write c.spad o (leBytes n v) })
    | none => ({ data := Mem.read c.spad o n }, s)
  else if spadTop ≤ o ∧ o + n ≤ 14 * 2 ^ 20 then
    match wr with
    | some v =>
      let a := o - spadTop
      let words := (List.range (n / 4)).map (fun i => v / 2 ^ (32 * i) % 2 ^ 32)
      ({}, (s.setCore p { c with sill := Mem.write c.sill a (leBytes n v) }).sillFlags p (a / 32768) words)
    | none => ({ data := Mem.read c.sill (o - spadTop) n }, s)
  else if 14 * 2 ^ 20 ≤ o ∧ o + n ≤ 14 * 2 ^ 20 + 262144 then
    match wr with
    | some v => ({}, s.setCore p { c with istore := Mem.write c.istore (o - 14 * 2 ^ 20) (leBytes n v) })
    | none => ({ data := Mem.read c.istore (o - 14 * 2 ^ 20) n }, s)
  else bad

/-- Key of a master's page register at a core (R510). -/
def pageKey (p master : Nat) : Nat := p * 256 + master

/-- An access through the memory window at offset w of the window, at the master's page. -/
def State.window (s : State) (master p w n : Nat) (wr : Option Nat) : ReadBack × State :=
  s.memAccess p (SMap.get 0 s.memPage (pageKey p master) * 32768 + w) n wr

/-! ## Reads -/

/-- A 4-byte register read with its RC bits cleared after it (R17, R501). -/
def State.regRead (s : State) (master a : Nat) : ReadBack × State :=
  let core := decide (aBay a < 60 ∧ aUnit a < 48)
  let p := aBay a * 48 + aUnit a
  let bad : ReadBack × State := ({ data := [0, 0, 0, 0], err := true }, s)
  if !s.decodes a then bad
  else if core ∧ aBlk a = 4 ∧ winOff ≤ aOff a then s.window master p (aOff a - winOff) 4 none
  else if core ∧ aBlk a = 4 ∧ aOff a = 0 then ({ data := leBytes 4 (SMap.get 0 s.memPage (pageKey p master)) }, s)
  else if core ∧ aBlk a = 0 ∧ aOff a = 0x54 then
    let s := s.istoreAccess p none
    (s.back, s)
  else match regDef a with
    | none => bad
    | some d => ({ data := leBytes 4 (s.regShown a).toNat }, s.setReg a (s.reg a &&& ~~~(BitVec.ofNat 32 d.rc)))

/-- An 8-byte register read: of a 64-bit register only, or of the memory window (R508). -/
def State.regRead8 (s : State) (master a : Nat) : ReadBack × State :=
  let bad : ReadBack × State := ({ data := List.replicate 8 0, err := true }, s)
  if aBay a < 60 ∧ aUnit a < 48 ∧ aBlk a = 4 ∧ winOff ≤ aOff a then
    (if s.decodes a then s.window master (aBay a * 48 + aUnit a) (aOff a - winOff) 8 none else bad)
  else if a % 8 = 0 ∧ is64 a ∧ s.decodes a then
    let lo := s.regRead master a
    let hi := lo.2.regRead master (a + 4)
    ({ data := lo.1.data ++ hi.1.data, err := lo.1.err || hi.1.err }, hi.2)
  else bad

/-! ## Writes -/

/-- The stored result of a write under the access codes of a register's bits (R17). -/
def writeBits (d : RegDef) (old v : W32) : W32 :=
  let rw := BitVec.ofNat 32 d.rw
  let w1c := BitVec.ofNat 32 d.w1c
  (old &&& ~~~rw &&& ~~~(v &&& w1c)) ||| (v &&& rw)

/-- A write under the access codes alone. -/
def State.plainWrite (s : State) (a : Nat) (v : W32) : State := match regDef a with
  | some d => s.setReg a (writeBits d (s.reg a) v)
  | none => s

/-- GREEN_CTRL: a write that would place the log at or beyond 0xC0_0000 is ignored (Table 16.4, R423). -/
def State.writeGreenCtrl (s : State) (p : Nat) (v : W32) : State :=
  if field v 11 0 * 4096 + min 32 (field v 17 12) * 65536 ≤ spadTop then s.plainWrite (coreReg p 0 0x70) v else s

/-- TIMER_CTRL: START is an action (R520). -/
def State.writeTimer (s : State) (p : Nat) (v : W32) : State :=
  let s := s.plainWrite (timerCtrl p) v
  if bit v.toNat 6 then s.startWindow p else s

/-- BW_CTRL: the series restarts, LAST and PEAK are 0 (R522). -/
def State.writeBw (s : State) (a : Nat) (v : W32) : State :=
  let s := s.plainWrite a v
  let s := forAll [8, 0x10, 0x18, 0x20] (fun o s => s.setReg64 (a + o) 0) s
  { s with bwAcc := (s.bwAcc.filter (fun e => e.1 != a + 8 && e.1 != a + 24)) }

/-- BAR_STATE: P of a counter; a root counter's at both root hubs (R361, R507). -/
def State.writeBar (s : State) (hub n : Nat) (v : W32) : State :=
  let b := s.bar hub n
  (s.setBar hub n { b with p := field v 11 0 }).barCheck hub n

/-- ROW_JOIN: the rows whose mode a write changes keep it from the next crossing on (R337, log entry 41). -/
def State.writeJoin (s : State) (a : Nat) (v : W32) : State :=
  let n := aOff a / 4 % 16
  let rows := ((List.range 16).filter (fun i => field v (2 * i + 1) (2 * i) != s.fld a (2 * i + 1) (2 * i))).map (fun i => 16 * n + i)
  { s.plainWrite a v with joinSet := rows.foldl insNat s.joinSet }

/-- SIDEBAND_CTRL: where a connector has both functions enabled the trace stops and TRACE_CUT sets (R526). -/
def State.writeSideband (s : State) (v : W32) : State :=
  let a := gloReg 0x700
  let s := s.plainWrite a v
  let x := (s.reg a).toNat
  s.orReg a (BitVec.ofNat 32 (0x200 * b2n (bit x 0 && bit x 1) + 0x400 * b2n (bit x 2 && bit x 3)))

/-- A 4-byte write of a core register with effects beyond its bits. -/
def State.writeCore (s : State) (master p blk off a : Nat) (v : W32) : State :=
  if blk = 0 ∧ off = 0 then
    let s := s.setRun p (bit v.toNat 0)
    if bit v.toNat 1 && !s.running p && s.mayIssue p then s.issueBundle p else s
  else if blk = 0 ∧ off = 0x54 then s.istoreAccess p (some v)
  else if blk = 0 ∧ off = 0x70 then s.writeGreenCtrl p v
  else if blk = 1 ∧ off = 0x10 then (if field v 3 0 = 0 then s else s.plainWrite a v)
  else if blk = 4 ∧ off = 0 then { s with memPage := SMap.set 0 s.memPage (pageKey p master) (field v 8 0) }
  else if blk = 5 ∧ off = 8 then (s.plainWrite a v).setFld (coreReg p 5 0xC) 7 7 0
  else if blk = 5 ∧ off = 0x80 then s.writeTimer p v
  else if blk = 5 ∧ off = 0xC0 then s.writeBw a v
  else if blk = 7 ∧ off = 0 then s.writeTapCtrl p v
  else if blk = 8 ∧ off = 0 then
    (if s.fenced p then s.plainWrite a (v ||| (s.reg a &&& 1)) else s.plainWrite a v)
  else if blk = 8 ∧ 0x4000 ≤ off ∧ off < 0x4B40 then { s with escW := SMap.set none s.escW (p * 720 + (off - 0x4000) / 4) (some v) }
  else s.plainWrite a v

/-- A 4-byte write of one register; the flag tells of an error response. -/
def State.regWrite1 (s : State) (master a : Nat) (v : W32) : Bool × State :=
  let blk := aBlk a
  let off := aOff a
  if !s.decodes a then (true, s)
  else if aBay a < 60 ∧ aUnit a < 48 ∧ blk = 4 ∧ winOff ≤ off then
    let r := s.window master (aBay a * 48 + aUnit a) (off - winOff) 4 (some v.toNat)
    (r.1.err, r.2)
  else if (regDef a).isNone ∧ !(aBay a < 60 ∧ aUnit a < 48 ∧ blk = 4 ∧ off = 0) then (true, s)
  else if aBay a < 60 then
    if aUnit a < 48 then (false, s.writeCore master (aBay a * 48 + aUnit a) blk off a v)
    else if blk = 0 ∧ 0x200 ≤ off ∧ off < 0x300 then (false, s.writeBar (aBay a) ((off - 0x200) / 4) v)
    else if blk = 5 ∧ off = 0xC0 then (false, s.writeBw a v)
    else if blk = 0 ∧ off = 0x600 then (false, (s.plainWrite a v).repace (aBay a) 1)
    else if blk = 0 ∧ off = 0x624 then (false, (s.plainWrite a v).reselect (aBay a))
    else (false, s.plainWrite a v)
  else if aBay a = 60 then
    if blk = 0 ∧ off = 0 then
      let keep := if field v 6 1 = 0 ∨ 32 < field v 6 1 then setField v 6 1 (s.fld a 6 1) else v
      (false, s.plainWrite a keep)
    else if blk = 5 ∧ off = 0xC0 then (false, s.writeBw a v)
    else (false, s.plainWrite a v)
  else if blk = 0 ∧ 0x400 ≤ off ∧ off < 0x500 then (false, s.writeBar 60 ((off - 0x400) / 4) v)
  else if blk = 0 ∧ 0x300 ≤ off ∧ off < 0x30C then (false, s.writeJoin a v)
  else if blk = 0 ∧ off = 0x700 then (false, s.writeSideband v)
  else (false, s.plainWrite a v)

/-- The landings that a write in a landing space reaches: every working one, or the two of a pair; none for an address outside these spaces
(R506, Table 20.2). -/
def State.fanOut (s : State) (a : Nat) : Option (List Nat) :=
  if aBay a = 61 ∧ aUnit a = 0 then some ((List.range 8).filter s.linkUp)
  else if aBay a = 62 ∧ aUnit a < 4 then some [aUnit a, aUnit a + 4]
  else none

/-- A write at a list of landings; an error response of one is an error response (R506, R509). -/
def State.atLands (s : State) (ls : List Nat) (f : Nat → State → Bool × State) : Bool × State :=
  ls.foldl (fun r l => let x := f l r.2; (r.1 || x.1, x.2)) (false, s)

/-- A 4-byte register write, also in the landing spaces (R506). -/
def State.regWrite (s : State) (master a : Nat) (v : W32) : Bool × State :=
  match s.fanOut a with
  | none => s.regWrite1 master a v
  | some ls =>
    if (regDef (landReg 0 0 + a % 2 ^ 20)).isNone then (true, s)
    else s.atLands ls (fun l s => s.regWrite1 master (landReg l 0 + a % 2 ^ 20) v)

/-- An 8-byte write of one 64-bit register (R508). -/
def State.regWriteWide (s : State) (master a v : Nat) : Bool × State :=
  if a % 8 = 0 ∧ is64 a ∧ s.decodes a then
    let lo := s.regWrite1 master a (BitVec.ofNat 32 v)
    let hi := lo.2.regWrite1 master (a + 4) (BitVec.ofNat 32 (v / 2 ^ 32))
    (lo.1 || hi.1, hi.2)
  else (true, s)

/-- An 8-byte register write: of a 64-bit register only, also in the landing spaces, or of the memory window (R506, R508). -/
def State.regWrite8 (s : State) (master a v : Nat) : Bool × State :=
  if aBay a < 60 ∧ aUnit a < 48 ∧ aBlk a = 4 ∧ winOff ≤ aOff a then
    (if s.decodes a then
      let r := s.window master (aBay a * 48 + aUnit a) (aOff a - winOff) 8 (some v)
      (r.1.err, r.2)
     else (true, s))
  else match s.fanOut a with
    | none => s.regWriteWide master a v
    | some ls =>
      if !is64 (landReg 0 0 + a % 2 ^ 20) then (true, s)
      else s.atLands ls (fun l s => s.regWriteWide master (landReg l 0 + a % 2 ^ 20) v)

/-! ## Wafer and stack addresses (R392, R397, R398, R511) -/

/-- The core and memory offset that a 42-bit wafer address names. -/
def memAddr (a : Nat) : Option (Nat × Nat) :=
  if a / 2 ^ 40 % 4 = 1 ∧ a / 2 ^ 30 % 1024 < 60 ∧ a / 2 ^ 24 % 64 < 48 then some (a / 2 ^ 30 % 1024 * 48 + a / 2 ^ 24 % 64, a % 2 ^ 24) else none

/-- A memory access by a landing or board: it writes MEM_PAGE of the accessing master, then accesses the window (R511). -/
def State.pagedAccess (s : State) (master p o n : Nat) (wr : Option Nat) : ReadBack × State :=
  if !s.bayUp (coreBay p) then ({ data := List.replicate n 0, err := true }, s)
  else
    let s := { s with memPage := SMap.set 0 s.memPage (pageKey p master) (o / 32768) }
    s.window master p (o % 32768) n wr

/-- A read of n = 4 or 8 bytes in the wafer space by a master. -/
def State.waferRead (s : State) (master a n : Nat) : ReadBack × State :=
  let r := match memAddr a with
    | some (p, o) => s.pagedAccess master p o n none
    | none =>
      if 2 ^ 32 ≤ a then ({ data := List.replicate n 0, err := true }, s)
      else if n = 8 then s.regRead8 master a else s.regRead master a
  (r.1, r.2.cnNote master a (if n = 8 then 2 else 0) r.1.err)

/-- A write of n = 4 or 8 bytes in the wafer space; the flag tells of an error response. -/
def State.waferWrite (s : State) (master a n v : Nat) : Bool × State :=
  let r := match memAddr a with
    | some (p, o) => let r := s.pagedAccess master p o n (some v); (r.1.err, r.2)
    | none =>
      if 2 ^ 32 ≤ a then (true, s)
      else if n = 8 then s.regWrite8 master a v else s.regWrite master a (BitVec.ofNat 32 v)
  (r.1, r.2.cnNote master a (if n = 8 then 3 else 1) r.1)

/-! ## Meanings -/

/-- TAP_CTRL. -/
def execTapCtrl (p : Nat) (v : W32) (s : State) : Res :=
  if 2880 ≤ p then .refused .noSuchUnit else .next (if s.bayUp (coreBay p) then s.writeTapCtrl p v else { s with back := { err := true } })

/-- GREEN_CTRL. -/
def execGreenCtrl (p : Nat) (v : W32) (s : State) : Res :=
  if 2880 ≤ p then .refused .noSuchUnit else .next (if s.bayUp (coreBay p) then s.writeGreenCtrl p v else { s with back := { err := true } })

/-- STACK_MAPOUT_REQUEST: the requested channels wait for the next step boundary (R403, Table 15.6). -/
def execStackMapoutRequest (bay : Nat) (v : W32) (s : State) : Res :=
  if 60 ≤ bay then .refused .noSuchUnit
  else .next (if s.bayUp bay then s.plainWrite (hubReg bay 0x408) v else { s with back := { err := true } })

/-- MEMORY_WINDOW: an access of 4 or 8 bytes at a window offset by a master (R510). -/
def execMemoryWindow (master p off size : Nat) (wr : Option Nat) (s : State) : Res :=
  if 2880 ≤ p then .refused .noSuchUnit
  else if !s.bayUp (coreBay p) ∨ off < winOff ∨ 2 ^ 16 ≤ off ∨ (size ≠ 4 ∧ size ≠ 8) ∨ 73 < master then .next { s with back := { err := true } }
  else
    let r := s.window master p (off - winOff) size wr
    .next { r.2 with back := r.1 }

/-- TIMER_START: START is written with 1 (R520). -/
def execTimerStart (p : Nat) (s : State) : Res :=
  if 2880 ≤ p then .refused .noSuchUnit else .next (if s.bayUp (coreBay p) then s.startWindow p else s)

/-- WINDOW_END: the window's 2^WINDOW_LOG clk have passed (R520). -/
def execWindowEnd (p : Nat) (s : State) : Res :=
  if 2880 ≤ p then .refused .noSuchUnit
  else .next (if bit (s.reg (timerStat p)).toNat 0 then s.setFld (timerStat p) 1 0 2 else s)

/-- TIMER_CLAIM_END (R521). -/
def execTimerClaimEnd (p : Nat) (s : State) : Res :=
  if 2880 ≤ p then .refused .noSuchUnit else .next (s.setFld (timerStat p) 3 3 0)

/-- Whether an address is a BW_CTRL (Table 20.17). -/
def isBw (a : Nat) : Bool := aBlk a == 5 && aOff a == 0xC0 && (regDef a).isSome

/-- BW_CTRL. -/
def execBwCtrl (addr : Nat) (v : W32) (s : State) : Res :=
  if !isBw addr then .refused .noSuchUnit else .next (if s.decodes addr then s.writeBw addr v else { s with back := { err := true } })

/-- A bandwidth window ends at the unit whose BW_CTRL is at a: LAST takes its count, PEAK the largest (R522). -/
def State.bwEnd (s : State) (a : Nat) : State :=
  let s := forAll [a + 8, a + 24] (fun k s =>
    let n := SMap.get 0 s.bwAcc k % 2 ^ 48
    (s.setReg64 k n).setReg64 (k + 8) (max n (s.reg64 (k + 8)))) s
  { s with bwAcc := s.bwAcc.filter (fun e => e.1 != a + 8 && e.1 != a + 24) }

/-- BW_WINDOW_END. -/
def execBwWindowEnd (addr : Nat) (s : State) : Res :=
  if !isBw addr then .refused .noSuchUnit else .next (if bit (s.reg addr).toNat 5 then s.bwEnd addr else s)

/-- RC_READ: a 4-byte read by the active MP's master number of the register at addr (R17). -/
def execRcRead (addr : Nat) (s : State) : Res :=
  let r := s.regRead s.mpNo addr
  .next { r.2.cnNote s.mpNo addr 0 r.1.err with back := r.1 }

/-- REGISTER_WRITE (R17, R358, R359, R500 to R509). -/
def execRegisterWrite (addr : Nat) (v : W32) (master : Nat) (s : State) : Res :=
  let r := s.regWrite master addr v
  .next { r.2.cnNote master addr 1 r.1 with back := { err := r.1 } }

/-- TIME_IN_EDGE: with the mark reference on, the timebase is latched into the connector's stamp and NEW sets; as trace clock it takes the
next bit of the word on TIME_OUT (R526). -/
def execTimeInEdge (b : Nat) (s : State) : Res :=
  if 2 ≤ b then .refused .noSuchUnit
  else
    let a := gloReg (0x708 + 8 * b)
    let x := (s.reg (gloReg 0x700)).toNat
    .next (
      if bit x (2 * b) then s.setReg64 a (s.time % 2 ^ 63 + 2 ^ 63)
      else if bit x (2 * b + 1) then s.onBoard b (fun y => { y with trace := y.trace.drop 1 })
      else s)

end Sys2Proof.Machine
end

