-- ==== Sys2Proof/Machine/Fence.lean ====
section
/-! DEFINITION. Failures of cores: detection, fencing, containment, sisters and double sisters (R86, R431 to R441). -/

namespace Sys2Proof.Machine

/-! ## Containment -/

/-- Whether a job has been started and has not ended. -/
def State.jobOn (s : State) : Bool := decide (2 ≤ s.job.st)

/-- Asks for a replay of the step (1) or a restore (2), keeping the stronger. A step that has already changed a ledger is restored, not
replayed over it (DEDUCED from R282, log entry 11). -/
def State.want (s : State) (k : Nat) : State :=
  let ledger := ((s.job.loaded.map (fun m => m.ledger.isSome)).getD false) && (List.range 8).any (fun l => !(s.land l).pendDone.isEmpty)
  s.onJob (fun j => { j with need := max j.need (if k = 1 ∧ ledger then 2 else k) })

/-- The attempt is aborted unless committed, every core stops, and VC0 to VC3 of every landing are held with cause 2 (Table 17.4,
order 7; R443). With no active MP the next one does it (R482). -/
def State.contain (s : State) : State :=
  if s.jobOn ∧ s.active.isSome then ((s.abortAttempt).stopCores).holdAll 15 2 else s

/-- Adds a risk input: kind 0 corrected errors, 2 DROOP, 5 fence; detail is a count (Table 17.8). -/
def State.risk (s : State) (kind detail : Nat) : State := { s with riskLog := s.riskLog ++ [(kind, detail, s.time)] }

/-- An ALARM token from a bay hub to both root hubs (R434, Table 13.9). -/
def State.sendAlarm (s : State) (bay code detail : Nat) : State :=
  { s with sn := s.sn ++ [({ typ := 6, head := bay, a := code, b := detail } : Token)] }

/-- The neighbouring routers fence the outputs that lead to a core (Table 13.12). -/
def State.fenceOutputs (s : State) (p : Nat) : State :=
  forAll ((List.range 5).filterMap (fun o => meshNbr p o)) (fun q s => s.setFld (coreReg q 8 0) (outTo q p) (outTo q p) 1) s

/-- A bay hub isolates core p for a cause: RUN cleared, the core and its router's core fence set, its barrier counts dropped, the lines it
asked stacks for dropped, the fence recorded, its headers opened (R431, R435, R472, orders 1 to 3). -/
def State.isolate (s : State) (p cause : Nat) : State :=
  let b := coreBay p
  let i := coreIdx p
  let s := s.setFld (coreReg p 0 0) 0 0 0
  let s := if i < 32 then s.setFld (hubReg b 0x504) i i 1 else s.setFld (hubReg b 0x508) (i - 32) (i - 32) 1
  let s := (s.setFld (coreReg p 8 0) 0 0 1).setFld (hubReg b 0x50C) 10 0 (i + 64 * cause + 1024)
  let s := { s with rep := { s.rep with fence := SMap.set 0 s.rep.fence p cause } }
  let s := s.onBay b (fun y => { y with
    powered := y.powered.filter (fun k => k != i), hdr := y.hdr.filter (fun e => e.1 != i), hdrQuarter := y.hdrQuarter.filter (fun k => k != i),
    hdrDue := y.hdrDue.filter (fun k => k != i), guardHdr := y.guardHdr.filter (fun k => k != i) })
  let s := (s.showHdr b).showGuard b
  let s := if 5 ≤ s.phase then { s with startFenced := insNat s.startFenced p } else s
  let s := forAll (s.bays.map (fun e => e.1)) (fun b s => s.onBay b (fun y => { y with q := y.q.filter (fun r => r.core != p || r.kind != 0) })) s
  let s := s.setRtr p { s.rtr p with wait := [] }
  let s := if (s.core p).stored.isSome then (s.countDoubles b).showDouble (coreHalf p) else s
  (s.dropFromBars p).risk 5 1

/-- Fences a core: isolation, FENCE_NOTICE and ALARM, CORE_FENCED to the host, containment and the end-of-service floor (Table 17.4). A
silent sync link (cause 5) means that the router has failed: the neighbours fence their outputs, and the MP rewrites the escape tables
(DEDUCED from Table 21.2, log entry 41). -/
def State.fenceCore (s : State) (p cause : Nat) : State :=
  if s.fenced p then s
  else
    let s := s.isolate p cause
    let s := if cause = 5 then s.fenceOutputs p else s
    let s := if cause = 5 then s.mpRewrite else s
    let s := { s with sn := s.sn ++ [({ typ := 5, head := coreBay p, a := coreIdx p, b := 0 } : Token)] }
    let s := s.sendAlarm (coreBay p) 9 (coreIdx p + 64 * cause)
    let s := s.raise 0x0205 [(2, physCode p), (1, cause)]
    let s := if s.jobOn then (s.contain.want 2).onJob (fun j => { j with fencedSince := true }) else s
    s.endOfService

/-! ## Detection (R431 to R433) -/

/-- WATCHDOG_EXPIRY: WDOG_LIMIT has passed since the last issue of a running core that waits in no WAITM and in no later hold of ENDSTEP,
while no stack is Stopped and the job is not held or stopped (R412, R433). -/
def watchdogExpiry (p : Nat) (s : State) : State :=
  let pcr := (s.reg (coreReg p 0 4)).toNat
  let mark := bit pcr 13 && bits pcr 16 14 == 1
  if s.fld (hubReg (coreBay p) 0x500) 15 0 = 0 ∨ !s.running p ∨ mark ∨ (s.core p).endHold ∨ !s.stackStops.isEmpty ∨
     (s.jobOn ∧ s.job.st ≠ 2) then s
  else s.fenceCore p 4

/-- WATCHDOG_EXPIRY. -/
def execWatchdogExpiry (p : Nat) (s : State) : Res := coreEvent p (watchdogExpiry p) s

/-- A self-test pass begins in an idle multiply unit (R432). -/
def bistPassStart (p : Nat) (s : State) : State :=
  let c := s.core p
  if bit (s.reg (hubReg (coreBay p) 0x500)).toNat 24 ∧ c.mulX.isNone ∧ c.mulP.isNone then s.setCore p { c with bist := true } else s

/-- BIST_PASS_START. -/
def execBistPassStart (p : Nat) (s : State) : Res := coreEvent p (bistPassStart p) s

/-- A self-test pass ends: cut short by an operation, right, or wrong, which fences the core (R431, R432). It changes no result. -/
def bistPass (p : Nat) (ok ended : Bool) (s : State) : State :=
  if !(s.core p).bist then s
  else
    let s := s.onCore p (fun c => { c with bist := false })
    if ended || ok then s else s.fenceCore p 1

/-- BIST_PASS. -/
def execBistPass (p : Nat) (ok ended : Bool) (s : State) : Res := coreEvent p (bistPass p ok ended) s

/-- A memory error of a core (0 scratchpad, 1 sill, 2 instruction store): corrected and counted, or uncorrectable, which fences the core
(R86, R431); a corrected one opens a claim of the core's timer where none is open (R521). -/
def coreMemoryError (p mem : Nat) (ue : Bool) (s : State) : State :=
  let k := mem % 3
  if ue then (s.orReg (coreReg p 0 0x48) (BitVec.ofNat 32 (2 ^ (24 + k)))).fenceCore p 3
  else
    let s := (s.bump (coreReg p 0 0x48) (8 * k + 7) (8 * k) 1).risk 0 1
    let s := s.onCore p (fun c => { c with ceTimes := c.ceTimes ++ [s.time] })
    if bit (s.reg (timerStat p)).toNat 3 then s else s.claimTimer p

/-- CORE_MEMORY_ERROR. -/
def execCoreMemoryError (p mem : Nat) (ue : Bool) (s : State) : Res :=
  if 3 ≤ mem then .refused .noSuchUnit else coreEvent p (coreMemoryError p mem ue) s

/-- The corrected errors of the last second exceed CE_LIMIT, 0 acting as 1 (R431). -/
def eccLimit (p : Nat) (s : State) : State :=
  let n := ((s.core p).ceTimes.filter (fun t => decide (s.time ≤ t + 100000000))).length
  if max 1 (s.fld (hubReg (coreBay p) 0x500) 23 16) < n then s.fenceCore p 2 else s

/-- RETURN_BEAT. A fenced core's tap still passes beats (R343). A second reserved window code within 1 s from the next farther tap fences
the farther core with cause 7 (R268, R431). -/
def execReturnBeat (p : Nat) (s : State) : Res :=
  if 2880 ≤ p then .refused .noSuchUnit
  else
    let n := (s.core p).badTimes.length
    let t := returnBeat p s
    let taps := t.lineCores (t.lineHalf p)
    let far := (taps.findIdx? (fun q => q == p)).bind (fun k => taps[k + 1]?)
    match far with
    | some q => if 2 ≤ (t.core p).badTimes.length ∧ (t.core p).badTimes.length ≠ n then
        .next ((t.onCore p (fun c => { c with badTimes := [] })).fenceCore q 7) else .next t
    | none => .next t

/-- ECC_LIMIT. -/
def execEccLimit (p : Nat) (s : State) : Res := coreEvent p (eccLimit p) s

/-- SYNC_LINK_TIMEOUT: a sync link of the core's node has been silent for 64 clk (R431). -/
def execSyncLinkTimeout (p : Nat) (s : State) : Res := coreEvent p (fun s => s.fenceCore p 5) s

/-- CORE_SUPPLY_FAULT: the bay power manager reports the core's header switches or supply segment (R431). -/
def execCoreSupplyFault (p : Nat) (s : State) : Res := coreEvent p (fun s => s.fenceCore p 6) s

/-! ## Alternates and waiting -/

/-- The first alternate whose condition matches and which fits, the manifest in use included when it is the base again (R59). -/
def State.findAlt (s : State) : Option Loaded := match s.job.loaded with
  | none => none
  | some m => (m.man.alts.drop 1).findSome? (fun k =>
      if k ≠ m.alt ∧ s.condMatches m.man k then (s.fitOf m.man (m.man.effective k)).map (fun pl => loadedOf m.man k pl) else none)

/-- Whether an alternate keeps the logical core map (R51). -/
def keepsMap (m : Manifest) (k : Nat) : Bool := match m.condition k with
  | some c => bit c.2.1 0
  | none => false

/-- ALT_REQUEST naming what is lost, and the job waits with every VC held (R438, R443, Table 17.5). -/
def State.askAlternate (s : State) (names : List (Nat × Nat)) : State :=
  let s := (s.raise 0x010A names).holdAll 15 2
  if s.jobOn then s.onJob (fun j => { j with st := 5 }) else s

/-! ## Sisters (R436 to R438) -/

/-- Spares of a bay: unfenced cores without a role (R436). -/
def State.sparesOf (s : State) (b : Nat) : List Nat :=
  ((List.range 48).map (fun i => b * 48 + i)).filter (fun p => !s.fenced p && (s.core p).roles.isEmpty)

/-- The sister of a fenced core: the eligible spare of its bay (R437). -/
def State.sisterOf (s : State) (m : Loaded) (p : Nat) : Option Nat :=
  nearestOf p ((s.sparesOf (coreBay p)).filter (fun q => eligible (m.man.effective m.alt) (coreHalf p) (coreHalf q)))

/-- The host of a double sister: the nearest unfenced core of the same half with exactly one role, in a bay that hosts fewer than eight
(R438). -/
def State.doubleHost (s : State) (p : Nat) : Option Nat :=
  nearestOf p ((halfCores (coreHalf p)).filter (fun q =>
    !s.fenced q && (s.core q).roles.length == 1 && decide ((s.bay (coreBay q)).doubles < 8)))

/-- Moves role n from core p to q: program, image, TAP_CTRL, tags, maps and barrier counts; SPAD_ARB and the job settings follow (R437). -/
def State.moveRole (s : State) (m : Loaded) (n p q : Nat) : State :=
  let s := s.onCore p (fun c => { c with roles := c.roles.filter (fun x => x != n) })
  let s := s.placeRole m n q
  let s := s.onCore q (fun c => c.writeImage (imageOf (m.man.effective m.alt) n))
  let s := (s.setReg (coreReg q 0 0x40) (s.reg (coreReg p 0 0x40))).setReg (coreReg q 1 0x10) (s.reg (coreReg p 1 0x10))
  s.onJob (fun j => { j with loaded := j.loaded.map (fun l => { l with place := l.place.map (fun e => if e.1 = n then (n, q) else e) }) })

/-- A fresh context for a role: its program, its image outside the shared areas (R168, R439). -/
def freshCtx (ss : List Section) (n : Nat) : Ctx :=
  { role := some n, istore := Mem.write [] 0 ((findSec ss 1 n).getD []), spad := (({} : Core).writeImage (imageOf ss n)).spad }

/-- Forms a double sister of core q with role n of fenced core p (R438, R441, Tables 12.5, 17.15, 17.16). -/
def State.doubleRole (s : State) (m : Loaded) (n p q : Nat) : State :=
  let ss := m.man.effective m.alt
  let s := s.onCore p (fun c => { c with roles := c.roles.filter (fun x => x != n) })
  let s := s.onCore q (fun c => { c with roles := c.roles ++ [n], stored := some (freshCtx ss n) })
  let s := (s.writeMap n q).roleParts q n true
  let s := (s.setFld (coreReg q 0 0x60) 16 8 (m.assign.getD n 0 + 256)).setFld (coreReg q 0 0x80) 1 0 1
  let s := (s.showDouble (coreHalf q)).countDoubles (coreBay q)
  s.onJob (fun j => { j with loaded := j.loaded.map (fun l => { l with place := l.place.map (fun e => if e.1 = n then (n, q) else e) }) })

/-- The fenced cores that still carry a role, as payload fields. -/
def State.lostCores (s : State) : List (Nat × Nat) :=
  (((List.range 2880).filter (fun p => s.fenced p && !(s.core p).roles.isEmpty)).take 18).map (fun p => (2, physCode p))

/-- SISTERING: after containment the active MP gives each role of a fenced core to a sister; with no eligible spare it takes a fitting
alternate, else a double sister, else the job waits (R437, R438). -/
def sistering (p : Nat) (s : State) : State :=
  match s.job.loaded with
  | none => s
  | some m =>
    if !s.fenced p ∨ !s.jobOn ∨ s.active.isNone then s
    else forAll (s.core p).roles (fun n s =>
      match s.sisterOf m p with
      | some q => (s.moveRole m n p q).want 2
      | none =>
        match s.findAlt with
        | some a => (s.onJob (fun j => { j with nextLoad := some a })).want 2
        | none =>
          match s.doubleHost p with
          | some q =>
            let s := s.doubleRole m n p q
            let s := s.raise 0x0206 [(4, n), (2, physCode q)]
            (s.raise 0x010A ((2, physCode p) :: s.lostCores)).want 2
          | none => (s.askAlternate s.lostCores).want 2) s

/-- SISTERING. -/
def execSistering (p : Nat) (s : State) : Res := if 2880 ≤ p then .refused .noSuchUnit else mpRow (sistering p) s

/-! ## Role switch (R439) -/

/-- The part of the running role's scratchpad that its context holds: outside the tap slot area and the green log. -/
def Core.ownSpad (c : Core) (a : Nat) : Bool :=
  !decide (c.tapBase ≤ a ∧ a < c.tapBase + c.tapSlots * slotBytes) && !decide (c.logBase ≤ a ∧ a < c.logBase + c.logSize)

/-- The running role's context. -/
def Core.save (c : Core) (pcr : W32) (rg : SMap W32) : Ctx :=
  { role := c.curRole, v := c.v, s := c.s, x := c.x, spad := c.spad.filter (fun e => c.ownSpad e.1), sill := c.sill, istore := c.istore,
    regions := rg, dtab := c.dtab, loops := c.loops, strides := c.strides, pcReg := pcr, wait := c.wait, relIssued := c.relIssued,
    relDone := c.relDone, relCount := c.relCount, retM := c.retM, arrB := c.arrB, exports := c.exports, seg := c.seg, segRole := c.segRole,
    endHold := c.endHold, restart := c.restart, pcEnd := c.pcEnd, bound := c.bound, fresh := c.fresh, tile := c.tile, lastFmt := c.lastFmt,
    lastLoad := c.lastLoad, dq := c.dq, preds := c.preds }

/-- Puts a context into the core's memories. -/
def Core.load (c : Core) (k : Ctx) : Core :=
  { c with
    curRole := k.role, v := k.v, s := k.s, x := k.x,
    spad := (k.spad.filter (fun e => c.ownSpad e.1)).foldl (fun m e => Mem.write m e.1 [e.2]) (c.spad.filter (fun e => !c.ownSpad e.1)),
    sill := k.sill, istore := k.istore, dtab := k.dtab, loops := k.loops, strides := k.strides, wait := k.wait, relIssued := k.relIssued,
    relDone := k.relDone, relCount := k.relCount, retM := k.retM, arrB := k.arrB, exports := k.exports, seg := k.seg, segRole := k.segRole,
    endHold := k.endHold, restart := k.restart, pcEnd := k.pcEnd, bound := k.bound, fresh := k.fresh, tile := k.tile, lastFmt := k.lastFmt,
    lastLoad := k.lastLoad, dq := k.dq, preds := k.preds }

/-- Whether a stored role's wait would now be satisfied, against the live marks, counters and completions (R439). -/
def State.ctxReady (s : State) (p : Nat) (k : Ctx) : Bool :=
  let c := s.core p
  if k.endHold then k.restart && k.exports.isEmpty
  else match k.wait with
    | .none => true
    | .mark 0 m => markGeO c.arrM m
    | .mark 1 m => markGeO c.seaM m
    | .mark 2 m => markGeO k.retM m
    | .mark _ m => markGeO c.gloM m
    | .recv n v => decide (v ≤ (s.reg (recvReg p n)).toNat)
    | .barrier sc n => let b := barKey sc n; decide (SMap.get 0 k.arrB b ≤ SMap.get 0 c.doneB b)

/-- The region words of a core: state words from 0, variant tags from 64. -/
def State.regionWords (s : State) (p : Nat) : SMap W32 :=
  (List.range 64).foldl (fun m n => SMap.set 0 (SMap.set 0 m n (s.reg (regnReg p n))) (64 + n) (s.reg (coreReg p 1 (0x500 + 4 * n)))) []

/-- ROLE_SWITCH: the running role holds in a CT wait with no point held, its operations and bound exports have ended, and the stored
role's wait is satisfied: the contexts are exchanged (R439, Table 17.15). -/
def roleSwitch (p : Nat) (s : State) : State :=
  let c := s.core p
  match c.stored with
  | none => s
  | some k =>
    let pcr := s.reg (coreReg p 0 4)
    if !bit pcr.toNat 13 ∨ c.point.isSome ∨ !c.drained ∨ c.exports.any (fun e => e.plank.isSome) ∨ !s.ctxReady p k ∨
       4 < bits pcr.toNat 16 14 then s
    else
      let mine := c.save pcr (s.regionWords p)
      let s := s.setCore p ({ c.load k with stored := some mine })
      let s := upTo 64 (fun n s => (s.setReg (regnReg p n) (SMap.get 0 k.regions n)).setReg (coreReg p 1 (0x500 + 4 * n)) (SMap.get 0 k.regions (64 + n))) s
      let s := s.setReg (coreReg p 0 4) k.pcReg
      let st := coreReg p 0 0x80
      (s.setFld st 1 1 (1 - s.fld st 1 1)).bump st 18 3 1

/-- ROLE_SWITCH. -/
def execRoleSwitch (p : Nat) (s : State) : Res := coreEvent p (roleSwitch p) s

end Sys2Proof.Machine
end

