-- ==== Sys2Proof/Machine/Sync.lean ====
section
/-! DEFINITION. The sync network: mark ticks, global marks, barriers, fence notices, alarms, root failover, and the start of a crossing
(R36, R39 to R42, R80, R335, R337, R360 to R364, R393, R434). -/

namespace Sys2Proof.Machine

/-- Takes the first token equal to t from the tokens in flight; none when there is no such token. -/
def State.takeToken (s : State) (t : Token) : Option State := if s.sn.contains t then some { s with sn := s.sn.erase t } else none

/-! ## Global marks (R39, R40) -/

/-- The landings that report for a role: working, and with planks to issue (R39, R340). -/
def State.reporters (s : State) (role : Nat) : List Nat := (List.range 8).filter (fun l => s.landWorks l && !(s.merged l role).isEmpty)

/-- The lowest position of the reporting landings; none while one has issued nothing (0xFFFF_FFFF, or no report). -/
def State.lowestPos (s : State) (role : Nat) : Option Nat :=
  let ps := (s.reporters role).map (fun l => match SMap.get none s.rootPos (2 * l + role) with
    | some x => (x + 1) % 2 ^ 32
    | none => 0)
  match ps with
  | [] => none
  | p :: qs => let m := qs.foldl min p; if m = 0 then none else some (m - 1)

/-- Sends GLOBAL_MARK with the root's mark of a role to every core and landing. -/
def State.sendMark (s : State) (role plank : Nat) : State :=
  let x := s.crossingNo role
  { s with sn := s.sn ++ (List.range 2888).map (fun u => ({ typ := 2, head := u, a := x, b := plank } : Token)) }

/-- A mark tick reaches the root hubs, which keep the position; the active root broadcasts the global mark when it advances (R39);
a multiple of 2^MARK_LOG pulses TIME_OUT (R526). -/
def globalMarkUpdate (l role pos : Nat) (s : State) : State :=
  match s.takeToken { typ := 1, head := l, a := role, b := pos } with
  | none => s
  | some s =>
    let k := 2 * l + role
    let s := { s with rootPos := SMap.set none s.rootPos k (some pos), rootPosSb := SMap.set none s.rootPosSb k (some pos) }
    match s.lowestPos role with
    | none => s
    | some m =>
      let adv := match SMap.get none s.rootMark role with
        | none => true
        | some o => decide (o < m)
      if !adv then s
      else
        let s := { s with rootMark := SMap.set none s.rootMark role (some m) }
        let s := if m % 2 ^ s.fld (gloReg 0x700) 8 4 = 0 then s.markPulse else s
        if s.bayUp s.rootBay then s.sendMark role m else s

/-- GLOBAL_MARK_UPDATE. -/
def execGlobalMarkUpdate (l role pos : Nat) (s : State) : Res :=
  if 8 ≤ l ∨ 2 ≤ role then .refused .noSuchUnit else .next (globalMarkUpdate l role pos s)

/-- A global mark reaches a core or landing (unit 2880 + l), which never takes an older one (R40). -/
def globalMark (u crossing plank : Nat) (s : State) : State :=
  match s.takeToken { typ := 2, head := u, a := crossing, b := plank } with
  | none => s
  | some s =>
    let m : Mark := (crossing, plank)
    if u < 2880 then (if s.coreUp u then s.onCore u (fun c => { c with gloM := maxMark c.gloM m }) else s)
    else s.onLand (u - 2880) (fun x => { x with gloM := if x.gloM.2 = 0xFFFFFFFF ∨ !markGe x.gloM m then m else x.gloM })

/-- GLOBAL_MARK. -/
def execGlobalMark (target crossing plank : Nat) (s : State) : Res :=
  if 2888 ≤ target then .refused .noSuchUnit else .next (globalMark target crossing plank s)

/-! ## Start of a crossing (R42) -/

/-- Firmware writes ROW_JOIN of every row that no master has written since the last crossing began, and the modes take force (R22, R337,
log entry 41). -/
def State.writeJoins (s : State) (role : Nat) : State :=
  let at_ := fun (r : Nat) => gloReg (0x300 + 4 * (r / 16))
  let s := upTo 48 (fun r s =>
    if s.joinSet.contains r then s else s.fldMp (at_ r) (2 * (r % 16) + 1) (2 * (r % 16)) (s.joinPlan r role)) s
  let mode := fun (r : Nat) => s.fld (at_ r) (2 * (r % 16) + 1) (2 * (r % 16)) % 3
  { s with joins := (List.range 48).foldl (fun m r => SMap.set 0 m r (mode r)) [], joinSet := [] }

/-- A core at the start of a crossing: marks none, counts 0, and written TAP_CTRL and GREEN_CTRL values in force (R36, R80, R335). A
changed TAP_CTRL frees every slot and starts the ring afresh (DESIGN CHOICE, log entry 41). -/
def State.startCore (s : State) (p : Nat) : State :=
  let tap := s.reg (coreReg p 7 0)
  let glog := s.reg (coreReg p 0 0x70)
  let part := s.coreUp p && !(s.core p).roles.isEmpty
  s.onCore p (fun c =>
    let same := decide (c.tapInForce = tap)
    let st := fun (x : Ctx) =>
      if same then { x with relCount := 0, retM := none, bound := 0 }
      else { x with relCount := 0, retM := none, bound := 0, relIssued := 0, relDone := 0 }
    { c with
      arrM := none, seaM := none, retM := none, relCount := 0, seen := 0, bound := 0, noCopy := false, passing := none, part := part,
      raised := [], tapInForce := tap, glogInForce := glog, slots := (if same then c.slots else []),
      nextFill := (if same then c.nextFill else 0), relIssued := (if same then c.relIssued else 0), relDone := (if same then c.relDone else 0),
      stored := c.stored.map st })

/-- S_h of a half: the smallest TAP_SLOTS in force among its participating cores (R335). -/
def State.slotsOfHalf (s : State) (h : Nat) : Nat :=
  match ((halfCores h).filter (fun p => (s.core p).part)).map (fun p => (s.core p).tapSlots) with
  | [] => 0
  | n :: ns => ns.foldl min n

/-- A landing at the start of a crossing: it serves its stopped pair's rows from now on, its counts are 0, and it holds nothing of the
last crossing (R22, R335, R336). -/
def State.startLanding (s : State) (l : Nat) : State :=
  let takes := s.landWorks l && !s.landWorks (pairOf l)
  let halves := (List.range 12).flatMap (fun i => [landingHalf l i, landingHalf (pairOf l) i])
  let sh := halves.foldl (fun m h => SMap.set 0 m h (s.slotsOfHalf h)) []
  s.onLand l (fun x =>
    { x with
      takes := takes, shSlots := sh, relSeen := [], ihCount := [], issueIdx := 0, reqIdx := 0, planks := [], started := false, nonfin := 0,
      fencedHere := [] })

/-- Records the slip of the crossing that is over (R44, R45). The planned time that SLIP_THRESHOLD scales is the largest planned offset of
a landing's last entry, in 10 ns (DESIGN CHOICE, log entry 21). -/
def State.endCrossing (s : State) (role : Nat) : State :=
  let slip := min 0x0FFFFFFF s.job.slipMax
  let s := s.setFld (gloReg 0x104) 30 0 (slip + 2 ^ 28 * s.job.slipLanding)
  let plan := ((List.range 8).map (fun l => match (s.merged l role).getLast? with
    | some m => m.e.offset / 11
    | none => 0)).foldl max 0
  let thr := s.fld (gloReg 0x100) 15 0
  let s := s.onJob (fun j => { j with slipped := true })
  if thr ≠ 0 ∧ plan * thr < s.job.slipMax * 1024 then
    (s.orReg (gloReg 0x104) 0x80000000).raise 0x0107 [(2, s.crossingNo role), (8, s.job.slipMax), (1, s.job.slipLanding)]
  else s

/-- Whether every landing with planks to issue has issued the last of them. -/
def State.allIssued (s : State) : Bool := match s.job.crossing with
  | none => false
  | some role => (s.reporters role).all s.job.crossDone.contains

/-- The crossing-start barrier of a role completes: the crossing begins on the whole wafer (R36, R42, R44, R80, R335). -/
def State.startCrossing (s : State) (role : Nat) : State :=
  let s := match s.job.crossing with
    | some r => if s.job.slipped ∨ !s.allIssued then s else s.endCrossing r
    | none => s
  let s := s.onJob (fun j => { j with crossing := some role, crossStart := s.time, crossDone := [], slipMax := 0, slipLanding := 0, slipped := false })
  let s := { s with
    flights := [], rets := [], rootPos := s.rootPos.filter (fun e => e.1 % 2 != role), rootPosSb := s.rootPosSb.filter (fun e => e.1 % 2 != role),
    rootMark := s.rootMark.filter (fun e => e.1 != role) }
  let s := upTo 2880 (fun p s => s.startCore p) s
  let s := upTo 8 (fun l s => s.onLand l (fun x => { x with sits := false })) s
  (upTo 8 (fun l s => s.startLanding l) s).writeJoins role

/-- The crossing-start counter that a landing's plank order names; a landing that serves its stopped pair's rows without an order of its
own takes the pair's (R22, R42). -/
def State.startBarOf (s : State) (l role : Nat) : Nat :=
  let o := s.orderOf l role
  if o.entries.isEmpty ∧ (s.land l).takes then (s.orderOf (pairOf l) role).startBar else o.startBar

/-- The role whose crossing a completion of root counter ctr starts, none when it starts none: the forward crossing first, the backward
crossing by a later completion, and never by one on which a landing begins its forward order (R42). -/
def State.startsRole (s : State) (ctr count : Nat) : Option Nat :=
  let names := fun (role : Nat) => (List.range 8).any (fun l => !(s.merged l role).isEmpty && s.startBarOf l role == ctr)
  let later := decide ((s.job.startCount.1 ≠ ctr ∨ s.job.startCount.2 < count) ∧ SMap.get 0 s.job.startSeen ctr ≤ count) &&
    !(List.range 8).any (fun l => s.landWorks l && !(s.land l).started && !(s.merged l 0).isEmpty && s.startBarOf l 0 == ctr)
  if s.job.st < 2 ∨ s.job.aborted then none
  else match s.job.crossing with
    | none => if names 0 then some 0 else if names 1 then some 1 else none
    | some 0 => if names 1 ∧ later then some 1 else none
    | some _ => none

/-- A landing whose order names the counter begins to issue at its completion (R42); one that began an earlier crossing counts no more. -/
def State.startIssue (s : State) (l ctr count : Nat) : State := match s.job.crossing with
  | none => s
  | some role =>
    if (s.land l).started ∨ (s.merged l role).isEmpty ∨ s.startBarOf l role ≠ ctr ∨ (s.job.startCount.1 = ctr ∧ count < s.job.startCount.2) ∨
       (role = 1 ∧ count < SMap.get 0 s.job.startSeen ctr) ∨ !s.landWorks l then s
    else
      let s := s.onLand l (fun x => { x with started := true })
      let s := if role = 0 then s.onJob (fun j => { j with startSeen := SMap.set 0 j.startSeen ctr (count + 1) }) else s
      (s.markTick l role).fillRequests l

/-! ## Barriers (R361, R393) -/

/-- An arrival reaches a bay hub, or both root hubs (hub 60); who is a core, or 2880 + l for a partner's arrival (R361, R393). An arrival
of a fenced core counts for nothing (R362). -/
def barArrive (hub ctr who : Nat) (s : State) : State :=
  match s.takeToken { typ := 3, head := hub, a := ctr, b := who } with
  | none => s
  | some s =>
    if (hub < 60 ∧ !s.bayUp hub) ∨ (who < 2880 ∧ s.fenced who) then s
    else
      let b := s.bar hub ctr
      (s.setBar hub ctr { b with arr := b.arr ++ [who] }).barCheck hub ctr

/-- BAR_ARRIVE. -/
def execBarArrive (hub ctr who : Nat) (s : State) : Res :=
  if 60 < hub ∨ 64 ≤ ctr then .refused .noSuchUnit else .next (barArrive hub ctr who s)

/-- A completion reaches a core or landing; at a landing it goes on to the partner under BAR_NOTIFY, a count that a new root resends
apart, and the completion of a crossing's start counter starts the crossing (R42, R361, R363, R393). -/
def barDone (u : Nat) (scope : Bool) (ctr count : Nat) (s : State) : State :=
  match s.takeToken { typ := 4, head := u, a := (if scope then 1 else 0), b := ctr, c := count } with
  | none => s
  | some s =>
    let s := match (if scope then s.startsRole ctr count else none) with
      | some role => (s.startCrossing role).onJob (fun j => { j with startCount := (ctr, count) })
      | none => s
    if u < 2880 then
      let k := barKey scope ctr
      if s.coreUp u then s.onCore u (fun c => { c with doneB := SMap.set 0 c.doneB k (max count (SMap.get 0 c.doneB k)) }) else s
    else
      let l := u - 2880
      let nfy := bit (s.reg (landReg l (if ctr < 32 then 0x28 else 0x2C))).toNat (ctr % 32)
      let s := if nfy && decide (SMap.get 0 (s.land l).doneBar ctr < count) then s.pushFrame l (frame 10 4 (ctr + 2 ^ 8 + 2 ^ 16 * (count % 65536)) []) else s
      (s.onLand l (fun x => { x with doneBar := SMap.set 0 x.doneBar ctr (max count (SMap.get 0 x.doneBar ctr)) })).startIssue l ctr count

/-- BAR_DONE. -/
def execBarDone (unit : Nat) (scope : Bool) (ctr count : Nat) (s : State) : Res :=
  if 2888 ≤ unit ∨ 64 ≤ ctr then .refused .noSuchUnit else .next (barDone unit scope ctr count s)

/-! ## Notices and alarms -/

/-- FENCE_NOTICE reaches the wafer: the serving landings drop the core, or a whole bay's cores (index 48), from the participants
(Table 17.4, order 5). -/
def fenceNotice (bay idx : Nat) (s : State) : State :=
  match s.takeToken { typ := 5, head := bay, a := idx, b := 0 } with
  | none => s
  | some s =>
    let ps := if idx = 48 then (List.range 48).map (fun i => bay * 48 + i) else [bay * 48 + idx]
    upTo 8 (fun l s => s.onLand l (fun x => { x with fencedHere := ps.foldl insNat x.fencedHere })) s

/-- FENCE_NOTICE. -/
def execFenceNotice (bay idx : Nat) (s : State) : Res :=
  if 60 ≤ bay ∨ 48 < idx then .refused .noSuchUnit else .next (fenceNotice bay idx s)

/-- An ALARM reaches the root hubs: it goes to the active MP as an event; a stack that stops or resumes stops or frees the watchdogs
(R412, R434, Table 17.3). Reserved codes are discarded. -/
def alarm (bay code detail : Nat) (s : State) : State :=
  match s.takeToken { typ := 6, head := bay, a := code, b := detail } with
  | none => s
  | some s =>
    if code = 0 ∨ 9 < code then s
    else
      let s := s.raise 0x0607 [(1, bay), (1, code), (2, detail)]
      if code = 1 then { s with stackStops := insNat s.stackStops bay }
      else if code = 2 then { s with stackStops := s.stackStops.filter (fun b => b != bay) }
      else s

/-- ALARM. -/
def execAlarm (bay code detail : Nat) (s : State) : Res := if 60 ≤ bay then .refused .noSuchUnit else .next (alarm bay code detail s)

/-! ## Root hubs (R363, R364) -/

/-- The hub that comes first in R364's order among the bays that are not dark, bay n left out. -/
def State.nextRoot (s : State) (n : Nat) : Option Nat :=
  let d := fun (b : Nat) => (if bayX b ≤ 3 then 7 - 2 * bayX b else 2 * bayX b - 7) + (if bayY b ≤ 3 then 7 - 2 * bayY b else 2 * bayY b - 7)
  ((List.range 60).filter (fun b => b != n && !(s.bay b).dark)).foldl (fun (a : Option Nat) b => match a with
    | none => some b
    | some x => if d b < d x then some b else some x) none

/-- Writes ROOT_STATUS (Table 13.15). -/
def State.setRoots (s : State) (act : Nat) (sb : Option Nat) : State :=
  s.setReg (gloReg 0x30C) (BitVec.ofNat 32 (act + 256 * sb.getD 0 + (if sb.isSome then 2 ^ 14 else 0)))

/-- The new active root resends the global mark and every root counter's completion count (R363). -/
def State.resendRoot (s : State) : State :=
  let s := match s.job.crossing with
    | some role => (match SMap.get none s.rootMark role with
      | some m => s.sendMark role m
      | none => s)
    | none => s
  forAll ((s.barsSb).filter (fun e => e.2.d != 0)) (fun e s => { s with sn := s.sn ++ (List.range 2888).map (fun u =>
    ({ typ := 4, head := u, a := 1, b := e.1, c := e.2.d } : Token)) }) s

/-- The active MP designates a standby beside active root hub bay act, copies its counters and positions to it, and rewrites the SN routes
and, where the active root has moved, the escape tables; with no active MP the place stays empty (R353, R364). -/
def State.designate (s : State) (act : Nat) (moved : Bool) : State :=
  if s.active.isNone then { (s.setRoots act none) with mpEsc := s.mpEsc || moved }
  else
    let s := s.setRoots act (s.nextRoot act)
    let root := s.bars.filter (fun (e : Nat × BarSt) => decide (3840 ≤ e.1))
    let s := { s with barsSb := root.map (fun (e : Nat × BarSt) => (e.1 - 3840, e.2)), rootPosSb := s.rootPos }
    (if moved then s.writeEscapes else s).checkPaths

/-- ROOT_FAILOVER: the bay of a root hub is dark. The standby becomes active and resends; the active MP designates a new standby. With
both dark it designates both, whose counters and positions begin afresh (R363, R364). -/
def rootFailover (s : State) : State :=
  let aDark := (s.bay s.rootBay).dark
  let sb := bit (s.reg (gloReg 0x30C)).toNat 14
  let sDark := !sb || (s.bay s.standbyBay).dark
  if !aDark ∧ !sDark then s
  else if aDark ∧ sDark then
    match s.nextRoot 60 with
    | none => s
    | some a =>
      if s.active.isNone then s
      else
        ({ s with
          bars := s.bars.filterMap (fun (e : Nat × BarSt) => if e.1 / 64 = 60 then (if e.2.p = 0 then none else some (e.1, { p := e.2.p })) else some e),
          rootPos := [], rootMark := [] }).designate a true
  else if aDark then
    let act := s.standbyBay
    ((s.setRoots act none).resendRoot).designate act true
  else s.designate s.rootBay false

/-- ROOT_FAILOVER. -/
def execRootFailover (s : State) : Res := .next (rootFailover s)

/-- CROSSING_END: every landing has issued its last entry, and the crossing's slip is recorded (R44, R45). -/
def crossingEnd (s : State) : State := match s.job.crossing with
  | none => s
  | some role => if s.job.slipped ∨ !s.allIssued then s else s.endCrossing role

/-- CROSSING_END. -/
def execCrossingEnd (s : State) : Res := .next (crossingEnd s)

end Sys2Proof.Machine
end

