-- ==== Sys2Proof/Machine/Loss.lean ====
section
/-! DEFINITION. Loss of landings, of landing pairs and of bays (R22, R389 to R391, R442, R443, Table 17.5). -/

namespace Sys2Proof.Machine

/-- Whether a job is running, holding, held or waiting. -/
def State.jobLive (s : State) : Bool := decide (2 ≤ s.job.st ∧ s.job.st ≤ 5)

/-- Asks for a replay of the step as its next attempt unless it is committed (R317). -/
def State.replayStep (s : State) : State := if s.job.committed then s else s.want 1

/-- Evaluates the base and the alternates (R59): one that fits is loaded at the boundary, with a replay when it keeps the logical core map
and a restore otherwise; with none, ALT_REQUEST and WAITING (R442, R443). -/
def State.seekPlace (s : State) (restore : Bool) (names : List (Nat × Nat)) : State :=
  match s.job.loaded with
  | none => s
  | some m => match s.chooseAlt m.man with
    | none => (if restore then s.want 2 else s.replayStep).askAlternate names
    | some (k, pl) =>
      if k = m.alt then (if restore then s.want 2 else s.replayStep)
      else
        let s := s.onJob (fun j => { j with nextLoad := some (loadedOf m.man k pl) })
        if restore || !keepsMap m.man k then s.want 2 else s.replayStep

/-- The active MP seeks a placement for what is left; with none, the next one does (R442, R443, R480). -/
def State.mpPlace (s : State) (restore : Bool) (names : List (Nat × Nat)) : State :=
  if s.active.isSome then s.seekPlace restore names else { s with mpSeek := some (restore || s.mpSeek.getD false) }

/-- Whether every row of the landings to which a manifest or alternate gives plank orders has a serving landing (R22, R443). -/
def State.servesRows (s : State) (m : Loaded) : Bool := m.orders.all (fun o => s.landWorks (o.1 / 2) || s.landWorks (pairOf (o.1 / 2)))

/-- Whether the manifest or alternate that the next attempt uses has a serving landing for every row. -/
def State.rowsServed (s : State) : Bool := (s.job.nextLoad.or s.job.loaded).all s.servesRows

/-- Whether every role has a place: no fenced core holds one that no alternate to be loaded will move (R437, R438). -/
def State.rolesPlaced (s : State) : Bool := s.job.nextLoad.isSome || s.cores.all (fun e => e.2.roles.isEmpty || !s.fenced e.1)

/-- The landings of pairs that have both stopped working, as payload fields (R443). -/
def State.deadPairs (s : State) : List (Nat × Nat) :=
  ((List.range 8).filter (fun i => !s.landWorks i && !s.landWorks (pairOf i))).map (fun i => (1, i))

/-- The bays that are dark and the landings of pairs that have both stopped working, as payload fields (Table 17.5). -/
def State.lostUnits (s : State) : List (Nat × Nat) := ((List.range 60).filter (fun i => (s.bay i).dark)).map (fun i => (1, i)) ++ s.deadPairs

/-- Landing l has stopped working: with its pair working, the attempt is aborted and replayed with paired service (R22, R315); with both
landings of the pair stopped, the sequence of R443 runs. The end-of-service floor is evaluated (R11). -/
def State.landingStopped (s : State) (l : Nat) : State :=
  if !s.jobLive then s.endOfService
  else
    let s := s.onJob (fun j => { j with fencedSince := j.fencedSince || j.crossing.isSome })
    let s :=
      if !s.landWorks (pairOf l) then
        let names := ((List.range 8).filter (fun i => !s.landWorks i)).map (fun i => (1, i))
        (s.contain).mpPlace false names
      else if s.job.crossing.isSome && !s.job.committed && decide (s.job.st = 2) then s.abortAttempt.replayStep
      else s
    s.endOfService

/-- PLANK_ISSUE. A landing whose plank mismatched its girt schedule has stopped working (R347, R443). -/
def execPlankIssue (l : Nat) (s : State) : Res :=
  landEvent l (fun s =>
    let t := plankIssue l s
    if (t.land l).faulted && !(s.land l).faulted then t.landingStopped l else t) s

/-- A landing works again at a step boundary: a waiting job whose base manifest fits, a pair with one working landing served by it, resumes
and replays the aborted step (R22, R443; DEDUCED, log entry 41). -/
def State.landingBack (s : State) : State :=
  match s.job.loaded with
  | none => s
  | some m =>
    if s.job.st ≠ 5 then s
    else match s.fitOf m.man (m.man.effective 0) true with
      | none => s
      | some pl =>
        let s := s.onJob (fun j => { j with st := 2, nextLoad := if m.alt = 0 then none else some (loadedOf m.man 0 pl) })
        s.replayStep

/-- The resident planks of a bay are lost: landings take them from the store until a manifest or alternate places them again (R30). -/
def State.losePlanks (s : State) (b : Nat) : State :=
  let es := (s.job.loaded.map (fun m => m.orders.flatMap (fun o => o.2.entries))).getD []
  let lost := (es.filter (fun e => e.source == 1 && e.variant == 0 && e.stackAddr / 2 ^ 36 == b)).map (fun e => e.object)
  s.onJob (fun j => { j with lostPlanks := lost.foldl insNat j.lostPlanks })

/-- The power stage opens a bay's disconnect: the bay is dark, and its stack contents and queues are gone (R442). -/
def State.openDisconnect (s : State) (b : Nat) : State :=
  let s := s.losePlanks b
  let s := { (s.onBay b (fun y => { y with dark := true, lossDue := true, q := [] })) with stackStops := s.stackStops.filter (fun x => x != b) }
  { s with
    stack := Mem.zero s.stack (b * 2 ^ 36) (2 ^ 36), ledEsc := s.ledEsc.filter (fun e => e.1 / 2 ^ 36 != b),
    routers := s.routers.filter (fun e => coreBay e.1 != b) }

/-- BAY_LOSS: the bay goes dark, and orders 2, 3 and 5 to 8 of Table 17.5 run. -/
def bayLoss (b : Nat) (s : State) : State :=
  let y := s.bay b
  if !y.enabled ∨ (y.dark ∧ !y.lossDue) then s
  else
    let s := if y.dark then s else s.openDisconnect b
    let s := s.onBay b (fun y => { y with lossDue := false })
    let ps := (List.range 48).map (fun i => b * 48 + i)
    let s := forAll ps (fun p s => if s.fenced p then s else s.isolate p 9) s
    let s := forAll ps (fun p s => s.fenceOutputs p) s
    let s := { s with sn := s.sn ++ [({ typ := 5, head := b, a := 48, b := 0 } : Token)] }
    let s := forAll ((List.range 4).filterMap (fun d => bayNbr b d)) (fun n s =>
      s.onBay n (fun y => { y with lostSrc := ((List.range 4).filter (fun d => bayNbr n d == some b)).foldl insNat y.lostSrc })) s
    let live := s.jobLive
    let s := if live then s.contain.onJob (fun j => { j with fencedSince := true }) else s
    let s := (s.setFld (hubReg b 0x400) 6 0 0).mpRewrite
    let s := if live then s.mpPlace true s.lostUnits else s
    s.endOfService

/-- BAY_LOSS. -/
def execBayLoss (bay : Nat) (s : State) : Res := if 60 ≤ bay then .refused .noSuchUnit else .next (bayLoss bay s)

/-! ## Mapping out stack channels (R402 to R404, Table 15.2) -/

/-- Removes a channel from a bay's healthy list, sets C and the limit, and zeroes the bay's range; a bay without channels is dark
(Table 15.2, orders 4 and 5). -/
def State.mapOut (s : State) (b ch : Nat) : State :=
  if !bit (s.reg (hubReg b 0x404)).toNat ch ∨ !s.bayUp b then s
  else
    let s := (s.setFld (hubReg b 0x404) ch ch 0).setFld (hubReg b 0x408) ch ch 0
    let c := (s.healthy b).length
    let s := (s.setFld (hubReg b 0x400) 6 0 (2 * c)).setFld (hubReg b 0x400) 13 8 c
    let s := forAll (s.healthy b) (fun k s => s.bwCount (mkAddr b 48 5 0xC0) 1 (some k) (2 ^ 31)) (s.losePlanks b)
    let s := { s with
      stack := Mem.zero s.stack (b * 2 ^ 36) (2 ^ 36), ledEsc := s.ledEsc.filter (fun e => e.1 / 2 ^ 36 != b),
      rep := { s.rep with
        chOut := SMap.set 0 s.rep.chOut b (SMap.get 0 s.rep.chOut b ||| 2 ^ ch),
        softRows := SMap.set [] s.rep.softRows b ((SMap.get [] s.rep.softRows b).filter (fun r => r.1 != ch)) } }
    let s := s.onBay b (fun y => { y with
      held := false, failedCh := y.failedCh.filter (fun x => x != ch), softRows := y.softRows.filter (fun r => r.1 != ch),
      rowCe := y.rowCe.filter (fun e => e.1 / 2 ^ 32 != ch) })
    let s := if c = 0 then bayLoss b s else s
    s.endOfService

/-- Maps out every failed channel, and evaluates the fit of the manifest when a job is live (Table 15.2, orders 4 and 5). -/
def State.mapOutFailed (s : State) : State :=
  let due := s.bays.flatMap (fun e => e.2.failedCh.map (fun c => (e.1, c)))
  if due.isEmpty then s
  else
    let s := forAll due (fun d s => s.mapOut d.1 d.2) s
    if s.jobLive then s.seekPlace true [] else s

end Sys2Proof.Machine
end

