-- ==== Sys2Proof/Machine/Commit.lean ====
section
/-! DEFINITION. The commit of a version: READY, DONE, the decision, repeats and the stall (R312 to R317, R327, R328, Table 11.14). -/

namespace Sys2Proof.Machine

/-- Whether a COMMIT frame names the open attempt: its version V + 1, step and attempt (Table 11.13). -/
def State.namesAttempt (s : State) (f : Frame) : Bool :=
  decide (f.version = (s.job.version + 1) % 65536 ∧ f.sideNat 4 4 = s.job.step % 2 ^ 32 ∧ f.sideNat 1 1 = s.job.attempt % 256)

/-- A READY from the partner of landing l: its count is reported; one that differs from PREPARED's raises COMMIT_MISMATCH and aborts the
attempt (R314, R317). -/
def State.takeReady (s : State) (l : Nat) (f : Frame) : State :=
  match SMap.get none s.job.prepared l with
  | none => s
  | some n =>
    if !s.namesAttempt f ∨ s.job.committed ∨ s.job.aborted then s
    else if f.sideNat 8 4 = n then s.onJob (fun j => { j with readyCnt := SMap.set none j.readyCnt l (some n) })
    else ((s.raise 0x0106 [(1, l)]).abortAttempt).want 1

/-- A DONE from the partner of landing l: its COMMIT is repeated no more (Table 11.14, step 9). -/
def State.takeDone (s : State) (l : Nat) (f : Frame) : State :=
  match (s.land l).commitRep with
  | none => s
  | some c =>
    if f.version = c.version ∧ f.sideNat 4 4 = c.sideNat 4 4 ∧ f.sideNat 1 1 = c.sideNat 1 1 then
      (s.onLand l (fun x => { x with commitRep := none })).onJob (fun j => { j with doneL := insNat j.doneL l })
    else s

/-- A frozen variant's copy (V + 1) mod 2 receives a copy of its copy V mod 2 (R327). -/
def State.copyFrozen (s : State) : State :=
  forAll ((((s.job.loaded.map (fun m => m.variants)).getD []).filter (fun v => v.frozen))) (fun v s =>
    let a := v.base + (s.job.version % 2) * v.copyLen
    let b := v.base + ((s.job.version + 1) % 2) * v.copyLen
    let s := s.readFirst b (v.objects * v.blockLen)
    (s.hubCount 0 a (v.objects * v.blockLen)).stackPut b (Mem.read s.stack a (v.objects * v.blockLen))) s

/-- Whether the hub of a bay that holds a frozen variant holds accesses: its copy waits (R403, R412). -/
def State.copyWaits (s : State) : Bool := ((s.job.loaded.map (fun m => m.variants)).getD []).any (fun v =>
  v.frozen && (s.bayWaits (v.base / 2 ^ 36) || s.bayWaits ((v.base + 2 * v.copyLen - 1) / 2 ^ 36)))

/-- The conditions of R315 that landings and partners report: no row is without a serving landing (R443), every backward order is issued, every
READY count equals its PREPARED. -/
def State.allReady (s : State) : Bool :=
  !s.landsUp.isEmpty && s.job.loaded.all s.servesRows && s.backwardIssued &&
  s.landsUp.all (fun l => (SMap.get none s.job.prepared l).isSome && SMap.get none s.job.readyCnt l == SMap.get none s.job.prepared l)

/-- A master writes V into PLANK_VERSION of every landing (R258, R502). -/
def State.writeVersion (s : State) (master v : Nat) : State := upTo 8 (fun l s => s.fldBy master (landReg l 0x404) 15 0 v) s

/-- The fields of STEP_HELD: the step and the landing that held it, or, where no landing did, the group (R282, R305, R498). -/
def State.holderFields (s : State) : List (Nat × Nat) :=
  let landing := match (List.range 8).find? (fun l => (s.land l).heldStep) with
    | some l => some l
    | none => s.inputLost
  match landing, s.job.holdStep with
  | some l, _ => [(8, s.job.step), (1, l)]
  | none, some g => [(8, s.job.step), (2, g)]
  | none, none => [(8, s.job.step)]

/-- The attempt's pending state is discarded, one STEP_HELD names what held the step, and the job waits for direction with every VC held
(R282, R305, R331). -/
def State.holdStepNow (s : State) : State :=
  let held := s.holderFields
  let s := (s.abortAttempt).raise 0x0103 held
  (s.holdAll 15 2).onJob (fun j => { j with st := 4 })

/-- The active MP commits: the record is made, COMMIT goes to every working landing, V rises, PLANK_VERSION is written, the resident
planks whose location the attempt has rewritten are current again, and every landing's powers have advanced (R29, R258, R302, R314). -/
def State.commitNow (s : State) : State :=
  let s := if s.manFlag 1 then s.copyFrozen else upTo 8 (fun l s => s.luuScalars l) s.copyFrozen
  let v := (s.job.version + 1) % 65536
  let f := s.commitFrame 2 v 0
  let s := forAll s.landsUp (fun l s => (s.pushFrame l f).onLand l (fun x => { x with commitRep := some f })) s
  let s := s.onJob (fun j =>
    { j with committed := true, version := v, lastCommit := some j.step, doneL := [], overwritten := j.overwritten.filter (fun o => !j.rewritten.contains o), rewritten := [] })
  (s.writeVersion s.mpNo v).raise 0x0102 [(8, s.job.step)]

/-- COMMIT_DECISION of an application step (R315), once the watch has been evaluated (R305). -/
def commitDecision (s : State) : State :=
  if s.job.st ≠ 2 ∨ s.active.isNone ∨ s.job.committed ∨ s.job.aborted ∨ s.job.crossing ≠ some 1 ∨ !s.applies ∨ s.copyWaits then s
  else if s.stepHeld then
    (if s.objectsDone && s.backwardIssued && (s.job.watchDone || s.manFlag 1) then s.holdStepNow else s)
  else if s.allReady && (s.job.watchDone || s.manFlag 1) && !s.job.fencedSince then s.commitNow
  else s

/-- COMMIT_DECISION. -/
def execCommitDecision (s : State) : Res := mpRow commitDecision s

/-- COMMIT_REPEAT: 1 ms has passed without DONE (Table 11.14, step 8). -/
def commitRepeat (l : Nat) (s : State) : State :=
  match (s.land l).commitRep with
  | some f => s.pushFrame l f
  | none => s

/-- COMMIT_REPEAT. -/
def execCommitRepeat (l : Nat) (s : State) : Res := landEvent l (commitRepeat l) s

/-- COMMIT_STALLED: READY_TIMEOUT has passed since PREPARED at a landing whose READY is missing; waiting continues (Table 11.14, step 3). -/
def commitStalled (s : State) : State :=
  let late := s.landsUp.find? (fun l => (SMap.get none s.job.prepared l).isSome && (SMap.get none s.job.readyCnt l).isNone)
  match late with
  | none => s
  | some l =>
    if s.fld (gloReg 0x204) 15 0 = 0 ∨ s.job.stalledRaised ∨ s.job.committed then s
    else (s.raise 0x0105 [(1, l)]).onJob (fun j => { j with stalledRaised := true })

/-- COMMIT_STALLED. -/
def execCommitStalled (s : State) : Res := mpRow commitStalled s

end Sys2Proof.Machine
end

