-- ==== Sys2Proof/Machine/Snap.lean ====
section
/-! DEFINITION. The start of an attempt, snapshots, restores and loss records (R444 to R455, Tables 17.6 to 17.10, 17.20). -/

namespace Sys2Proof.Machine

/-! ## Start of an attempt -/

/-- A core whose work of an aborted attempt is dropped: engines, queues, slots, exports, green state and program state (R93, R175). -/
def Core.clearWork (c : Core) : Core :=
  { (c.restartCore) with
    mulX := none, mulP := none, epiX := none, epiP := none, vpipe := [], dtX := none, dtP := none, dq := [], preds := [none, none, none, none],
    scq := [], xfers := [], exports := [], slots := [], nextFill := 0, relIssued := 0, relDone := 0, relCount := 0, gg := [], gr := [],
    openSrc := 0, rolling := false, passing := none, bound := 0, fresh := [], stalled := false, logWaited := false, raised := [], arrM := none,
    seaM := none, retM := none, gloM := none,
    stored := c.stored.map (fun (k : Ctx) =>
      { k with v := [], s := [], x := [], loops := [{}, {}, {}, {}], strides := [0, 0, 0, 0], pcReg := 0, wait := .none, relIssued := 0,
               relDone := 0, relCount := 0, retM := none, arrB := [], exports := [], seg := 0, segRole := 0, endHold := false, restart := false, pcEnd := false,
               bound := 0, tile := none, lastFmt := none, lastLoad := none, dq := [], preds := [none, none, none, none] }) }

/-- A core with a role starts the attempt afresh at bundle 0 with RUN set; its export marks and receive counters are cleared. -/
def State.startFresh (s : State) (p : Nat) : State :=
  let s := s.onCore p Core.clearWork
  let s := upTo 64 (fun n s => if s.exporting p n then s.setFld (regnReg p n) 16 16 0 else s) s
  let s := upTo 16 (fun n s => s.setReg (recvReg p n) 0) s
  let s := (s.setPc p 0).setFld (coreReg p 0 4) 16 13 0
  s.setRun p true

/-- A landing at the start of an attempt: nothing of the last one is left; a fresh start also drops its unsent pending frames. -/
def Landing.newAttempt (x : Landing) (fresh : Bool) : Landing :=
  { x with
    planks := [], reqIdx := 0, issueIdx := 0, started := false, rslots := [], luuQ := [], luuStepDone := false, sbuf := [], pendObjs := 0,
    pendDone := [], doneBar := [], heldStep := false, nonfin := 0, sits := false, gloM := if fresh then (0, 0xFFFFFFFF) else x.gloM,
    outQ := if fresh then x.outQ.filter (fun f => f.vc != 2 && decide (f.vc < 8)) else x.outQ }

/-- Ends the holds that no host order keeps (Table 17.10, order 7). -/
def State.releaseHolds (s : State) : State :=
  upTo 8 (fun l s =>
    let host := (s.land l).hostHold
    if (s.land l).present && s.reg (landReg l 8) != host then s.sendHold l host.toNat (if host = 0 then 0 else 3) 0 else s) s

/-- Starts the next attempt of the job's step: the attempt number is one greater than any used for the step (R455), barrier counts restart
(R199), and cores begin at their ENDSTEP, or afresh after an abort or in a new place (R61, R201, R317). -/
def State.beginAttempt (s : State) (fresh : Bool) : State :=
  let n := SMap.get 0 s.job.attemptTop s.job.step
  let s := s.onJob (fun j =>
    { j with
      st := 2, between := false, holding := false, attempt := n, attemptTop := SMap.set 0 j.attemptTop j.step (n + 1), crossing := none,
      startCount := (64, 0), startSeen := [], crossDone := [],
      slipped := false, fencedSince := false, committed := false, aborted := false, prepared := [], readyCnt := [], doneL := [],
      bwdIssued := [], watch := [], watchDone := false, ratioEvents := 0, need := 0, stalledRaised := false, formatDone := false,
      holdStep := none, attLosses := [], lossOk := false, lossAsk := false, lossIn := [], lossGot := false, rewritten := [] })
  let s := { s with
    bars := s.bars.map (fun (e : Nat × BarSt) => (e.1, { e.2 with arr := [], d := 0 })),
    barsSb := s.barsSb.map (fun (e : Nat × BarSt) => (e.1, { e.2 with arr := [], d := 0 })),
    sn := s.sn.filter (fun t => decide (5 ≤ t.typ)), flights := [], rets := [] }
  let s := { s with
    bars := s.bars.filter (fun e => e.2 != default), barsSb := s.barsSb.filter (fun e => e.2 != default) }
  let s := if fresh then { s with
    routers := s.routers.filterMap (fun (e : Nat × Router) => let r : Router := { slotKeep e.2 with inb := [] }; if r = default then none else some (e.1, r)),
    bays := s.bays.map (fun (e : Nat × Bay) => (e.1, { e.2 with q := e.2.q.filter (fun r => r.kind != 0) })) } else s
  let s := upTo 8 (fun l s => s.onLand l (fun x => x.newAttempt fresh)) s
  let s := upTo 2880 (fun p s =>
    if (s.core p).roles.isEmpty ∨ !s.coreUp p then s
    else if fresh || !(s.core p).endHold then s.startFresh p
    else s.onCore p (fun c => { c with restart := true, stored := c.stored.map (fun (k : Ctx) => { k with restart := true }) })) s
  s.releaseHolds
where
  /-- What a router keeps over a fresh start: its injection counts. -/
  slotKeep (r : Router) : Router := { inj := r.inj, rr := r.rr }

/-! ## Loss records (R451, R452, Table 17.20) -/

/-- Orders loss records by logical core and then tag, keeping the order of equal ones. -/
def insLoss (r : LossRec) : List LossRec → List LossRec
  | [] => [r]
  | x :: xs => if r.core < x.core ∨ (r.core = x.core ∧ r.tag < x.tag) then r :: x :: xs else x :: insLoss r xs

def sortLosses (rs : List LossRec) : List LossRec := rs.foldl (fun a r => insLoss r a) []

/-- The loss block of a step: 16-byte records, padded to whole frames with empty records. -/
def lossBlock (rs : List LossRec) : List Byte :=
  let bs := (sortLosses rs).flatMap (fun r => leBytes 4 r.core ++ leBytes 2 r.tag ++ [0, 0] ++ leBytes 8 r.value)
  bs ++ List.replicate (max 256 (ceilDiv bs.length 256 * 256) - bs.length) 0

/-- A SNAP frame (Table 14.9). -/
def snapFrameOf (number step offset : Nat) (pay : List Byte) (last : Bool) : Frame :=
  { frame 4 3 (number % 2 ^ 32 + 2 ^ 32 * (step % 2 ^ 32) + 2 ^ 64 * (offset % 2 ^ 48)) pay with last := last }

/-- The first working landing of pair i. -/
def State.pairLanding (s : State) (i : Nat) : Option Nat := if s.landWorks i then some i else if s.landWorks (i + 4) then some (i + 4) else none

/-- Sends a step's loss block to the partner of every pair (R451). -/
def State.sendLosses (s : State) : State :=
  let b := lossBlock s.job.attLosses
  let fs := (chunks 256 (b.length / 256) b).zipIdx.map (fun c =>
    snapFrameOf 0xFFFFFFFF s.job.step (256 * c.2) c.1 (decide (256 * (c.2 + 1) = b.length)))
  upTo 4 (fun i s => match s.pairLanding i with
    | some l => s.onLand l (fun x => { x with outQ := x.outQ ++ fs })
    | none => s) s

/-- The loss log's records of a step: those of the attempt that ended it first (log entry 41). -/
def State.lossesOf (s : State) (step : Nat) : List LossRec :=
  s.job.losses.filter (fun r => r.step == step && r.att + 1 == SMap.get 0 s.job.lossAtt step)

/-! ## Snapshot image (Tables 17.6 and 17.7) -/

/-- The input position at the boundary (DESIGN CHOICE where it has advanced, log entry 5). -/
def State.inputNow (s : State) : Nat :=
  if s.job.step = s.job.firstStep then s.job.inputPos else Config.inputAt s.job.inputPos (s.job.step - s.job.firstStep)

/-- The job record (kind 1); its byte layout is the model's (DESIGN CHOICE, log entry 12). -/
def State.jobRecord (s : State) : List Byte :=
  let m := s.job.loaded
  let groups := (m.map (fun m => m.groups.length)).getD 0
  leBytes 8 s.job.step ++ leBytes 8 s.inputNow ++ leBytes 8 s.job.seedLo ++ leBytes 8 s.job.seedHi ++
  leBytes 1 (s.fld (landReg 0 0x500) 1 0) ++ leBytes 1 (s.fld (coreReg 0 1 0x10) 3 0) ++ leBytes 2 ((m.map (fun m => m.man.thinN)).getD 1) ++
  leBytes 4 (SMap.get 0 s.job.attemptTop s.job.step) ++
  (List.range 8).flatMap (fun l => leBytes 4 (s.reg (landReg l 0x604)).toNat ++ leBytes 4 (s.reg (landReg l 0x608)).toNat) ++
  (List.range groups).flatMap (fun g => leBytes 4 (SMap.get 0 s.job.zeroRun g)) ++
  (List.range groups).flatMap (fun g => leBytes 16 (SMap.get 0 s.job.fmt g))

/-- Bytes of a ledger range. -/
def rangeBytes (k : Ledger) (r : LedgerRange) : Nat := r.count * 128 * plankCols r.fmt * ledSize k.form

/-- The stack parts of a snapshot as (kind, name, address, bytes): ledger ranges, variant copies in copy V mod 2, carry ranges. -/
def State.stackParts (s : State) (m : Loaded) (version : Nat) : List (Nat × Nat × Nat × Nat) :=
  (match m.ledger with
   | some k => k.ranges.map (fun r => (2, r.first, r.base, rangeBytes k r))
   | none => []) ++
  m.variants.map (fun v => (4, v.tag, v.base + (version % 2) * v.copyLen, v.objects * v.blockLen)) ++
  s.job.carry.zipIdx.map (fun c => (5, c.2, c.1.1, c.1.2))

/-- The escape images of landing l, in its area and its spill, each with the address of its entry (kind 3; DESIGN CHOICE, log entry 12). -/
def State.escapePart (s : State) (l : Nat) : List Byte :=
  let mine := s.ledEsc.filter (fun e => (e.2 - 1) / 2 ^ 32 == l)
  leBytes 8 mine.length ++ mine.flatMap (fun e => leBytes 8 e.1 ++ leBytes 40 (wrapInt 320 (s.escImage e.1)))

/-- The parts of a snapshot: (kind, name, bytes). -/
def State.snapParts (s : State) (m : Loaded) : List (Nat × Nat × List Byte) :=
  let wcf := (m.ledger.map (fun k => k.form == 1)).getD false
  [(1, 0, s.jobRecord)] ++
  (s.stackParts m s.job.version).map (fun p => (p.1, p.2.1, Mem.read s.stack p.2.2.1 p.2.2.2)) ++
  (if wcf then (List.range 8).map (fun l => (3, l, s.escapePart l)) else [])

/-- Pads bytes to a multiple of 64. -/
def pad64 (bs : List Byte) : List Byte := bs ++ List.replicate (ceilDiv bs.length 64 * 64 - bs.length) 0

/-- The snapshot image: header, directory and parts (Table 17.7). -/
def State.snapImage (s : State) (m : Loaded) (number : Nat) : List Byte :=
  let ps := s.snapParts m
  let start := ceilDiv (0x100 + 16 * ps.length) 64 * 64
  let dir := (ps.foldl (fun (a : List Byte × Nat) p =>
    (a.1 ++ leBytes 1 p.1 ++ [0, 0, 0] ++ leBytes 4 p.2.1 ++ leBytes 8 a.2, a.2 + (pad64 p.2.2).length)) ([], start)).1
  let body := dir ++ List.replicate (start - 0x100 - dir.length) 0 ++ ps.flatMap (fun p => pad64 p.2.2)
  let magic := ([0x42, 0x47, 0x57, 0x53, 0x4E, 0x41, 0x50, 0x48] : List Byte)
  let hdr := magic ++ leBytes 4 number ++ leBytes 2 s.job.version ++ leBytes 1 m.alt ++ [0] ++ leBytes 8 s.job.step ++ m.man.mid ++
    leBytes 4 ps.length ++ leBytes 4 0 ++ leBytes 8 (0x100 + body.length) ++ sha384 body
  hdr ++ List.replicate (0x100 - hdr.length) 0 ++ body

/-- The stack ranges (address, bytes) that each part of a snapshot reads, in the order of its parts; an escape part's are its images in use
(R447). -/
def State.partRanges (s : State) (m : Loaded) : List (List (Nat × Nat)) :=
  let wcf := (m.ledger.map (fun k => k.form == 1)).getD false
  [[]] ++ (s.stackParts m s.job.version).map (fun p => [p.2.2]) ++
  (if wcf then (List.range 8).map (fun l => (s.escUsed l).map (fun n => (s.escAddr l n, 40))) else [])

/-- The offsets at which the parts of an image end, from the offset of the first (Table 17.7). -/
def partEnds (at_ : Nat) : List (List Byte) → List Nat
  | [] => []
  | p :: ps => (at_ + p.length) :: partEnds (at_ + (pad64 p).length) ps

/-- The blocks that a snapshot guards, each with the image offset at which its part ends (R447). -/
def State.guardEnds (s : State) (m : Loaded) : List (Nat × Nat) :=
  let ps := s.snapParts m
  let ends := partEnds (ceilDiv (0x100 + 16 * ps.length) 64 * 64) (ps.map (fun p => p.2.2))
  ((s.partRanges m).zip ends).flatMap (fun x => x.1.flatMap (fun r => (blocksOf r.1 r.2).map (fun b => (b, x.2))))

/-- Takes the snapshot of the present boundary: the image is captured, its stack blocks are guarded, and sending begins (R444, R447). -/
def State.takeSnap (s : State) : State :=
  match s.job.loaded with
  | none => s
  | some m =>
    let n := s.job.snapNext
    let img := s.snapImage m n
    let k : Snap := { number := n, version := s.job.version, alt := m.alt, step := s.job.step, len := img.length, image := img, ends := s.guardEnds m }
    let s := forAll ((s.partRanges m).flatMap (fun x => x)) (fun r s => s.hubCount 0 r.1 r.2) s
    s.onJob (fun j => { j with snaps := j.snaps ++ [k], snapNext := n + 1, snapDue := false, guard := k.ends.map (fun e => e.1) })

/-- Whether a snapshot is due at the boundary: ordered, or the interval of the present risk has passed since the last taken one (R449). -/
def State.snapIsDue (s : State) : Bool := s.job.snapDue || decide (s.job.lastSnapStep + s.snapEvery ≤ s.job.step)

/-- At a boundary a due snapshot starts, unless its predecessor is still being sent (R449). -/
def State.startSnap (s : State) : State :=
  if !s.snapIsDue then s
  else if s.job.snaps.any (fun k => !k.taken) then s.onJob (fun j => { j with snapDue := true })
  else s.takeSnap

/-- Stripes of an image (R446). -/
def Snap.stripes (k : Snap) : Nat := ceilDiv k.len 1048576

/-- A snapshot all of whose stripes are sent and whose pairs with stripes have all answered is taken: SNAP_TAKEN, and snapshots before the
two newest are forgotten (R446, R448). -/
def State.snapCheck (s : State) : State :=
  match s.job.snaps.find? (fun k => !k.taken) with
  | none => s
  | some k =>
    if k.sent < k.stripes ∨ !k.again.isEmpty ∨ !(List.range (min 4 k.stripes)).all k.answered.contains then s
    else
      let s := s.onJob (fun j =>
        let done := j.snaps.map (fun x => if x.number = k.number then { x with taken := true, image := [] } else x)
        let keep := done.drop (done.length - 2)
        let old := ((keep.map (fun x => x.step)).head?).getD 0
        { j with snaps := keep, lastSnapStep := k.step, guard := [], losses := j.losses.filter (fun r => decide (old ≤ r.step)),
                 lossAtt := j.lossAtt.filter (fun e => decide (old ≤ e.1)), attemptTop := j.attemptTop.filter (fun e => decide (old ≤ e.1)) })
      s.raise 0x0601 []

/-- The pairs that have not answered and whose landing with their stripes has stopped working send those again on their other landing: a
stripe travels on either (R446). -/
def State.snapReroute (s : State) (k : Snap) : Snap :=
  (List.range 4).foldl (fun (k : Snap) i => match s.pairLanding i, SMap.get 0 k.via i with
    | some l, v + 1 =>
      if v = l ∨ k.answered.contains i then k
      else { k with via := SMap.set 0 k.via i (l + 1), again := ((List.range k.sent).filter (fun n => n % 4 == i)).foldl insNat k.again }
    | _, _ => k) k

/-- The SNAP frames of stripe i; LAST stands on the last frame of each pair's last stripe (R446). -/
def Snap.frames (k : Snap) (i : Nat) : List Frame :=
  let st := (k.image.drop (1048576 * i)).take 1048576
  let n := ceilDiv st.length 256
  (chunks 256 n st).zipIdx.map (fun c =>
    snapFrameOf k.number k.step (1048576 * i + 256 * c.2) (c.1 ++ List.replicate (256 - c.1.length) 0) (decide (c.2 + 1 = n ∧ k.stripes ≤ i + 4)))

/-- Whether a hub that guards blocks of the snapshot holds accesses: its reads wait (R403, R412). -/
def State.guardHeld (s : State) : Bool := s.job.guard.any (fun b => s.bayWaits (b / 2 ^ 20))

/-- SNAPSHOT: the next stripe of the snapshot being sent goes out as SNAP frames on a working landing of its pair, once no hub holds the
snapshot's reads, and the blocks of every part that has been sent are guarded no more (R446, R447). -/
def snapshot (s : State) : State :=
  match s.job.snaps.find? (fun k => !k.taken) with
  | none => s
  | some k0 =>
    if s.guardHeld then s else
    let k := s.snapReroute k0
    let i := (k.again.head?).getD k.sent
    if k.stripes ≤ i then s.snapCheck
    else match s.pairLanding (i % 4) with
      | none => s
      | some l =>
        let s := s.onLand l (fun x => { x with outQ := x.outQ ++ k.frames i })
        let k := { k with via := SMap.set 0 k.via (i % 4) (l + 1), again := k.again.drop 1, sent := if k.again.isEmpty then i + 1 else k.sent }
        s.onJob (fun j => { j with
          snaps := j.snaps.map (fun x => if x.number = k.number then k else x),
          guard := j.guard.filter (fun b => k.ends.any (fun e => e.1 == b && decide (1048576 * k.sent < e.2))) })

/-- SNAPSHOT. -/
def execSnapshot (s : State) : Res := mpRow snapshot s

/-- SNAP_GUARD_WRITE: the block that the oldest waiting write of a bay names is read into the snapshot queue, after which the write may
proceed (R447). -/
def snapGuardWrite (s : State) : State :=
  let ws := s.bays.flatMap (fun e => if s.bayWaits e.1 then [] else
    e.2.q.flatMap (fun r => if r.wr then (blocksOf r.addr r.span).filter s.job.guard.contains else []))
  match ws with
  | [] => s
  | b :: _ => s.onJob (fun j => { j with guard := j.guard.filter (fun x => x != b) })

/-- SNAP_GUARD_WRITE. -/
def execSnapGuardWrite (s : State) : Res := .next (snapGuardWrite s)

/-! ## Restore (R453, R454, Table 17.10) -/

/-- The job can go no further: RESTORE_FAILED, and the job halts (R454, R491). -/
def State.restoreFailed (s : State) : State :=
  let s := s.onJob (fun j => { j with restoring := none, need := 0 })
  (s.raise 0x0604 []).haltJob 2

/-- The snapshot a restore uses: the one that was named, else the newest taken; its pairs' stripes must be reachable. -/
def State.restorable (s : State) : Option Snap :=
  ((s.job.snaps.filter (fun k => k.taken && (s.job.restoreNo == 0 || s.job.restoreNo == k.number))).filter (fun k =>
    (List.range (min 4 k.stripes)).all (fun i => (s.pairLanding i).isSome))).getLast?

/-- REVERT to the version of snapshot k at its step (R453). -/
def revertFrame (k : Snap) : Frame := { frame 9 4 (5 + 2 ^ 32 * (k.step % 2 ^ 32)) [] with version := k.version }

/-- Sends REVERT to the partner of landing l, which waits for REVERTED from now on. -/
def State.sendRevert (s : State) (k : Snap) (l : Nat) : State :=
  (s.pushFrame l (revertFrame k)).onLand l (fun x => { x with revertRep := some (revertFrame k) })

/-- Orders 1 and 2 of Table 17.10: the alternate is loaded and every working landing sends REVERT. -/
def State.restoreStart (s : State) (k : Snap) : State :=
  let s := match s.job.nextLoad with
    | some m => s.install m true
    | none => s
  let s := s.onJob (fun j =>
    { j with nextLoad := none, restoring := some k.number, reverted := [], restVia := [], restIn := [], need := 0, guard := [],
             replayEnd := max j.replayEnd (j.step + 1), snaps := j.snaps.filter (fun x => x.taken) })
  forAll s.landsUp (fun l s => s.sendRevert k l) s

/-- V is the snapshot's version. Where that is another than before, every resident plank holds a later one and comes from the store until
a commit has written it anew (R29, R258, R453). -/
def State.revertTo (s : State) (v : Nat) : State :=
  let es := (s.job.loaded.map (fun m => m.orders.flatMap (fun o => o.2.entries))).getD []
  let stale := if s.job.version = v then [] else (es.filter (fun e => e.source == 1 && e.variant == 0)).map (fun e => e.object)
  (s.onJob (fun j => { j with version := v, overwritten := stale.foldl insNat j.overwritten })).writeVersion s.mpNo v

/-- Whether stripe i has come in whole. -/
def State.stripeIn (s : State) (k : Snap) (i : Nat) : Bool :=
  (List.range (ceilDiv (min 1048576 (k.len - 1048576 * i)) 256)).all (fun n => !(SMap.get [] s.job.restIn (1048576 * i + 256 * n)).isEmpty)

/-- Order 3: a working landing of each pair asks for those of the pair's stripes that are missing, each with 1 MiB of VC3 credit in hand. A
pair whose asking landing has stopped working asks on its other one. -/
def State.restoreRead (s : State) (k : Snap) : State :=
  upTo (min 4 k.stripes) (fun i s => match s.pairLanding i with
    | none => s
    | some l =>
      if SMap.get 0 s.job.restVia i = l + 1 then s
      else
        let s := s.onJob (fun j => { j with restVia := SMap.set 0 j.restVia i (l + 1) })
        let s := s.onLand l (fun x =>
          if x.win3 < 4096 then { x with grantIn := SMap.set 0 x.grantIn 3 (SMap.get 0 x.grantIn 3 + (4096 - x.win3)), win3 := 4096 } else x)
        forAll ((List.range k.stripes).filter (fun n => n % 4 == i && !s.stripeIn k n)) (fun n s =>
          s.pushFrame l (snapFrameOf k.number k.step (1048576 * n) (List.replicate 256 0) false)) s) s

/-- The image as received, none while a frame of it is missing. -/
def State.restImage (s : State) (k : Snap) : Option (List Byte) :=
  let n := ceilDiv k.len 256
  if (List.range n).all (fun i => !(SMap.get [] s.job.restIn (256 * i)).isEmpty) then
    some (((List.range n).flatMap (fun i => SMap.get [] s.job.restIn (256 * i))).take k.len)
  else none

/-- Whether an image is the snapshot's: magic, number, length and digest. -/
def imageOk (k : Snap) (b : List Byte) : Bool :=
  b.take 8 == [0x42, 0x47, 0x57, 0x53, 0x4E, 0x41, 0x50, 0x48] && num b 8 4 == k.number && num b 0x30 8 == b.length &&
  sha384 (b.drop 0x100) == (b.drop 0x38).take 48

/-- Writes the job record into the job, the landings, the cores and the bays (Table 17.10, order 4). -/
def State.writeRecord (s : State) (b : List Byte) : State :=
  let groups := (s.job.loaded.map (fun m => m.groups.length)).getD 0
  let step := num b 0 8
  let s := s.onJob (fun j =>
    { j with step := step, firstStep := step, inputPos := num b 8 8, seedLo := num b 16 8, seedHi := num b 24 8,
             attemptTop := SMap.set 0 j.attemptTop step (max (num b 36 4) (SMap.get 0 j.attemptTop step)),
             zeroRun := (List.range groups).foldl (fun m g => SMap.set 0 m g (num b (104 + 4 * g) 4)) [] })
  let s := upTo 8 (fun l s =>
    ((s.fldMp (landReg l 0x500) 1 0 (num b 32 1)).regBy s.mpNo (landReg l 0x604) (BitVec.ofNat 32 (num b (40 + 8 * l) 4))).regBy s.mpNo
      (landReg l 0x608) (BitVec.ofNat 32 (num b (44 + 8 * l) 4))) s
  let s := upTo 2880 (fun p s => s.fldMp (coreReg p 1 0x10) 3 0 (num b 33 1)) s
  upTo groups (fun g s => s.writeFmt s.mpNo g (num b (104 + 4 * groups + 16 * g) 16)) s

/-- Writes the escape images of landing l's kind 3 part. -/
def State.writeEscPart (s : State) (l : Nat) (b : List Byte) : State :=
  upTo (num b 0 8) (fun i s => (s.keepImage l (num b (8 + 48 * i) 8) (num b (16 + 48 * i) 40)).getD s) s

/-- Writes the parts of an image into the places the loaded manifest names, the job record first and the escape images last. -/
def State.writeParts (s : State) (m : Loaded) (b : List Byte) : State :=
  let s := { s with ledEsc := [] }
  let dir := (List.range (num b 0x28 4)).map (fun i => (num b (0x100 + 16 * i) 1, num b (0x104 + 16 * i) 4, num b (0x108 + 16 * i) 8))
  let s := forAll dir (fun e s => if e.1 = 1 then s.writeRecord (b.drop e.2.2) else s) s
  let places := s.stackParts m (num b 0xC 2)
  let s := forAll dir (fun e s => match places.find? (fun p => p.1 == e.1 && p.2.1 == e.2.1) with
      | some p => s.stackPut p.2.2.1 ((b.drop e.2.2).take p.2.2.2)
      | none => s) s
  forAll dir (fun e s => if e.1 = 3 then s.writeEscPart e.2.1 (b.drop e.2.2) else s) s

/-- Writes a core's images anew: the running role's into its memories, the stored role's into its context; match tables are cleared
(R168, R445). -/
def Core.rewrite (ss : List Section) (c : Core) : Core :=
  { (c.writeImage (imageOf ss (c.curRole.getD 0))) with
    dtab := [], stored := c.stored.map (fun (x : Ctx) => { (freshCtx ss (x.role.getD 0)) with role := x.role }) }

/-- Orders 4, 5 and 7 of Table 17.10: the parts and every CORE_IMAGE are written, match tables cleared, SNAP_RESTORED raised, the holds
released and the snapshot's step started, for which the host supplies its input anew. -/
def State.restoreFinish (s : State) (k : Snap) (b : List Byte) : State :=
  match s.job.loaded with
  | none => s
  | some m =>
    let s := s.writeParts m b
    let s := upTo 2880 (fun p s => if (s.core p).roles.isEmpty then s else s.onCore p (Core.rewrite (m.man.effective m.alt))) s
    let s := s.onJob (fun j => { j with step := k.step, restoring := none, restIn := [], restVia := [], restoreNo := 0, snapDue := true, lostIn := [] })
    let s := s.raise 0x0602 [(8, k.step), (2, k.version), (8, s.job.inputPos)]
    s.beginAttempt true

/-- An image cannot be read or fails its digest: the older snapshot is restored, or RESTORE_FAILED. -/
def State.restoreOlder (s : State) (k : Snap) : State :=
  let s := s.onJob (fun j => { j with snaps := j.snaps.filter (fun x => x.number != k.number), restoreNo := 0, restoring := none })
  match s.restorable with
  | some k' => s.restoreStart k'
  | none => s.restoreFailed

/-- Carries a restore in progress on, unless a further loss has come in or the job waits: once every working partner has answered REVERTED, V is set and the image is asked for; once it is
complete it is verified and written, when no stack is Stopped. -/
def State.restoreGo (s : State) : State :=
  if s.job.st ≠ 2 ∨ s.job.need ≠ 0 ∨ s.job.nextLoad.isSome then s
  else match s.job.restoring.bind (fun n => s.job.snaps.find? (fun k => k.number == n)) with
  | none => s
  | some k =>
    if !s.landsUp.all s.job.reverted.contains then
      -- a landing that has come back meanwhile asks its partner too
      forAll (s.landsUp.filter (fun l => !s.job.reverted.contains l && (s.land l).revertRep.isNone)) (fun l s => s.sendRevert k l) s
    else if !(List.range (min 4 k.stripes)).all (fun i => (s.pairLanding i).isSome) then s.restoreOlder k
    else
      let s := if s.job.restVia.isEmpty then s.revertTo k.version else s
      match s.restImage k with
      | none => s.restoreRead k
      | some b =>
        if !imageOk k b then s.restoreOlder k
        else if (List.range 60).any (fun y => s.bayUp y && s.bayWaits y) then s
        else s.restoreFinish k b

/-- RESTORE: a restore that is wanted begins once roles are placed and every row has a serving landing, failed channels first mapped out; one
in progress goes on, and starts anew after a further loss (R22, R403, R443, R454). -/
def restore (s : State) : State :=
  if s.job.st ≠ 2 ∨ s.active.isNone ∨ (s.job.restoring.isNone ∧ s.job.need < 2) then s
  else if s.job.restoring.isSome ∧ s.job.need = 0 ∧ s.job.nextLoad.isNone then s.restoreGo
  else
    let s := s.mapOutFailed
    if s.job.st ≠ 2 ∨ !s.rolesPlaced then s
    else if !s.rowsServed then s.seekPlace true s.deadPairs
    else match s.restorable with
      | some k => s.restoreStart k
      | none => s.restoreFailed

/-- RESTORE. -/
def execRestore (s : State) : Res := mpRow restore s

/-- A REVERTED from the partner of landing l (R453): the last one lets the reading begin. -/
def State.takeReverted (s : State) (l : Nat) (f : Frame) : State :=
  match (s.land l).revertRep with
  | some r =>
    if f.version ≠ r.version ∨ f.sideNat 4 4 ≠ r.sideNat 4 4 then s
    else
      let s := (s.onLand l (fun x => { x with revertRep := none })).onJob (fun j => { j with reverted := insNat j.reverted l })
      s.restoreGo
  | none => s

/-- REVERT_REPEAT: 1 ms has passed without REVERTED (Table 17.10, order 2). -/
def revertRepeat (l : Nat) (s : State) : State :=
  match (s.land l).revertRep with
  | some f => s.pushFrame l f
  | none => s

/-- REVERT_REPEAT. -/
def execRevertRepeat (l : Nat) (s : State) : Res := landEvent l (revertRepeat l) s

/-! ## Comparison of replayed losses (R455) -/

/-- The first mismatch: RESTORE_MISMATCH, and the older retained snapshot is restored; a second one halts the job. -/
def State.lossMismatch (s : State) : State :=
  let s := (s.raise 0x0603 [(8, s.job.step)]).orReg (gloReg 0x504) 0x4000000
  if s.job.mismatched then s.restoreFailed
  else
    let s := s.onJob (fun j =>
      let keep := (j.snaps.filter (fun k => k.taken)).dropLast
      { j with mismatched := true, snaps := keep, restoreNo := 0 })
    ((((s.abortAttempt).stopCores).holdAll 15 2)).want 2

/-- LOSS_COMPARE at the end of a step: a replayed step's records are compared with the log, or with the block of a partner when the MP's copy
of the log lacks the step; a step that no partner holds, or without a logged loss, is not compared. With the last replayed step the run is
past the point of failure (R455). -/
def lossCompare (s : State) : State :=
  if s.job.st ≠ 2 ∨ s.job.lossOk ∨ !s.stepOver then s
  else
    let ok := s.onJob (fun j => { j with lossOk := true, mismatched := j.mismatched && decide (j.step + 1 < j.replayEnd) })
    let old := s.lossesOf s.job.step
    if !old.isEmpty then (if lossBlock old = lossBlock s.job.attLosses then ok else s.lossMismatch)
    else if SMap.get 0 s.job.lossAtt s.job.step ≠ 0 ∨ (s.job.replayEnd ≤ s.job.step ∧ !s.job.askLog) then ok
    else if s.job.lossGot then
      let b := s.job.lossIn.flatMap (fun e => e.2)
      if !bit (num b 4 2) 15 then ok
      else if b = lossBlock s.job.attLosses then ok
      else s.lossMismatch
    else if s.job.lossAsk then s
    else match (List.range 4).findSome? s.pairLanding with
      | none => ok
      | some l => (s.pushFrame l (snapFrameOf 0xFFFFFFFF s.job.step 0 (List.replicate 256 0) false)).onJob (fun j => { j with lossAsk := true })

/-- LOSS_COMPARE. -/
def execLossCompare (s : State) : Res := mpRow lossCompare s

/-- A SNAP frame from the partner of landing l: a loss block's answer, a stripe of an image being restored, or the acknowledgement of the
snapshot being sent (R446, R452, R454). -/
def State.takeSnapFrame (s : State) (l : Nat) (f : Frame) : State :=
  let number := f.sideNat 0 4
  let off := f.sideNat 8 6
  let s := s.progress l 3
  if !f.response then s
  else if number = 0xFFFFFFFF then
    if s.job.lossAsk ∧ f.sideNat 4 4 = s.job.step % 2 ^ 32 then
      s.onJob (fun j => { j with lossIn := SMap.set [] j.lossIn off f.payload, lossGot := j.lossGot || f.last })
    else s
  else if s.job.restoring = some number then
    (s.onJob (fun j => { j with restIn := SMap.set [] j.restIn off f.payload })).restoreGo
  else
    let s := s.onJob (fun j => { j with
      snaps := j.snaps.map (fun k => if k.number = number ∧ !k.taken then { k with answered := insNat k.answered (l % 4) } else k) })
    s.snapCheck

end Sys2Proof.Machine
end

