-- ==== Sys2Proof/Machine/Frames.lean ====
section
/-! DEFINITION. Frames that arrive at a landing: sequence order, injection, protocol checks, and what each type does (R257 to R261, R331,
R369 to R382, R386 to R394, Tables 14.2 to 14.11). -/

namespace Sys2Proof.Machine

/-! ## Frame bytes (Table 14.2) -/

/-- Bytes 0x000 to 0x11C of a frame; its CRC follows them. -/
def Frame.bytes (f : Frame) : List Byte :=
  leBytes 16 f.side.toNat ++ leBytes 3 f.seq ++ leBytes 4 f.object ++ leBytes 2 f.version ++ leBytes 1 f.typ ++ leBytes 1 f.vc ++
  leBytes 1 f.index ++ leBytes 1 (b2n f.last + 2 * b2n f.response + 4 * b2n f.backward + 8 * b2n f.resend) ++
  (f.payload ++ List.replicate (256 - f.payload.length) 0)

/-- The frame that bytes 0x000 to 0x11C spell. -/
def frameOf (bs : List Byte) : Frame :=
  let fl := num bs 0x1C 1
  { side := BitVec.ofNat 128 (num bs 0 16), seq := num bs 0x10 3, object := num bs 0x13 4, version := num bs 0x17 2, typ := num bs 0x19 1,
    vc := num bs 0x1A 1, index := num bs 0x1B 1, last := bit fl 0, response := bit fl 1, backward := bit fl 2, resend := bit fl 3,
    payload := (bs.drop 0x1D).take 256 }

/-- One byte of the CRC-24 of RFC 4880 (R369). -/
def crc24Byte (crc : Nat) (b : Byte) : Nat :=
  (List.range 8).foldl (fun c _ => if bit c 23 then ((2 * c) ^^^ 0x864CFB) % 2 ^ 24 else 2 * c) (crc ^^^ (b.toNat * 65536))

/-- The CRC-24 of bytes 0x000 to 0x11C of a frame, which stands at 0x11D (R369, Table 14.2). -/
def crcOf (f : Frame) : Nat := (Frame.bytes f).foldl crc24Byte 0xB704CE

/-- A frame and its CRC field with bits of one byte inverted (Table 14.23). -/
def flipByte (f : Frame) (byte m : Nat) : Nat × Frame :=
  let bs := Frame.bytes f ++ leBytes 3 (crcOf f)
  match bs[byte]? with
  | some b => let x := listSet bs byte (b ^^^ BitVec.ofNat 8 m); (num x 0x11D 3, frameOf x)
  | none => ((crcOf f), f)

/-! ## HAIL and acknowledgement (R380, R381, R388) -/

/-- The sender_id of a landing's HAIL: lot code and wafer number of the module, and the landing number (R388). -/
def State.senderId (s : State) (l : Nat) : Nat := (s.reg (mkAddr 63 0 6 0)).toNat % 2 ^ 30 + 2 ^ 30 * (s.fld (mkAddr 63 0 6 4) 4 0) + 2 ^ 35 * l

/-- A HAIL of landing l: the last sequence number accepted in order, NAK, and the identifier (Table 14.9). -/
def State.hailFrame (s : State) (l : Nat) (nak : Bool) : Frame :=
  let ack := ((s.land l).rxExpect + 2 ^ 24 - 1) % 2 ^ 24
  frame 7 4 (ack + 2 ^ 24 * b2n nak + 2 ^ 64 * s.senderId l) []

/-- A HAIL falls due; it is sent at the next frame boundary (R383). -/
def State.queueHail (s : State) (l : Nat) (nak : Bool) : State := s.onLand l (fun x => { x with probeQ := x.probeQ ++ [s.hailFrame l nak], ackDue := false })

/-- The frame expected has not arrived: a NAK is sent once, and repeated by NAK_REPEAT (R380). -/
def State.gap (s : State) (l : Nat) : State :=
  if (s.land l).nakWanted then s else (s.queueHail l true).onLand l (fun x => { x with nakWanted := true })

/-- Starts a resend from entry i of the replay buffer (R382); REPLAYS and the risk monitor count it. -/
def State.resendFrom (s : State) (l i : Nat) : State :=
  let x := s.land l
  let sooner := match x.resendIdx with
    | some k => decide (i < k)
    | none => true
  if sooner then (((s.setLand l { x with resendIdx := some i }).bump (landReg l 0x10) 15 0 1).risk 1 l) else s

/-- A HAIL from the partner: acknowledged frames leave the replay buffer, a NAK starts a resend, and a changed identifier halts issue
until the host acknowledges it (R380, R382, R388, R389). -/
def State.takeHail (s : State) (l : Nat) (f : Frame) : State :=
  let x := s.land l
  let n := match x.replay with
    | [] => 0
    | g :: _ => (f.sideNat 0 3 + 2 ^ 24 - g.seq) % 2 ^ 24 + 1
  let s :=
    if x.replay.length < n then s
    else s.setLand l { x with replay := x.replay.drop n, resendIdx := x.resendIdx.map (fun k => k - n) }
  let y := s.land l
  let s :=
    if f.sideNat 3 1 ≠ 1 then s
    else match y.replay with
      | [] => s
      | g :: _ =>
        let i := (f.sideNat 0 3 + 1 + 2 ^ 24 - g.seq) % 2 ^ 24
        if i < y.replay.length then s.resendFrom l i else s
  let id := f.sideNat 8 8
  let old := s.reg64 (landReg l 0x20)
  let seen := (s.land l).partnerSeen
  let s := (s.setReg64 (landReg l 0x20) id).onLand l (fun x => { x with partnerSeen := true })
  if seen && old != id then
    let s := (s.orReg (landReg l 4) 0x100000).onLand l (fun x => { x with halted := true })
    let s := s.raise 0x0405 [(1, l)]
    if (s.land (pairOf l)).partnerSeen && s.reg64 (landReg (pairOf l) 0x20) != id then s.raise 0x0404 [(1, l)] else s
  else s

/-! ## PROBE (R386) -/

/-- The answer to a PROBE (Table 14.11). -/
def State.probeAnswer (s : State) (l token : Nat) : Frame :=
  let x := s.land l
  { frame 8 4 token (leBytes 2 s.job.version ++ [0, 0] ++ leBytes 4 s.job.step ++ leBytes 2 x.gloM.1 ++ [0, 0] ++ leBytes 4 x.gloM.2 ++
      leBytes 4 (s.regShown (landReg l 4)).toNat) with response := true }

/-- A PROBE is answered; a response to the landing's own PROBE changes nothing. -/
def State.takeProbe (s : State) (l : Nat) (f : Frame) : State :=
  if f.response then s else s.onLand l (fun x => { x with probeQ := x.probeQ ++ [s.probeAnswer l (f.sideNat 0 8)] })

/-! ## PLANK (R259, R260, R372 to R374, R378, R379) -/

/-- Refuses the plank of buffer b: a REFETCH naming its object and V is sent and counts as a new request, REFUSALS rises, and the eighth
refusal in a crossing sets STALE (R259, R260); a green issue of it is denied. -/
def State.refuse (s : State) (l : Nat) (b : PlankBuf) (plank got : Nat) : State :=
  let v := s.landV l
  let s := s.bump (landReg l 0x404) 23 16 1
  let s := if b.refused + 1 = 8 then (s.orReg (landReg l 0x404) 0x1000000).raise 0x0305 [(1, l), (4, b.object), (2, got), (2, v)] else s
  let s := if b.issued then s.judge l plank false else s
  let nb : PlankBuf := { role := b.role, idx := b.idx, object := b.object, refused := b.refused + 1, issued := b.issued }
  let s := s.onLand l (fun x => { x with planks := x.planks.erase b ++ [nb] })
  s.pushFrame l { frame 13 4 (b.role + 2 ^ 32 * plank) [] with object := b.object, version := v }

/-- A frame that passes its checks joins the plank: a green issue of it sees the frame, and the last frame confirms it or makes the plank
available (R373, R379). -/
def State.joinFrame (s : State) (l : Nat) (b : PlankBuf) (plank : Nat) (f : Frame) : State :=
  let d := Mem.write (Mem.write b.data (256 * f.index) f.payload) (65536 + 16 * f.index) (leBytes 16 f.side.toNat)
  let nb := { b with frames := b.frames + 1, data := d, full := decide (f.index = 255), version := if f.index = 0 then f.version else b.version }
  let s := { s with flights := s.flights.map (fun (g : Flight) =>
    if b.issued && g.landing == l && g.plank == plank && g.green && g.verdict.isNone then { g with avail := b.frames + 1, data := d } else g) }
  let open_ := b.issued && s.flights.any (fun g => g.landing == l && g.plank == plank && g.green && g.verdict.isNone)
  if nb.full && open_ then
    let s := s.onLand l (fun x => { x with planks := x.planks.erase b })
    ((s.judge l plank true).progress l 0).fillRequests l
  else
    let s := s.onLand l (fun x => { x with planks := x.planks.map (fun y => if y == b then nb else y) })
    if nb.full then (s.progress l 0).fillRequests l else s

/-- A PLANK frame answers the oldest unanswered request (R372): the frames that follow a refused one are discarded up to the next frame 0;
a frame 0 that cuts a plank short refuses that plank and begins the next. -/
def State.takePlank (s : State) (l : Nat) (f : Frame) : State :=
  match s.job.crossing with
  | none => s
  | some role =>
    if (s.land l).swallow && f.index != 0 then s.onLand l (fun x => { x with swallow := f.index != 255 })
    else
      let s := s.onLand l (fun x => { x with swallow := false })
      let es := s.merged l role
      let plankNo := fun (b : PlankBuf) => ((es[b.idx]?).map (fun m => m.e.plank)).getD 0
      let next := fun (s : State) => (s.land l).planks.find? (fun b => !b.full)
      let cut := match next s with
        | some b => if f.index = 0 ∧ b.frames ≠ 0 then s.refuse l b (plankNo b) f.version else s
        | none => s
      match next cut with
      | none => cut.onLand l (fun x => { x with swallow := true })
      | some b =>
        if f.object = b.object ∧ f.version = (if f.index = 0 then cut.landV l else b.version) ∧ f.backward = decide (b.role = 1) ∧ f.index = b.frames ∧
           f.last = decide (f.index = 255) then
          cut.joinFrame l b (plankNo b) f
        else (cut.refuse l b (plankNo b) f.version).onLand l (fun x => { x with swallow := f.index != 255 })

/-! ## FREIGHT (R294, R331, R375, R376) -/

/-- The step of the job that a frame names by its low 32 bits, at or after the present one; none when it lies before (Table 14.8). -/
def State.stepNamed (s : State) (f : Frame) : Option Nat :=
  let d := (f.sideNat 4 4 + 2 ^ 32 - s.job.step % 2 ^ 32) % 2 ^ 32
  if d < 2 ^ 31 then some (s.job.step + d) else none

/-- Lost input holds the step that its frame names, with one VARIANT_TAG event a step (R331, R376). -/
def State.lostInput (s : State) (l : Nat) (f : Frame) : State :=
  match s.stepNamed f with
  | none => s
  | some n =>
    if s.job.st = 0 ∨ SMap.get 0 s.job.lostIn n ≠ 0 then s
    else (s.raise 0x0304 [(1, l)]).onJob (fun j => { j with lostIn := SMap.set 0 j.lostIn n (l + 1) })

/-- The bay in which input of landing l still waits, if any. -/
def State.inputWaits (s : State) (l : Nat) : Option Nat := (s.bays.find? (fun e => e.2.q.any (fun r => r.kind == 6 && r.core == l))).map (fun e => e.1)

/-- The number of the next input of landing l that waits. -/
def State.inputNo (s : State) (l : Nat) : Nat :=
  s.bays.foldl (fun n e => e.2.q.foldl (fun n r => if r.kind = 6 ∧ r.core = l then max n (r.spad + 1) else n) n) 0

/-- Input is written to the stack, which is progress of VC1; while its hub holds accesses or guards a block of it, or earlier input of the
landing waits, it waits at the hub (R376, R387, R403, R412, R447). -/
def State.putInput (s : State) (l a : Nat) (bs : List Byte) : State :=
  let b := a / 2 ^ 36
  if (s.inputWaits l).isSome || s.hubHolds b || (blocksOf a bs.length).any s.job.guard.contains then
    s.hubQueue b { core := l, wr := true, addr := a, spad := s.inputNo l, data := bs, kind := 6 }
  else (s.stackPut a bs).progress l 1

/-- An input frame: an unlisted variant tag or an address that the stack does not hold discards it; else it is written to the stack. -/
def State.takeInput (s : State) (l : Nat) (f : Frame) : State :=
  let tag := f.sideNat 1 1
  let a := f.sideNat 8 8 % 2 ^ 42
  if tag ≠ 0 ∧ (s.variantOf tag).isNone then (s.bump (landReg l 0x700) 15 0 1).lostInput l f
  else if a % 256 ≠ 0 ∨ !s.stackOk a 256 then (s.bump (landReg l 0x18) 31 16 1).lostInput l f
  else s.putInput l a f.payload

/-- A state tensor frame joins the buffer of its object; LAST completes the tensor (R294). -/
def State.takeState (s : State) (l : Nat) (f : Frame) : State :=
  let t := f.sideNat 2 1
  let s := (s.progress l 2).onLand l (fun x => { x with sbuf := x.sbuf.map (fun b =>
    if b.object = f.object ∧ b.want.contains t ∧ !b.done.contains t then
      { b with tens := SMap.set [] b.tens t (Mem.write (SMap.get [] b.tens t) (f.sideNat 8 4) f.payload),
               done := if f.last then insNat b.done t else b.done }
    else b) })
  s.askNext l

/-! ## CREDIT, HOLD and BARRIER (R371, R387, R393) -/

/-- Credit increments by VC; VC0 and the inbound half of VC2 take none (Table 14.5). -/
def State.takeCredit (s : State) (l : Nat) (f : Frame) : State :=
  s.onLand l (fun x => { x with credit := (List.range 31).foldl (fun c i =>
    SMap.set 0 c (i + 1) (SMap.get 0 c (i + 1) + f.payNat (4 * (i + 1)) 4)) x.credit })

/-- The partner's HOLD mask replaces the last one. -/
def State.takeHold (s : State) (l : Nat) (f : Frame) : State := s.setReg (landReg l 0xC) (BitVec.ofNat 32 (f.sideNat 0 4))

/-- A partner's arrival goes to both root hubs once every input frame before it is in its stack: it follows input that a hub holds (R377,
R393). -/
def State.partnerArrives (s : State) (l n : Nat) : State :=
  match s.inputWaits l with
  | some b => s.hubQueue b { core := l, wr := false, addr := b * 2 ^ 36, spad := n, data := [], kind := 5 }
  | none => { s with sn := s.sn ++ [({ typ := 3, head := 60, a := n, b := 2880 + l } : Token)] }

/-- A BARRIER frame. -/
def State.takeBarrier (s : State) (l : Nat) (f : Frame) : State :=
  if f.sideNat 1 1 = 0 ∧ f.sideNat 0 1 < 64 then s.partnerArrives l (f.sideNat 0 1) else s

/-! ## Register access by a partner (R392, Table 14.10) -/

/-- The stack access that a record makes, as address, bytes and whether it writes (Table 14.10). -/
def State.recordStack (s : State) (r : List Byte) : Option (Nat × Nat × Bool) :=
  let op := num r 6 1
  let a := num r 0 6 % 2 ^ 42
  let n := if op ≤ 2 then 4 else 8
  if num r 0 6 / 2 ^ 46 = 1 ∧ 0 < op ∧ op ≤ 4 ∧ s.stackOk a n then some (a, n, op % 2 == 0) else none

/-- One access record of 16 bytes by landing l: its answer and the state after it. -/
def State.accessRecord (s : State) (l : Nat) (r : List Byte) : List Byte × State :=
  let a := num r 0 6
  let op := num r 6 1
  let addr := a % 2 ^ 42
  let space := a / 2 ^ 46
  let n := if op ≤ 2 then 4 else 8
  let answer := fun (st : Nat) (data : List Byte) => r.take 7 ++ leBytes 1 st ++ data ++ List.replicate (8 - data.length) 0
  let same := (r.drop 8).take 8
  if op = 0 then (answer 0 same, s)
  else if 4 < op ∨ 2 ≤ space then (answer 3 same, s)
  else if space = 1 then
    if !s.stackOk addr n then (answer 2 (if op % 2 = 1 then [] else same), s)
    else if op % 2 = 1 then (answer 0 (Mem.read s.stack addr n), s.hubCount 0 addr n)
    else (answer 0 same, s.stackPut addr (same.take n))
  else if op % 2 = 1 then
    let x := s.waferRead l addr n
    (answer (b2n x.1.err) (if x.1.err then [] else x.1.data), x.2)
  else
    let x := s.waferWrite l addr n (leNat (same.take n))
    (answer (b2n x.1) same, x.2)

/-- The hub that makes a record wait, with the access: its bay holds accesses, or guards a block that the record writes (R403, R412, R447). -/
def State.recordHeld (s : State) (r : List Byte) : Option (Nat × Bool) := match s.recordStack r with
  | some (a, n, wr) => if s.hubHolds (a / 2 ^ 36) || (wr && (blocksOf a n).any s.job.guard.contains) then some (a, wr) else none
  | none => none

/-- The last k records of the 16 of a REGWRITE or REGREAD frame (type typ) are performed in order, answers taking the place of records, and the
frame is answered with one of its type. A record that must wait at a hub makes the frame wait there; go tells that the first one has
waited (R392). -/
def State.doRecords (s : State) (l typ : Nat) : Nat → Bool → List Byte → State
  | 0, _, pay => s.pushFrame l { frame typ 5 0 pay with response := true }
  | k + 1, go, pay =>
    let at_ := 16 * (15 - k)
    let r := leBytes 16 (num pay at_ 16)
    match (if go then none else s.recordHeld r) with
    | some (a, wr) => s.hubQueue (a / 2 ^ 36) { core := l, wr := wr, addr := a, spad := typ + at_, data := pay, kind := 3 }
    | none =>
      let x := s.accessRecord l r
      x.2.doRecords l typ k false (pay.take at_ ++ x.1 ++ pay.drop (at_ + 16))

/-- A REGWRITE or REGREAD frame. -/
def State.takeAccess (s : State) (l : Nat) (f : Frame) : State :=
  if f.response then s else s.doRecords l f.typ 16 false (f.payload ++ List.replicate (256 - f.payload.length) 0)

/-! ## Arrival (R369, R370, R380, R391, R394) -/

/-- Whether a frame's type, VC and direction agree with Tables 14.3 and 14.8 for a frame from the partner. -/
def inboundOk (f : Frame) : Bool :=
  match f.typ with
  | 1 => f.vc == 0
  | 2 => (f.sideNat 0 1 == 0 && f.vc == 1) || (f.sideNat 0 1 == 1 && f.vc == 2)
  | 4 => f.vc == 3
  | 5 => f.vc == 4
  | 6 => f.vc == 4
  | 7 => f.vc == 4
  | 8 => f.vc == 4
  | 9 => f.vc == 4
  | 10 => f.vc == 4
  | 11 => f.vc == 5
  | 12 => f.vc == 5
  | _ => false

/-- A frame under R370: counted, and 16 of them within 1 ms raise PROTOCOL_ERROR. -/
def State.protoError (s : State) (l : Nat) : State :=
  let s := s.bump (landReg l 0x18) 15 0 1
  let ts := ((s.land l).protoTimes.filter (fun t => decide (s.time < t + 100000))) ++ [s.time]
  if 16 ≤ ts.length then (s.onLand l (fun x => { x with protoTimes := [] })).raise 0x0402 [(1, l)]
  else s.onLand l (fun x => { x with protoTimes := ts })

/-- What an accepted frame of each type does. -/
def State.dispatchFrame (s : State) (l : Nat) (f : Frame) : State :=
  match f.typ with
  | 1 => s.takePlank l f
  | 2 => if f.sideNat 0 1 = 0 then s.takeInput l f else s.takeState l f
  | 4 => s.takeSnapFrame l f
  | 5 => s.takeCredit l f
  | 6 => s.takeHold l f
  | 7 => s.takeHail l f
  | 8 => s.takeProbe l f
  | 9 => (match f.sideNat 0 1 with
    | 1 => s.takeReady l f
    | 3 => s.takeDone l f
    | 6 => s.takeReverted l f
    | _ => s)
  | 10 => s.takeBarrier l f
  | 11 => s.takeAccess l f
  | 12 => s.takeAccess l f
  | _ => s

/-- An accepted frame that used credit of VC1, VC3, VC4 or VC5 gives that credit back (R371, Table 14.4). -/
def State.refund (s : State) (l : Nat) (f : Frame) : State :=
  if f.typ ≠ 5 ∧ [1, 3, 4, 5].contains f.vc then s.onLand l (fun x => { x with grantIn := SMap.set 0 x.grantIn f.vc (SMap.get 0 x.grantIn f.vc + 1) })
  else s

/-- A frame whose CRC holds reaches the receiver: HAIL and PROBE at once, every other type in sequence order only (R380). -/
def State.receive (s : State) (l : Nat) (f : Frame) : State :=
  let s := if f.resend then s else s.bwCount (mkAddr 60 l 5 0xC0) 0 (some f.vc) 256
  if f.typ = 7 ∨ f.typ = 8 then (if inboundOk f then s.dispatchFrame l f else s.protoError l)
  else
    let x := s.land l
    let d := (f.seq + 2 ^ 24 - x.rxExpect) % 2 ^ 24
    if d = 0 then
      let s := (s.setLand l { x with rxExpect := (x.rxExpect + 1) % 2 ^ 24, nakWanted := false, ackDue := true }).refund l f
      if inboundOk f then s.dispatchFrame l f else s.protoError l
    else if d < 2 ^ 23 then s.gap l
    else s.onLand l (fun x => { x with ackDue := true })

/-- A frame that fails its CRC, or that lay in an uncorrectable codeword (unc), is discarded and counted, and the receiver asks for the frame
it expects (R369, R380, Tables 14.16 and 14.17). -/
def State.loseFrame (s : State) (l : Nat) (unc : Bool) : State :=
  (if unc then s.bump (landReg l 0x14) 31 24 1 else s.bump (landReg l 0x10) 31 16 1).gap l

/-- Whether the injection rule of landing l acts on a frame of a direction (0 inbound, 1 outbound), with the matching frame counted; a
one-shot rule disarms (R394, Tables 14.21 to 14.26). -/
def State.injectHit (s : State) (l dir : Nat) (f : Frame) : Bool × State :=
  let c := (s.reg (landReg l 0x900)).toNat
  let m := (s.reg (landReg l 0x904)).toNat
  let typOk := bits m 7 0 == 0 || bits m 7 0 == f.typ
  let vcOk := bits m 15 8 == 0xFF || bits m 15 8 == f.vc
  if !bit c 0 || bits c 3 3 != dir || !typOk || !vcOk then (false, s)
  else
    let per := max 1 (s.fld (landReg l 0x90C) 23 0)
    let n := (s.land l).injCount + 1
    if bit c 5 && decide (n < per) then (false, s.onLand l (fun x => { x with injCount := n }))
    else
      let s := (s.onLand l (fun x => { x with injCount := 0 })).bump (landReg l 0x914) 23 0 1
      (true, if bit c 5 then s else s.setFld (landReg l 0x900) 0 0 0)

/-- Symbols that FEC corrects for bits m of one byte: one, or two when the byte may straddle a symbol (free value, log entry 5). -/
def State.fecCorrect (s : State) (l m : Nat) : State :=
  if m = 0 then s
  else
    let two := bit (Config.freeByte s.freeCtr).toNat 0
    { (s.bump (landReg l 0x14) 23 0 (if two then 2 else 1)) with freeCtr := s.freeCtr + 1 }

/-- A frame goes on past the injection point, followed by the frame of its VC that waited to be exchanged with it (R394). -/
def State.passIn (s : State) (l : Nat) (f : Frame) : State :=
  match (s.land l).injSwapIn.find? (fun g => g.vc == f.vc) with
  | some g => ((s.onLand l (fun x => { x with injSwapIn := x.injSwapIn.erase g })).receive l f).receive l g
  | none => s.receive l f

/-- A frame whose bits the rule inverts after FEC: its CRC is checked (R369, R394). -/
def State.corruptIn (s : State) (l : Nat) (f : Frame) : State :=
  let x := flipByte f (s.fld (landReg l 0x908) 8 0) (s.fld (landReg l 0x908) 16 9)
  if crcOf x.2 = x.1 then s.passIn l x.2 else s.loseFrame l false

/-- A frame of the wire passes the injection point of the receiving direction; every matching frame counts, whatever waits there (R394). -/
def State.injectIn (s : State) (l : Nat) (f : Frame) : State :=
  let h := s.injectHit l 0 f
  let s := h.2
  let x := s.land l
  if !x.injHeldIn.isEmpty then s.setLand l { x with injHeldIn := x.injHeldIn ++ [f] }
  else if !h.1 then s.passIn l f
  else match s.fld (landReg l 0x900) 2 1 with
    | 0 => s
    | 1 => if s.fld (landReg l 0x900) 4 4 = 0 then (s.fecCorrect l (s.fld (landReg l 0x908) 16 9)).passIn l f else s.corruptIn l f
    | 2 => if x.injSwapIn.any (fun g => g.vc == f.vc) then s.passIn l f else s.setLand l { x with injSwapIn := x.injSwapIn ++ [f] }
    | _ => s.setLand l { x with injHeldIn := [f] }

/-- A frame arrives at landing l whose link is trained; frames from a lost partner are discarded (R391). -/
def State.arrive (s : State) (l : Nat) (f : Frame) : State := if s.linkLive l then s.injectIn l f else s

/-- COMMIT_READY. -/
def execCommitReady (l : Nat) (f : Frame) (s : State) : Res := landEvent l (fun s => s.arrive l f) s
/-- COMMIT_DONE. -/
def execCommitDone (l : Nat) (f : Frame) (s : State) : Res := landEvent l (fun s => s.arrive l f) s
/-- PLANK_FRAME. -/
def execPlankFrame (l : Nat) (f : Frame) (s : State) : Res := landEvent l (fun s => s.arrive l f) s
/-- FREIGHT. -/
def execFreight (l : Nat) (f : Frame) (s : State) : Res := landEvent l (fun s => s.arrive l f) s
/-- CREDIT. -/
def execCredit (l : Nat) (f : Frame) (s : State) : Res := landEvent l (fun s => s.arrive l f) s
/-- HOLD_FRAME. -/
def execHoldFrame (l : Nat) (f : Frame) (s : State) : Res := landEvent l (fun s => s.arrive l f) s
/-- HAIL. -/
def execHail (l : Nat) (f : Frame) (s : State) : Res := landEvent l (fun s => s.arrive l f) s
/-- PROBE. -/
def execProbe (l : Nat) (f : Frame) (s : State) : Res := landEvent l (fun s => s.arrive l f) s
/-- BARRIER_FRAME. -/
def execBarrierFrame (l : Nat) (f : Frame) (s : State) : Res := landEvent l (fun s => s.arrive l f) s
/-- REGWRITE. -/
def execRegwrite (l : Nat) (f : Frame) (s : State) : Res := landEvent l (fun s => s.arrive l f) s
/-- REGREAD. -/
def execRegread (l : Nat) (f : Frame) (s : State) : Res := landEvent l (fun s => s.arrive l f) s
/-- SNAP_FRAME. -/
def execSnapFrame (l : Nat) (f : Frame) (s : State) : Res := landEvent l (fun s => s.arrive l f) s
/-- REVERTED. -/
def execReverted (l : Nat) (f : Frame) (s : State) : Res := landEvent l (fun s => s.arrive l f) s
/-- BAD_FRAME. -/
def execBadFrame (l : Nat) (f : Frame) (s : State) : Res := landEvent l (fun s => s.arrive l f) s

/-- FRAME_LOSS: a frame fails its CRC, or lay in an uncorrectable codeword. -/
def execFrameLoss (x : LossAt) (s : State) : Res :=
  landEvent x.land (fun s => if s.linkLive x.land then s.loseFrame x.land x.unc else s) s

end Sys2Proof.Machine
end

