-- ==== Sys2Proof/Machine/Link.lean ====
section
/-! DEFINITION. The sending side of a landing's link: acknowledgement, replay, keepalive, HOLD, the choice of the next frame, outbound
injection, and training and loss of the link (R367, R371, R380 to R391, R394, R524). -/

namespace Sys2Proof.Machine

/-! ## HAIL and replay (R380 to R382, R385) -/

/-- NAK_REPEAT: 2 µs have passed and the frame expected has not arrived (R380). -/
def execNakRepeat (l : Nat) (s : State) : Res :=
  landEvent l (fun s => if s.linkLive l && (s.land l).nakWanted then s.queueHail l true else s) s

/-- HAIL_ACK_DUE: accepted frames are unacknowledged (R381). -/
def execHailAckDue (l : Nat) (s : State) : Res :=
  landEvent l (fun s => if s.linkLive l && (s.land l).ackDue then s.queueHail l false else s) s

/-- REPLAY_TIMEOUT: no acknowledgement has advanced for 100 µs while frames are unacknowledged (R382). -/
def execReplayTimeout (l : Nat) (s : State) : Res :=
  landEvent l (fun s => if s.linkLive l && !(s.land l).replay.isEmpty then s.resendFrom l 0 else s) s

/-- HAIL_IDLE: the landing has sent no frame for HAIL_IDLE; it keeps sending HAIL to a lost partner (R385, R390). -/
def execHailIdle (l : Nat) (s : State) : Res := landEvent l (fun s => if s.linkUp l then s.queueHail l false else s) s

/-! ## HOLD (R387) -/

/-- Whether a cause inside the module holds traffic now (Table 14.9): 0 schedule, 1 a stopped stack of the bay named, 2 a held step, 3 a
host order. -/
def State.holdCause (s : State) (l cause bay : Nat) : Bool :=
  match cause with
  | 0 => s.job.crossing.isSome
  | 1 => s.stackStops.contains bay
  | 2 => s.stepHeld || decide (s.job.st = 4)
  | 3 => (s.land l).hostHold != 0 || s.job.holding
  | _ => false

/-- HOLD: a VC has made no progress for HOLD_AFTER for a cause inside the module; the mask grows by the VC (R387). -/
def holdVc (l vc cause bay : Nat) (s : State) : State :=
  let m := (s.reg (landReg l 8)).toNat
  if s.fld (landReg l 0) 15 7 = 0 ∨ !s.linkLive l ∨ 32 ≤ vc ∨ !s.holdCause l cause bay ∨ bit m vc then s
  else s.sendHold l (m + 2 ^ vc) cause (if cause = 1 then bayX bay + 8 * bayY bay else 0)

/-- HOLD. -/
def execHold (l vc cause bay : Nat) (s : State) : Res := landEvent l (holdVc l vc cause bay) s

/-! ## Training and loss (R367, R371, R390) -/

/-- PARTNER_LOST: no frame has arrived for PARTNER_TIMEOUT (R390). -/
def partnerLost (l : Nat) (s : State) : State :=
  if !s.linkLive l then s
  else ((s.orReg (landReg l 4) 0x20000).raise 0x0403 [(1, l)]).landingStopped l

/-- PARTNER_LOST. -/
def execPartnerLost (l : Nat) (s : State) : Res := landEvent l (partnerLost l) s

/-- Working lane groups. -/
def State.groupsUp (s : State) (l : Nat) : Nat := ((List.range 16).filter (bit (s.reg (landReg l 4)).toNat)).length

/-- LANE_GROUP_DOWN: the group, in service or failing its training, is disabled; with fewer than 4 the link is no longer trained and the
landing stops working (R10, R367). -/
def laneGroupDown (l g : Nat) (s : State) : State :=
  if 16 ≤ g then s
  else
    let was := s.landWorks l
    let s := (s.setFld (landReg l 4) g g 0).raise 0x0401 [(1, l)]
    if s.groupsUp l < 4 ∧ bit (s.reg (landReg l 4)).toNat 16 then
      let s := s.setFld (landReg l 4) 16 16 0
      if was then s.landingStopped l else s.endOfService
    else s

/-- LANE_GROUP_DOWN. -/
def execLaneGroupDown (l g : Nat) (s : State) : Res := landEvent l (laneGroupDown l g) s

/-- A link that has just trained starts with no credit, and grants its own receive buffers (R371, Table 14.4). -/
def Landing.freshCredit (x : Landing) : Landing :=
  { x with credit := [], grantIn := [(1, 1024), (3, 1024), (4, 64), (5, 32)], win3 := 1024 }

/-- LINK_TRAINED: a lane group works; with four the link is trained (R367). A landing whose pair serves its rows serves them again from
the next crossing; a waiting job may resume (R22, R443). -/
def linkTrained (l g : Nat) (s : State) : State :=
  if 16 ≤ g then s
  else
    let s := s.setFld (landReg l 4) g g 1
    if bit (s.reg (landReg l 4)).toNat 16 ∨ s.groupsUp l < 4 then s
    else
      let sit := (s.land (pairOf l)).takes && s.job.crossing.isSome && !s.job.aborted && decide (2 ≤ s.job.st ∧ s.job.st ≤ 3)
      let s := (s.setFld (landReg l 4) 16 16 1).onLand l (fun x => { x.freshCredit with sits := sit, faulted := false })
      s.landingBack

/-- LINK_TRAINED. -/
def execLinkTrained (l g : Nat) (s : State) : Res := landEvent l (linkTrained l g) s

/-! ## The wire (R394) -/

/-- A frame reaches the wire with a CRC field (R369). -/
def State.onWire (s : State) (l : Nat) (x : Nat × Frame) : State :=
  let s := s.onLand l (fun y => { y with wire := y.wire ++ [x] })
  if x.2.resend then s else s.bwCount (mkAddr 60 l 5 0xC0) 1 (some x.2.vc) 256

/-- A frame goes on past the injection point with a CRC field, followed by the frame of its VC that waited to be exchanged with it. -/
def State.passOut (s : State) (l : Nat) (x : Nat × Frame) : State :=
  match (s.land l).injSwap.find? (fun g => g.vc == x.2.vc) with
  | some g => ((s.onLand l (fun y => { y with injSwap := y.injSwap.erase g })).onWire l x).onWire l (crcOf g, g)
  | none => s.onWire l x

/-- A frame passes the injection point of the sending direction; every matching frame counts, whatever waits there (R394). Bits inverted
before FEC reach the partner corrected. -/
def State.emit (s : State) (l : Nat) (f : Frame) : State :=
  let h := s.injectHit l 1 f
  let s := h.2
  let x := s.land l
  let c := landReg l 0x908
  if !x.injHeldOut.isEmpty then s.setLand l { x with injHeldOut := x.injHeldOut ++ [f] }
  else if !h.1 then s.passOut l (crcOf f, f)
  else match s.fld (landReg l 0x900) 2 1 with
    | 0 => s
    | 1 => s.passOut l (if s.fld (landReg l 0x900) 4 4 = 0 then (crcOf f, f) else flipByte f (s.fld c 8 0) (s.fld c 16 9))
    | 2 => if x.injSwap.any (fun g => g.vc == f.vc) then s.passOut l (crcOf f, f) else s.setLand l { x with injSwap := x.injSwap ++ [f] }
    | _ => s.setLand l { x with injHeldOut := [f] }

/-- INJECTED_DELAY_END: INJ_DELAY has passed, and the frames held go on in order (R394). -/
def injectedDelayEnd (l : Nat) (s : State) : State :=
  let x := s.land l
  let ins := x.injHeldIn
  let outs := x.injHeldOut
  let s := s.setLand l { x with injHeldIn := [], injHeldOut := [], wire := [] }
  let s := forAll outs (fun f s => s.onWire l (crcOf f, f)) s
  forAll ins (fun f s => if s.linkLive l then s.receive l f else s) s

/-- INJECTED_DELAY_END. -/
def execInjectedDelayEnd (l : Nat) (s : State) : Res := landEvent l (injectedDelayEnd l) s

/-! ## The next frame (R371, R382, R383, R387, R524) -/

/-- Frames the replay buffer holds (R382). -/
def replayRoom : Nat := 3640

/-- Credit that consumed frames have freed goes out with the next CREDIT frame, which is made when none waits (R371). -/
def State.grantNow (s : State) (l : Nat) : State :=
  let x := s.land l
  if x.grantIn.isEmpty ∨ x.outQ.any (fun f => f.typ == 5) then s else s.pushFrame l (creditFrame [] [])

/-- A CREDIT frame with increments put into its payload. -/
def withGrants (f : Frame) (g : SMap Nat) : Frame :=
  { f with payload := (List.range 32).flatMap (fun i => leBytes 4 (SMap.get 0 g i)) ++ f.payload.drop 128 }

/-- Whether a landing may send frame f next on its VC: the partner does not hold the VC, and credit is in hand, which CREDIT needs not
(R371, R387). -/
def State.maySend (s : State) (l : Nat) (f : Frame) : Bool :=
  !bit (s.reg (landReg l 0xC)).toNat f.vc && (decide (f.typ = 5) || decide (0 < SMap.get 0 (s.land l).credit f.vc))

/-- The data VCs in the order they are served: from the one after the last served, or, while fewer than 256 frames are free, in the order
of R524; VC3 last in both (R446). -/
def dataOrder (rot free : Nat) : List Nat :=
  let vs := 2 :: (List.range 16).map (fun i => 8 + i)
  (if free < 256 then vs else vs.filter (fun v => decide (rot < v)) ++ vs.filter (fun v => decide (v ≤ rot))) ++ [3]

/-- The new sequenced frame that is sent next, if any. A HOLD that no longer holds VC4 goes first, and one that no longer holds another VC before
any frame of it (R387). No VC4 frame passes a REFETCH, whose request comes before later ones (R372, log entry 41); no other frame goes out
on a VC whose HOLD stays. -/
def State.nextFrame (s : State) (l : Nat) : Option Frame :=
  let x := s.land l
  let free := replayRoom - x.replay.length
  if free = 0 then none
  else
    let stays := fun (v : Nat) => bit (s.reg (landReg l 8)).toNat v && s.holdStays l v
    let free4 := (x.outQ.find? (fun f => f.typ == 6)).bind (fun f => if bit (f.sideNat 0 4) 4 || !s.maySend l f then none else some f)
    let c4 := free4.or ((x.outQ.take (1 + (x.outQ.findIdx (fun f => f.typ == 13)))).find? (fun f =>
      f.vc == 4 && (f.typ == 6 || !stays 4) && s.maySend l f))
    let head := fun (v : Nat) => match x.outQ.find? (fun f => f.vc == v) with
      | some f => if s.maySend l f then some f else none
      | none => none
    let releases := fun (v : Nat) => x.outQ.any (fun f => f.typ == 6 && !bit (f.sideNat 0 4) v)
    let data := fun (v : Nat) =>
      let full3 := v == 3 && decide (1024 ≤ (x.replay.filter (fun f => f.vc == 3)).length)
      if free ≤ 64 ∨ releases v ∨ stays v ∨ full3 then none else head v
    match c4, (if releases 5 ∨ stays 5 then none else head 5) with
    | some f, _ => some f
    | none, some f => some f
    | none, none => (dataOrder x.rot free).findSome? data

/-- Sends a new sequenced frame: it takes the next sequence number, a place in the replay buffer and, CREDIT apart, one frame of credit. -/
def State.sendNew (s : State) (l : Nat) (f : Frame) : State :=
  let x := s.land l
  let g := { (if f.typ = 5 then withGrants f x.grantIn else f) with seq := x.txSeq }
  let s := s.setLand l { x with
    outQ := x.outQ.erase f, txSeq := (x.txSeq + 1) % 2 ^ 24, replay := x.replay ++ [g],
    grantIn := if f.typ = 5 then [] else x.grantIn,
    credit := if f.typ = 5 then x.credit else SMap.set 0 x.credit f.vc (SMap.get 0 x.credit f.vc - 1),
    rot := if f.vc = 4 ∨ f.vc = 5 then x.rot else f.vc }
  s.emit l g

/-- FRAME_SEND: at a frame boundary the landing sends a resend, else a due HAIL or PROBE response, else a new frame (R383), before the first
of which on a held VC its HOLD is withdrawn (R387). To a lost partner it sends no sequenced frame (R390). A landing whose last pending frame
has left, or that has none, prepares (R314). -/
def frameSend (l : Nat) (s : State) : State :=
  if !s.linkUp l then s
  else
    let s := s.onLand l (fun x => { x with wire := [] })
    let live := s.linkLive l
    let s := if live then s.grantNow l else s
    let x := s.land l
    match (if live then x.resendIdx.bind (fun i => (x.replay[i]?).map (fun f => (i, f))) else none), x.probeQ with
    | some (i, f), _ =>
      (s.setLand l { x with resendIdx := if i + 1 < x.replay.length then some (i + 1) else none }).emit l { f with resend := true }
    | none, f :: rest =>
      let g := if f.typ = 7 then s.hailFrame l (bit (f.sideNat 3 1) 0 && x.nakWanted) else f
      (s.setLand l { x with resendIdx := none, probeQ := rest }).emit l g
    | none, [] =>
      let s := s.onLand l (fun x => { x with resendIdx := none })
      if !live then s
      else
        let s := match s.nextFrame l with
          | some f => if f.typ = 6 then s else s.progress l f.vc
          | none => s
        match s.nextFrame l with
        | some f => (s.sendNew l f).prepare l
        | none => s.prepare l

/-- FRAME_SEND. -/
def execFrameSend (l : Nat) (s : State) : Res := landEvent l (frameSend l) s

end Sys2Proof.Machine
end

