-- ==== Sys2Proof/Machine/Stacks.lean ====
section
/-! DEFINITION. Bay stacks: channel loss, row repair, errors, scrub, refresh and temperature (R402 to R413). -/

namespace Sys2Proof.Machine

/-! ## Channels and rows (R400, R402, R407) -/

/-- Whether an attempt may be open: the job runs and is not at a step boundary. -/
def State.attemptOpen (s : State) : Bool := decide (s.job.st = 2) && !s.job.between

/-- The hub declares a channel failed: its bay's accesses are held, STACK_CHANNEL_LOST is raised, and the attempt is aborted for a restore
(Table 15.2, orders 1 and 3). Between attempts the channel is mapped out at once. -/
def State.channelFailed (s : State) (b ch : Nat) : State :=
  if !s.bayUp b ∨ !bit (s.reg (hubReg b 0x404)).toNat ch ∨ (s.bay b).failedCh.contains ch then s
  else
    let s := (s.onBay b (fun y => { y with held := true, failedCh := y.failedCh ++ [ch] })).raise 0x0501 [(1, b), (1, ch)]
    if s.attemptOpen then s.abortAttempt.want 2 else s.mapOutFailed

/-- STACK_CHANNEL_LOST. -/
def execStackChannelLost (bay ch : Nat) (s : State) : Res :=
  if 60 ≤ bay ∨ 32 ≤ ch then .refused .noSuchUnit else .next (s.channelFailed bay ch)

/-- The key of a row's error count. -/
def rowKey (ch row : Nat) : Nat := ch * 2 ^ 32 + row

/-- STACK_REPAIR register of a bay (Table 15.9). -/
def State.showRepairs (s : State) (b : Nat) : State :=
  let y := s.bay b
  let used := fun (c : Nat) => (y.softRows.filter (fun r => r.1 == c)).length
  let full := (List.range 32).foldl (fun m c => if used m < used c then c else m) 0
  s.setReg (hubReg b 0x414) (BitVec.ofNat 32 (y.softRows.length + 2 ^ 12 * full + 2 ^ 18 * used full))

/-- Soft repair of a row; a row that needs it while the channel's table of 64 is full fails the channel (R402, R407, R408). -/
def State.repairRow (s : State) (b ch row : Nat) : State :=
  let y := s.bay b
  let known := y.softRows.contains (ch, row)
  if !known ∧ 64 ≤ (y.softRows.filter (fun r => r.1 == ch)).length then s.channelFailed b ch
  else
    let s := s.setBay b { y with
      softRows := if known then y.softRows else y.softRows ++ [(ch, row)], rowCe := SMap.set 0 y.rowCe (rowKey ch row) 0 }
    let rec0 := SMap.get [] s.rep.softRows b
    let s := { s with rep := { s.rep with softRows := SMap.set [] s.rep.softRows b (if rec0.contains (ch, row) then rec0 else rec0 ++ [(ch, row)]) } }
    (s.showRepairs b).raise 0x0502 [(1, b), (1, ch), (4, row)]

/-- A row has collected more than ROW_CE_LIMIT corrected errors within a scrub pass (R407). -/
def stackRepair (b ch row : Nat) (s : State) : State :=
  if !s.bayUp b ∨ !bit (s.reg (hubReg b 0x404)).toNat ch then s else s.repairRow b ch row

/-- STACK_REPAIR. -/
def execStackRepair (bay ch row : Nat) (s : State) : Res :=
  if 60 ≤ bay ∨ 32 ≤ ch then .refused .noSuchUnit else .next (stackRepair bay ch row s)

/-! ## Accesses (R401, R403, R406, R412, R447) -/

/-- A read of a row finds a correctable error: the hub corrects it and counts it, also against the row; a row that collects more than
ROW_CE_LIMIT within a scrub pass is repaired (R406, R407, R525). -/
def State.corrected (s : State) (b ch row : Nat) : State :=
  let n := SMap.get 0 (s.bay b).rowCe (rowKey ch row) + 1
  let s := ((s.onBay b (fun y => { y with rowCe := SMap.set 0 y.rowCe (rowKey ch row) n })).bump (hubReg b 0x410) 15 0 1).risk 0 1
  if max 1 (s.fld (hubReg b 0x418) 3 0) < n then s.repairRow b ch row else s

/-- A move unit's line access is performed: its core's transfer is one line nearer its end (R188). -/
def State.lineAccess (s : State) (r : SReq) : State :=
  let c := s.core r.core
  let m := match c.xfers with
    | x :: _ => (x.pt, x.mask)
    | [] => (0, 0)
  let c := if r.wr then c else c.putSpad m.1 r.spad (Mem.read s.stack r.addr 64) m.2
  let c := match c.xfers with
    | x :: rest => { c with xfers := { x with left := x.left - 1 } :: rest }
    | [] => c
  let s := if r.wr then s.stackPut r.addr r.data else s.hubCount 0 r.addr 64
  s.setCore r.core c

/-- An access taken from a bay's list is performed: a line, a write, a host's read, a partner's records, a plank's read, or an arrival. -/
def State.perform (s : State) (r : SReq) : State := match r.kind with
  | 0 => s.lineAccess r
  | 1 => s.stackPut r.addr r.data
  | 2 => { s.hubCount 0 r.addr r.spad with back := { data := Mem.read s.stack r.addr r.spad } }
  | 3 => s.doRecords r.core (r.spad % 16) (16 - r.spad / 16) true r.data
  | 4 => s.givePlank r.core r.spad
  | 6 => (s.stackPut r.addr r.data).progress r.core 1
  | _ => s.partnerArrives r.core r.spad

/-- The access that a channel comes to is performed (R401); none while the bay's accesses are held or the stack is Stopped (R403, R412), and
no write into a guarded block that the snapshot has not read (R447). ce names, with 1 added, a row in which a read of the channel found a
correctable error. -/
def stackAccess (b ch ce : Nat) (s : State) : State :=
  if s.bayWaits b ∨ !s.bayUp b then s
  else
    let s := if ce = 0 then s else s.corrected b ch (ce - 1)
    match s.nextAccess b ch with
    | none => s
    | some r =>
      if r.wr ∧ (blocksOf r.addr r.span).any s.job.guard.contains then s
      else (s.onBay b (fun y => { y with q := y.q.erase r })).perform r

/-- STACK_ACCESS. -/
def execStackAccess (bay : Nat) (x : ChAccess) (s : State) : Res :=
  if 60 ≤ bay ∨ 32 ≤ x.ch then .refused .noSuchUnit else .next (stackAccess bay x.ch x.ce s)

/-! ## Uncorrectable errors and the patrol scrub (R406, R409) -/

/-- The row of a stack address in its channel (R400; free row size, log entry 5). -/
def State.rowOf (s : State) (a : Nat) : Nat :=
  let c := (s.healthy (a / 2 ^ 36)).length
  let o := a % 2 ^ 36
  (o / 1024 / c * 1024 + o % 1024) / Config.rowBytes

/-- Whether a stack address lies in a row of a channel of a bay. -/
def State.inRow (s : State) (b ch row a : Nat) : Bool := a / 2 ^ 36 == b && s.channelOf a == ch && s.rowOf a == row

/-- What of the job's lasting state a set of stack cells holds: parts that only a snapshot has (true), and resident planks (R30). -/
def State.lostParts (s : State) (cells : List Nat) : Bool × List Nat :=
  match s.job.loaded with
  | none => (false, [])
  | some m =>
    let hit := fun (a n : Nat) => cells.any (fun x => decide (a ≤ x ∧ x < a + n))
    let planks := (m.orders.flatMap (fun e => e.2.entries)).filter (fun e => e.source == 1 && e.variant == 0 && hit e.stackAddr (65536 + scaleArea e.fmt))
    ((s.stackParts m s.job.version).any (fun p => hit p.2.2.1 p.2.2.2), planks.map (fun e => e.object))

/-- An uncorrectable error: STACK_UE, the attempt aborted for replay, and the row repaired and zeroed; lasting state that it held makes
the replay a restore, and resident planks come from the store (R30, R409; DEDUCED, log entry 13). A second one in the channel within
1 s fails the channel. -/
def State.stackError (s : State) (b ch row addr master : Nat) : State :=
  let s := (s.bump (hubReg b 0x410) 23 16 1).raise 0x0503 [(1, b), (1, ch), (8, addr), (1, master)]
  let gone := (s.stack.filter (fun c => s.inRow b ch row c.1)).map (fun c => c.1)
  let lost := s.lostParts gone
  let s := if s.attemptOpen then s.abortAttempt.want (if lost.1 then 2 else 1) else if s.jobLive ∧ lost.1 then s.want 2 else s
  let s := s.repairRow b ch row
  let s := { s with stack := s.stack.filter (fun c => !gone.contains c.1) }
  let s := s.onJob (fun j => { j with overwritten := lost.2.foldl insNat j.overwritten })
  let old := (s.bay b).ueRecent.filter (fun e => e.1 == ch && decide (s.time < e.2 + 100000000))
  let s := s.onBay b (fun y => { y with ueRecent := y.ueRecent.filter (fun e => decide (s.time < e.2 + 100000000)) ++ [(ch, s.time)] })
  if old.isEmpty then s else s.channelFailed b ch

/-- A read of an address by a master finds an uncorrectable error (R409). -/
def stackUe (b ch addr master : Nat) (s : State) : State :=
  if addr / 2 ^ 36 ≠ b ∨ !s.stackOk addr 1 ∨ s.channelOf addr ≠ ch then s else s.stackError b ch (s.rowOf addr) addr master

/-- STACK_UE. -/
def execStackUe (bay ch addr master : Nat) (s : State) : Res :=
  if 60 ≤ bay ∨ 32 ≤ ch then .refused .noSuchUnit else .next (stackUe bay ch addr master s)

/-- The address of the codeword at byte k of a row of a channel (R400). -/
def State.rowAddr (s : State) (b ch row k : Nat) : Nat :=
  let h := s.healthy b
  let c := row * Config.rowBytes + k
  b * 2 ^ 36 + (c / 1024 * h.length + (h.findIdx (fun x => x == ch))) * 1024 + c % 1024

/-- The scrub comes to a row: one that it has read in this pass begins the next pass, in which every row counts afresh (R407). -/
def State.scrubPass (s : State) (b ch row : Nat) : State := s.onBay b (fun y =>
  if y.scrubbed.contains (rowKey ch row) then { y with scrubbed := [rowKey ch row], rowCe := [] }
  else { y with scrubbed := insNat y.scrubbed (rowKey ch row) })

/-- The scrub reads a row and finds no error (0), a correctable one (1), or an uncorrectable one in codeword err − 2 of the row, with the
bay hub as reading master (R406, R407, R409). -/
def patrolScrub (b ch row err : Nat) (s : State) : State :=
  if !s.bayUp b ∨ !bit (s.reg (hubReg b 0x404)).toNat ch ∨ !bit (s.reg (hubReg b 0x418)).toNat 4 then s
  else
    let s := (s.scrubPass b ch row).bwCount (mkAddr b 48 5 0xC0) 0 (some ch) Config.rowBytes
    if err = 0 then s
    else if err = 1 then s.corrected b ch row
    else s.stackError b ch row (s.rowAddr b ch row (16 * (err - 2))) (128 + b)

/-- PATROL_SCRUB. -/
def execPatrolScrub (bay ch row err : Nat) (s : State) : Res :=
  if 60 ≤ bay ∨ 32 ≤ ch then .refused .noSuchUnit else .next (patrolScrub bay ch row err s)

/-- STACK_REFRESH: refresh costs time and loses no data (R410, log entry 6). -/
def execStackRefresh (bay ch : Nat) (s : State) : Res := if 60 ≤ bay ∨ 32 ≤ ch then .refused .noSuchUnit else .next s

/-! ## Temperature (R411 to R413, Table 15.3) -/

/-- The thermal state that a temperature gives from a present state: 0 Normal, 1 Throttled, 2 Stopped, 3 Shutdown. -/
def thermalNext (st : Nat) (t : Int) : Nat :=
  if 115 < t then 3
  else if 105 < t then max st 2
  else if st = 2 ∧ 100 ≤ t then 2
  else if 95 < t then 1
  else if 1 ≤ st ∧ 92 ≤ t then 1
  else 0

/-- STACK_THERMAL: the hottest sensor is read; each change of state raises an event, Stopped sends its alarms, and Shutdown opens the
bay's disconnect. -/
def stackThermal (b : Nat) (t : Int) (s : State) : State :=
  if !s.bayUp b then s
  else
    let a := hubReg b 0x40C
    let st := s.fld a 9 8
    let nx := thermalNext st t
    let s := s.setFld a 7 0 (min 255 t.toNat)
    if nx = st then s
    else
      let s := s.raise 0x0504 [(1, b), (1, nx), (2, wrapInt 16 t)]
      if nx = 3 then s.openDisconnect b
      else
        let s := s.setFld a 9 8 nx
        let s := if nx = 0 then s else s.orReg a (if nx = 1 then 0x400 else 0x800)
        if nx = 2 then s.sendAlarm b 1 (min 255 t.toNat)
        else if st = 2 then s.sendAlarm b 2 (min 255 t.toNat)
        else s

/-- STACK_THERMAL. -/
def execStackThermal (bay : Nat) (temp : Int) (s : State) : Res := if 60 ≤ bay then .refused .noSuchUnit else .next (stackThermal bay temp s)

end Sys2Proof.Machine
end

