-- ==== Sys2Proof/Machine/Power.lean ====
section
/-! DEFINITION. Power, clock and thermal events of bays and of the module, and the risk monitor (R450, R457 to R479, R548, R550). -/

namespace Sys2Proof.Machine

/-! ## Phases and supplies (R460 to R462, R466) -/

/-- PHASE_STATUS of a bay (Table 18.13). -/
def phaseReg (b : Nat) : Nat := hubReg b 0x608

/-- The disconnect of a bay opens on a supply fault of a rail: ALARM SUPPLY_TRIP, and the record marks the bay dark (R462, R530). -/
def State.trip (s : State) (b rail : Nat) : State :=
  if !s.bayUp b then s
  else
    let s := (s.openDisconnect b).sendAlarm b 3 rail
    { s with rep := { s.rep with darkBays := insNat s.rep.darkBays b } }

/-- SUPPLY_TRIP: a condition of R462 holds on a rail; VLINK (5) exists in landing bays only (Table 18.3). -/
def supplyTrip (b rail : Nat) (s : State) : State := if 6 < rail ∨ (rail = 5 ∧ (bayLanding b).isNone) then s else s.trip b rail

/-- SUPPLY_TRIP. -/
def execSupplyTrip (bay rail : Nat) (s : State) : Res := if 60 ≤ bay then .refused .noSuchUnit else .next (supplyTrip bay rail s)

/-- The 12 V domains by phase number: first phase, phases, needed, rail, and whether only a landing bay has it (Table 18.3). -/
def domains12 : List (Nat × Nat × Nat × Nat × Bool) :=
  [(20, 3, 2, 2, false), (23, 3, 2, 3, false), (26, 2, 1, 4, false), (28, 4, 3, 5, true), (32, 3, 2, 5, true), (35, 2, 1, 6, false)]

/-- Whether phase n of a bay is off: bits of the repair record (R461). -/
def State.phaseOff (s : State) (b n : Nat) : Bool := bit (SMap.get 0 s.rep.phases b) n

/-- Records that a phase stays off (R461). -/
def State.recordPhase (s : State) (b n : Nat) : State :=
  { s with rep := { s.rep with phases := SMap.set 0 s.rep.phases b (SMap.get 0 s.rep.phases b ||| 2 ^ n) } }

/-- Working phases of VCORE and VSRAM. -/
def State.vcoreW (s : State) (b : Nat) : Nat := s.fld (phaseReg b) 24 20
def State.vsramW (s : State) (b : Nat) : Nat := s.fld (phaseReg b) 27 25

/-- Shows the phases off in PHASE_STATUS. -/
def State.showPhases (s : State) (b : Nat) : State :=
  let off := (List.range 20).filter (s.phaseOff b)
  let v := (off.filter (fun n => decide (n < 16))).length
  let m := (off.map (fun n => 2 ^ n)).sum
  s.setReg (phaseReg b) (BitVec.ofNat 32 (m + 2 ^ 20 * (16 - v) + 2 ^ 25 * (4 - (off.length - v)) + 2 ^ 28 * s.fld (phaseReg b) 28 28))

/-- The current guard after a sample: it engages above I_lim and releases below I_lim − 10 A, after a failure not before the pace change that
the failure made is over (R467). -/
def State.guardCheck (s : State) (b : Nat) : State :=
  let a := (s.bay b).sample
  let lim := 1000 * iLim (s.vcoreW b)
  let waits := (s.bay b).guardFail && bit (s.reg (paceStat b)).toNat 10
  (s.onBay b (fun y =>
    if lim < a then { y with guardCur := true }
    else if a + 10000 < lim ∧ !waits then { y with guardCur := false, guardFail := false } else y)).showGuard b

/-- A VCORE (0 to 15) or VSRAM (16 to 19) phase is off: ALARM PHASE_LOST, the record, the phase ceiling and the guard (R461, R466, R467). -/
def State.failPhase (s : State) (b n : Nat) : State :=
  if s.phaseOff b n then s
  else
    let s := ((s.recordPhase b n).showPhases b).sendAlarm b 4 n
    match phaseCeil (s.vcoreW b) (s.vsramW b) with
    | none => s.trip b (if n < 16 then 0 else 1)
    | some c =>
      let s := s.setCeil b 4 2 c
      if 1000 * iLim (s.vcoreW b) < (s.bay b).sample then (s.onBay b (fun y => { y with guardCur := true, guardFail := true })).showGuard b else s

/-- PHASE_LOST: phases 0 to 15 VCORE, 16 to 19 VSRAM, from 20 the 12 V domains in the order of Table 18.3. -/
def phaseLost (b n : Nat) (s : State) : State :=
  if !s.bayUp b ∨ s.phaseOff b n then s
  else if n < 20 then s.failPhase b n
  else match domains12.find? (fun d => decide (d.1 ≤ n ∧ n < d.1 + d.2.1)) with
    | none => s
    | some d =>
      if d.2.2.2.2 && (bayLanding b).isNone then s
      else
        let s := (s.recordPhase b n).raise 0x0704 [(1, b)]
        let up := ((List.range d.2.1).filter (fun i => !s.phaseOff b (d.1 + i))).length
        if up < d.2.2.1 then s.trip b d.2.2.2.1 else s

/-- PHASE_LOST. -/
def execPhaseLost (bay phase : Nat) (s : State) : Res := if 60 ≤ bay then .refused .noSuchUnit else .next (phaseLost bay phase s)

/-- BUS_CONVERTER_LOST: the other converter carries the bay; without it the bay trips (R461, R462). -/
def busConverterLost (b conv : Nat) (s : State) : State :=
  if !s.bayUp b ∨ 2 ≤ conv ∨ (s.bay b).convLost.contains conv then s
  else
    let s := (s.onBay b (fun y => { y with convLost := insNat y.convLost conv })).setFld (phaseReg b) 28 28 1
    let s := s.raise 0x0705 [(1, b)]
    if (s.bay b).convLost.length = 2 then s.trip b 0 else s

/-- BUS_CONVERTER_LOST. -/
def execBusConverterLost (bay conv : Nat) (s : State) : Res := if 60 ≤ bay then .refused .noSuchUnit else .next (busConverterLost bay conv s)

/-! ## Current guard and droop (R467, R468) -/

/-- clk in 0.5 µs at a pace (Table 18.4). -/
def clkPerSample (pace : Nat) : Nat := ([550, 475, 400, 275][pace]?).getD 550

/-- CURRENT_GUARD: a VCORE current sample in mA. An engaged guard has skipped one clk edge in 8 since the last sample, counted in units of
1,024 edges (Table 18.18). -/
def currentGuard (b ma : Nat) (s : State) : State :=
  if !s.bayUp b then s
  else
    let s :=
      if bit (s.reg (paceStat b)).toNat 11 then
        let n := (s.bay b).clkFrac + clkPerSample (s.fld (paceStat b) 1 0)
        (s.onBay b (fun y => { y with clkFrac := n % 8192 })).bump (hubReg b 0x61C) 15 0 (n / 8192)
      else s
    ((s.setFld (hubReg b 0x610) 9 0 (min 1023 (ceilDiv ma 1000))).onBay b (fun y => { y with sample := ma, hdrSince := 0 })).guardCheck b

/-- CURRENT_GUARD. -/
def execCurrentGuard (bay ma : Nat) (s : State) : Res := if 60 ≤ bay then .refused .noSuchUnit else .next (currentGuard bay ma s)

/-- VCORE of a pace in mV (Table 18.4). -/
def vcoreMv (pace : Nat) : Nat := ([800, 740, 680, 620][pace]?).getD 800

/-- DROOP: VCORE is mv below its setpoint; beyond DROOP_LIMIT it counts, and an ALARM goes out at most once per 10 ms (R468). -/
def droop (b mv : Nat) (s : State) : State :=
  if !s.bayUp b then s
  else
    let s := s.setFld (hubReg b 0x610) 19 10 (vcoreMv (s.fld (paceStat b) 1 0) - mv)
    if mv ≤ max 1 (s.fld (hubReg b 0x614) 23 16) then s
    else
      let s := s.bump (hubReg b 0x61C) 31 16 1
      let free := match (s.bay b).droopAt with
        | none => true
        | some t => decide (t + 1000000 ≤ s.time)
      if free then ((s.onBay b (fun y => { y with droopAt := some s.time })).sendAlarm b 5 mv).risk 2 1 else s

/-- DROOP. -/
def execDroop (bay mv : Nat) (s : State) : Res := if 60 ≤ bay then .refused .noSuchUnit else .next (droop bay mv s)

/-! ## Crack detection (R469) -/

/-- CRACK_SUSPECT: group g (16 to 19 are VSRAM groups) is flagged once, and isolated as soon as losing its phase leaves the phase ceiling
unchanged. -/
def crackSuspect (b g : Nat) (s : State) : State :=
  if !s.bayUp b ∨ 20 ≤ g then s
  else
    let known := bit (s.reg (hubReg b 0x60C)).toNat g
    let s := if known then s else (s.setFld (hubReg b 0x60C) g g 1).sendAlarm b 8 g
    let w := s.vcoreW b
    let ws := s.vsramW b
    let next := if g < 16 then phaseCeil (w - 1) ws else phaseCeil w (ws - 1)
    if !s.phaseOff b g && next.isSome && next == phaseCeil w ws then s.failPhase b g else s

/-- CRACK_SUSPECT. -/
def execCrackSuspect (bay g : Nat) (s : State) : Res := if 60 ≤ bay then .refused .noSuchUnit else .next (crackSuspect bay g s)

/-! ## Pace (R463, R464) -/

/-- PACE_CHANGE: the change in progress completes, PACE_CEILING is raised unless the job pace made it, and the next change starts at once
when the ceilings have moved (R464). -/
def paceChange (b : Nat) (s : State) : State :=
  if !s.bayUp b ∨ !bit (s.reg (paceStat b)).toNat 10 then s
  else
    let y := s.bay b
    let s := (s.setFld (paceStat b) 1 0 y.target).setFld (paceStat b) 10 10 0
    let s := if y.paceBy = 0 then s else s.raise 0x0703 [(1, b), (1, y.target), (1, (Config.ceilingCode y.paceBy).toNat)]
    s.repace b y.paceMove

/-- PACE_CHANGE. -/
def execPaceChange (bay : Nat) (s : State) : Res := if 60 ≤ bay then .refused .noSuchUnit else .next (paceChange bay s)

/-! ## Header switches (R470 to R473) -/

/-- Order 5 of a start ends: every core is switched on at P3, and each bay rises to its phase ceiling (Table 21.1). -/
def State.endOrder5 (s : State) : State :=
  let s := upTo 60 (fun b s => if s.bayUp b then s.setFld (paceStat b) 1 0 (s.paceWant b) else s) s
  { s with phase := 6 }

/-- Whether a core is to be switched on: in order 5 of a start every core whose fuse SHIP_GOOD is 1, later one that is not fenced (R470,
Table 21.1). -/
def State.toPower (s : State) (p : Nat) : Bool := if s.phase = 5 then s.shipGood p else !s.fenced p

/-- Whether every such core of the bays that run is switched on. -/
def State.allPowered (s : State) : Bool :=
  (List.range 60).all (fun b => !s.bayUp b || (List.range 48).all (fun i => (s.bay b).powered.contains i || !s.toPower (b * 48 + i)))

/-- The bay power manager tries a stage of core i that is due, in quarters of a stage: granted while the last sample, the stages granted
since and the new one stay within I_lim − HDR_MARGIN, or for a quarter stage within I_lim; else deferred. A grant ends the guard that the
core's quarter stage engaged; the switch-on ends with its eighth stage (R470, R471). -/
def State.tryStage (s : State) (b i : Nat) : State :=
  let y := s.bay b
  let q := y.hdrQuarter.contains i
  let n := ((y.hdr.find? (fun e => e.1 == i)).map (fun e => e.2)).getD 0 + (if q then 1 else 4)
  let cost := if q then 1 else 4
  let lim := iLim (s.vcoreW b) - (if q then 0 else s.fld (hubReg b 0x614) 7 0)
  if y.sample + 500 * (y.hdrSince + cost) ≤ 1000 * lim then
    let s := s.setBay b { y with
      hdr := if 32 ≤ n then y.hdr.filter (fun e => e.1 != i) else y.hdr.map (fun e => if e.1 = i then (i, n) else e),
      hdrSince := y.hdrSince + cost, powered := if 32 ≤ n then insNat y.powered i else y.powered,
      hdrQuarter := if 32 ≤ n then y.hdrQuarter.filter (fun k => k != i) else y.hdrQuarter,
      hdrDue := y.hdrDue.filter (fun k => k != i), guardHdr := y.guardHdr.filter (fun k => k != i) }
    let s := (s.showGuard b).showHdr b
    if s.phase = 5 ∧ s.allPowered then s.endOrder5 else s
  else (s.bump (hubReg b 0x618) 23 8 1).showHdr b

/-- HDR_STAGE: a stage of core p's switch-on is due; the stage of the lowest core index due is tried (R470). -/
def hdrStage (p : Nat) (s : State) : State :=
  let b := coreBay p
  let i := coreIdx p
  if !s.bayUp b ∨ (s.bay b).powered.contains i ∨ !s.toPower p then s
  else
    let s := s.onBay b (fun y =>
      { y with hdrDue := insNat y.hdrDue i, hdr := if y.hdr.any (fun e => e.1 == i) then y.hdr else y.hdr ++ [(i, 0)] })
    s.tryStage b ((s.bay b).hdrDue.foldl min i)

/-- HDR_STAGE. -/
def execHdrStage (p : Nat) (s : State) : Res := coreEvent p (hdrStage p) s

/-- HDR_DEFER: HDR_DEFER µs of deferral make the remaining stages quarter stages; a quarter stage deferred for 10 µs engages the current
guard until it is granted (R471). -/
def hdrDefer (p : Nat) (s : State) : State :=
  let b := coreBay p
  let i := coreIdx p
  let y := s.bay b
  if !s.bayUp b ∨ !y.hdr.any (fun e => e.1 == i) then s
  else if y.hdrQuarter.contains i then (s.setBay b { y with guardHdr := insNat y.guardHdr i }).showGuard b
  else (s.setBay b { y with hdrQuarter := y.hdrQuarter ++ [i] }).showHdr b

/-- HDR_DEFER. -/
def execHdrDefer (p : Nat) (s : State) : Res := coreEvent p (hdrDefer p) s

/-- SPARE_DAILY_TEST: a cold spare that was switched on for it is tested, with its timer claimed, and switched off again; one that fails is
fenced with cause 1 (R473, R521). -/
def spareDailyTest (p : Nat) (ok : Bool) (s : State) : State :=
  let b := coreBay p
  if !bit (s.reg (hubReg b 0x614)).toNat 24 ∨ !(s.sparesOf b).contains p then s
  else
    let s := if bit (s.reg (timerStat p)).toNat 3 then s else (s.claimTimer p).setFld (timerStat p) 3 3 0
    if ok then (s.onBay b (fun y => { y with
        powered := y.powered.filter (fun k => k != coreIdx p), hdr := y.hdr.filter (fun e => e.1 != coreIdx p) })).showHdr b
    else s.fenceCore p 1

/-- SPARE_DAILY_TEST. -/
def execSpareDailyTest (p : Nat) (ok : Bool) (s : State) : Res := coreEvent p (spareDailyTest p ok) s

/-- Whether the bay hub may claim a core's timer: a corrected error in the last 1 s with no claim open, or the test of a cold spare (R521). -/
def State.mayClaim (s : State) (p : Nat) : Bool :=
  (!bit (s.reg (timerStat p)).toNat 3 && (s.core p).ceTimes.any (fun t => decide (s.time ≤ t + 100000000))) ||
  (bit (s.reg (hubReg (coreBay p) 0x614)).toNat 24 && (s.sparesOf (coreBay p)).contains p)

/-- TIMER_CLAIM (R521). -/
def execTimerClaim (p : Nat) (s : State) : Res :=
  if 2880 ≤ p then .refused .noSuchUnit else .next (if s.bayUp (coreBay p) && s.mayClaim p then s.claimTimer p else s)

/-! ## Temperature and coolant (R477 to R479) -/

/-- JUNCTION_SAMPLE: one reading of every 10 µs; hot is the core index of the hottest sensor, 48 for the hub. Counts of readings stand for
the times of Table 18.8: 100 for 1 ms, 10,000 for 100 ms. -/
def junctionSample (b : Nat) (t : Int) (hot : Nat) (s : State) : State :=
  if !s.bayUp b then s
  else
    let a := hubReg b 0x620
    let s := (s.setFld a 7 0 (min 255 t.toNat)).setFld a 13 8 hot
    let y := s.bay b
    let h := if 98 ≤ t then y.hotMs + 1 else 0
    let c := if t < 93 then y.coolMs + 1 else 0
    let x := if 112 ≤ t then y.hot112 + 1 else 0
    let s := s.setBay b { y with hotMs := h % 100, coolMs := c % 10000, hot112 := x }
    let ceil := s.fld (paceStat b) 7 6
    if 100 ≤ x then (s.openDisconnect b).sendAlarm b 3 0
    else if 105 ≤ t then
      let s := (s.orReg a 0x4000).setCeil b 6 3 3
      let free := match y.highAt with
        | none => true
        | some w => decide (w + 100000000 ≤ s.time)
      if free then (s.onBay b (fun z => { z with highAt := some s.time })).sendAlarm b 7 (min 255 t.toNat) else s
    else if h = 100 then s.setCeil b 6 3 (min 3 (ceil + 1))
    else if c = 10000 then s.setCeil b 6 3 (ceil - 1)
    else s

/-- JUNCTION_SAMPLE. -/
def execJunctionSample (bay : Nat) (temp : Int) (hot : Nat) (s : State) : Res :=
  if 60 ≤ bay then .refused .noSuchUnit else .next (junctionSample bay temp hot s)

/-- Writes a bay's module ceiling: the lower pace of the power guard's and coolant monitoring's (Table 18.5). -/
def State.setModuleCeil (s : State) (b : Nat) : State := s.setCeil b 8 4 (max (s.bay b).modCeilPow (s.bay b).modCeilCool)

/-- CAPPED of POWER_CAP: the power guard holds some bay below its other ceilings (Table 18.23). -/
def State.showCapped (s : State) : State :=
  let c := (List.range 60).any (fun b => s.bayUp b &&
    decide (([s.fld (paceStat b) 3 2, s.fld (paceCtrl b) 1 0, s.fld (paceStat b) 5 4, s.fld (paceStat b) 7 6, (s.bay b).modCeilCool].foldl max 0) <
      (s.bay b).modCeilPow))
  s.setFld (gloReg 0x604) 16 16 (b2n c)

/-- The bay of a list with the greatest value, the first of equals. -/
def bestBay (f : Nat → Nat) (bs : List Nat) : Option Nat := match bs with
  | [] => none
  | b :: rest => some (rest.foldl (fun m x => if f m < f x then x else m) b)

/-- POWER_GUARD: the 10 ms averages of both inputs in W. Above a limit the bay with the highest VCORE current falls one level; after a
second below 95 % the slowest bay rises one level (R459). -/
def powerGuard (w54 w12 : Nat) (s : State) : State :=
  if s.active.isNone then s
  else
    let s := s.setReg (gloReg 0x600) (BitVec.ofNat 32 (min 65535 w54 + 65536 * min 65535 w12))
    let cap := min 25000 (s.fld (gloReg 0x604) 15 0)
    let up := (List.range 60).filter s.bayUp
    let s :=
      if 21500 < w54 ∨ cap < w54 + w12 then
        let s := { s with inp := { s.inp with powOver := 0 } }
        match bestBay (fun b => (s.bay b).sample) (up.filter (fun b => decide (max (s.bay b).modCeilPow (s.bay b).modCeilCool < 3))) with
        | none => s
        | some b =>
          let s := (s.onBay b (fun y => { y with modCeilPow := max y.modCeilPow y.modCeilCool + 1 })).setModuleCeil b
          if s.job.capRaised ∨ s.job.st = 0 then s else (s.raise 0x0702 []).onJob (fun j => { j with capRaised := true })
      else if 100 * w54 < 95 * 21500 ∧ 100 * (w54 + w12) < 95 * cap then
        let n := s.inp.powOver + 1
        let s := { s with inp := { s.inp with powOver := n % 100 } }
        if n < 100 then s
        else match bestBay (fun b => s.fld (paceStat b) 1 0) (up.filter (fun b => decide ((s.bay b).modCeilCool < (s.bay b).modCeilPow))) with
          | none => s
          | some b => (s.onBay b (fun y => { y with modCeilPow := y.modCeilPow - 1 })).setModuleCeil b
      else { s with inp := { s.inp with powOver := 0 } }
    s.showCapped

/-- POWER_GUARD. -/
def execPowerGuard (w54 w12 : Nat) (s : State) : Res := mpRow (powerGuard w54 w12) s

/-- Every bay's disconnect opens and the module stops (R458, R479). -/
def State.stopModule (s : State) : State :=
  let s := upTo 60 (fun b s => if s.bayUp b then s.openDisconnect b else s) s
  { s with inp := { s.inp with stopped := true } }

/-- The rows of Table 18.10 for P1 and P3, for flows in 0.25 L/min and inlets in °C. -/
def coolRow1 (wf wi pi : Nat) : Bool := decide (wf < 96 ∨ 35 < wi ∨ 35 < pi)
def coolRow3 (wf pf wi pi : Nat) : Bool := decide (wf < 72 ∨ pf < 24 ∨ 40 < wi ∨ 40 < pi)

/-- COOLANT_MONITOR, every 100 ms: flows and inlets are shown, a row's ceiling holds until its condition has been clear for 10 s (100
readings), the lowest ceiling counts, each change raises COOLANT_LOW, and 5 s (50 readings) below 8 L/min stop the module (R479). -/
def coolantMonitor (wf pf wi pi : Nat) (s : State) : State :=
  if s.active.isNone then s
  else
    let s := s.setReg (gloReg 0x608) (BitVec.ofNat 32 (min 255 wf + 256 * min 255 pf + 65536 * min 255 wi + 2 ^ 24 * min 255 pi))
    let c1 := if coolRow1 wf wi pi then 100 else s.inp.cool1 - 1
    let c3 := if coolRow3 wf pf wi pi then 100 else s.inp.cool3 - 1
    let low := if wf < 32 then s.inp.coolLow + 1 else 0
    let cur := s.inp.coolant
    let next := if 0 < c3 then 3 else if 0 < c1 then 1 else 0
    let s := { s with inp := { s.inp with
      coolant := next, cool1 := c1, cool3 := c3, coolBad := coolRow1 wf wi pi || coolRow3 wf pf wi pi, coolLow := low } }
    let s :=
      if next = cur then s
      else
        let s := upTo 60 (fun b s => (s.onBay b (fun y => { y with modCeilCool := next })).setModuleCeil b) s
        s.raise 0x0708 []
    if 50 ≤ low then s.stopModule else s

/-- COOLANT_MONITOR. -/
def execCoolantMonitor (wf pf wi pi : Nat) (s : State) : Res := mpRow (coolantMonitor wf pf wi pi) s

/-! ## Inputs (R457, R458, R548, R550) -/

/-- What a board keeps without power: its flash and its fuses (R503, R504, R527). -/
def Board.kept (y : Board) : Board :=
  { present := y.present, flash := y.flash, preferred := y.preferred, fuseKeys := y.fuseKeys, revoked := y.revoked, secCtr := y.secCtr, supply := y.supply }

/-- 12 V is gone: the boards lose what they hold and their roles (R458). -/
def State.boardsOff (s : State) : State := { upTo 2 (fun b s => s.onBoard b Board.kept) s with active := none }

/-- Whether a board is present and has 12 V: a stop for want of 12 V leaves it without (R458). -/
def State.boardOn (s : State) (b : Nat) : Bool := (s.board b).present && (s.inp.on12 || !s.inp.stopped)

/-- INPUT_LOST: kind 0 a 54 V blade pair and 1 a 12 V connector stop carrying current; kind 2 the 54 V input below 46 V and 3 the 12 V
input below 11.0 V for 100 µs, which stop the module; the 54 V stop applies once order 4 has enabled the bays (R458). -/
def inputLost (kind n : Nat) (s : State) : State :=
  match kind with
  | 0 => if 2 ≤ n ∨ s.inp.lost54.contains n then s
         else { (s.raise 0x0701 []) with inp := { s.inp with lost54 := insNat s.inp.lost54 n } }
  | 1 => if 4 ≤ n ∨ s.inp.lost12.contains n then s
         else { (s.raise 0x0701 []) with inp := { s.inp with lost12 := insNat s.inp.lost12 n } }
  | 2 =>
    let s := { s with inp := { s.inp with ok54 := false, outRange := insNat s.inp.outRange 0 } }
    if s.readyUp ∨ 5 ≤ s.phase then s.stopModule else s
  | _ =>
    let s := { s with inp := { s.inp with outRange := insNat s.inp.outRange 1 } }
    if s.inp.on12 then (({ s with inp := { s.inp with on12 := false } }).stopModule).boardsOff else s

/-- INPUT_LOST. -/
def execInputLost (kind n : Nat) (s : State) : Res := .next (inputLost kind n s)

/-- INPUT_RESTORED: a blade pair or a 12 V connector carries current again (R550). -/
def execInputRestored (kind n : Nat) (s : State) : Res :=
  .next { s with inp := if kind = 0 then { s.inp with lost54 := s.inp.lost54.filter (fun x => x != n) }
                        else { s.inp with lost12 := s.inp.lost12.filter (fun x => x != n) } }

/-- INPUT_OUT_OF_RANGE: the 54 V (0) or 12 V (1) input leaves or returns to its operating range (R548, Table 22.3). -/
def execInputOutOfRange (kind : Nat) (out : Bool) (s : State) : Res :=
  if 2 ≤ kind then .refused .noSuchUnit
  else
    let o := s.inp.outRange
    .next { s with inp := { s.inp with
      outRange := if out then insNat o kind else o.filter (fun x => x != kind),
      ok54 := if kind = 0 then !out else s.inp.ok54 } }

/-- PWR_OK of a board's connector: low also while start-up is held for want of 54 V (R545, Table 22.6). -/
def State.pwrOk (s : State) (b : Nat) : Bool :=
  s.inp.on12 && s.inp.outRange.isEmpty && s.inp.ok54 && !s.inp.no54 && (s.board b).present && (s.board b).supply

/-- ALERT_CAUSE of a board (Table 22.7). -/
def State.alertCause (s : State) (b : Nat) : Nat :=
  b2n (s.board b).fwInvalid + 2 * b2n (s.job.st = 6) + 4 * b2n (bit (s.reg (gloReg 0x510)).toNat 0) +
  8 * b2n s.inp.coolBad +
  16 * b2n (!s.inp.lost54.isEmpty || !s.inp.lost12.isEmpty) + 32 * b2n s.inp.no54

/-! ## Clock (R475, R476) -/

/-- CLOCK_FAILOVER: the selected source of a bay is lost: the next working source, or holdover; a lost reference raises REF_LOST, and with
both references lost their bays run in holdover (R475, R476). -/
def clockFailover (b : Nat) (s : State) : State :=
  if !s.bayUp b ∨ bit (s.reg (clkStat b)).toNat 4 then s
  else
    let old := s.fld (clkStat b) 2 0
    let s := s.onBay b (fun y => { y with lostSrc := insNat y.lostSrc old })
    let s := if old = 4 then s.raise 0x0707 [(1, b)] else s
    if old = 4 ∧ (s.bay 25).lostSrc.contains 4 ∧ (s.bay 34).lostSrc.contains 4 then
      forAll [25, 34] (fun x s => if !s.bayUp x ∨ bit (s.reg (clkStat x)).toNat 4 then s else (s.holdOver x).raise 0x0706 [(1, x)]) s
    else
    let r := s.lockClk b
    if r.1 then (r.2.bump (clkStat b) 15 8 1).sendAlarm b 6 (r.2.fld (clkStat b) 2 0) else r.2.raise 0x0706 [(1, b)]

/-- CLOCK_FAILOVER. -/
def execClockFailover (bay : Nat) (s : State) : Res := if 60 ≤ bay then .refused .noSuchUnit else .next (clockFailover bay s)

/-! ## Risk monitor (R450, Tables 17.8 and 17.9) -/

/-- One hour and one day in 10 ns units. -/
def hour : Nat := 360000000000

/-- The points of Table 17.8. -/
def State.riskScore (s : State) : Nat :=
  let last := fun (k span : Nat) => s.riskLog.filter (fun e => e.1 == k && decide (s.time < e.2.2 + span))
  let ce := ((last 0 hour).map (fun e => e.2.1)).sum
  let rep := ((List.range 8).map (fun l => ((last 1 hour).filter (fun e => e.2.1 == l)).length)).foldl max 0
  let ones := fun (a n : Nat) => ((List.range n).filter (bit a)).length
  let phases := ((List.range 60).map (fun b => ((List.range 37).filter (s.phaseOff b)).length)).sum
  let cracks := ((List.range 60).map (fun b => ones (s.reg (hubReg b 0x60C)).toNat 20)).sum
  let tj := (((List.range 60).filter s.bayUp).map (fun b => s.fld (hubReg b 0x620) 7 0)).foldl max 0
  min 255 (min 48 (ce / 1000) + min 32 (rep / 100) + min 48 (4 * (last 2 hour).length) + min 64 (16 * phases) + min 96 (32 * cracks) +
    min 80 (8 * (tj - 95)) + min 64 (8 * (last 5 (24 * hour)).length))

/-- RISK_SAMPLE: the score, its band, and RISK_BAND at a change of band. -/
def riskSample (s : State) : State :=
  if s.active.isNone then s
  else
    let n := s.riskScore
    let band := n / 64
    let s := s.setFld (gloReg 0x500) 7 0 n
    let s := { s with riskLog := s.riskLog.filter (fun e => decide (s.time < e.2.2 + 24 * hour)) }
    if band = s.riskBand then s else { (s.raise 0x0605 []) with riskBand := band }

/-- RISK_SAMPLE. -/
def execRiskSample (s : State) : Res := mpRow riskSample s

end Sys2Proof.Machine
end

