-- ==== Sys2Proof/Machine/Boards.lean ====
section
/-! DEFINITION. The management boards: their BAR0 registers, firmware admission at boot, event rings and MSI-X, takeover, handover and the
live firmware change (R480 to R483, R487 to R489, R495 to R498, R503, R504, R537 to R540, R549). -/

namespace Sys2Proof.Machine

/-! ## Board registers (Tables 19.4, 19.9 to 19.13) -/

/-- Reset values of a board's BAR0 registers; an MSI-X entry is masked at reset (PRESUMED, the PCIe layout's, log entry 17). -/
def bReset (b off : Nat) : W32 := match off with
  | 0x5008 => 10
  | 0x5020 => 0x320000
  | 0x6004 => if b = 1 then 32 else 0
  | 0x800C => 1
  | 0x801C => 1
  | _ => 0

/-- A stored BAR0 register of a board. -/
def State.breg (s : State) (b off : Nat) : W32 := SMap.get (bReset b off) (s.board b).regs off
/-- Stores a BAR0 register. -/
def State.setBreg (s : State) (b off : Nat) (v : W32) : State := s.onBoard b (fun y => { y with regs := SMap.set (bReset b off) y.regs off v })
/-- Bits [hi:lo] of a BAR0 register. -/
def State.bfld (s : State) (b off hi lo : Nat) : Nat := field (s.breg b off) hi lo
/-- Raises a saturating field of a BAR0 register by 1. -/
def State.bumpB (s : State) (b off hi lo : Nat) : State :=
  s.setBreg b off (setField (s.breg b off) hi lo (satAdd (2 ^ (hi + 1 - lo) - 1) (s.bfld b off hi lo) 1))

/-! ## Firmware at boot (R503, R504) -/

/-- The slot a boot ROM runs: the preferred one when it admits it, else the other; an image below the board's fused counter is not admitted.
What flash holds has passed the key, signature and digest checks of its staging, and those fuses do not change after it (log entry 32). -/
def Board.bootSlot (y : Board) : Option Nat :=
  let ok := fun (k : Nat) => match (y.flash[k]?).join with
    | some im => decide (y.secCtr ≤ im.security)
    | none => false
  if ok y.preferred then some y.preferred else if ok (1 - y.preferred) then some (1 - y.preferred) else none

/-- A board boots: it runs an admitted slot without a role, or exposes FW_INVALID (R504). -/
def Board.boot (y : Board) : Board := match y.bootSlot with
  | some k => { y with booted := true, ready := false, fwInvalid := false, slotRun := k, staged := false }
  | none => { y with booted := false, ready := false, fwInvalid := true, staged := false }

/-- A board that comes out of reset: only its flash and its fuses are left (R527, R528). -/
def Board.afterReset (y : Board) : Board := y.kept.boot

/-- The image a board runs. -/
def Board.image (y : Board) : Option FwImage := if y.booted then (y.flash[y.slotRun]?).join else none

/-- Whether image a accepts the mirror format of image f (R538). -/
def acceptsMirror (a f : Option FwImage) : Bool := match a, f with
  | some a, some f => decide (a.mirrorR ≤ f.mirrorW)
  | _, _ => false

/-! ## Event rings (R495 to R497) -/

/-- An event record (Table 19.14). -/
def eventRecord (e : Event) : List Byte :=
  leBytes 2 e.code ++ leBytes 1 e.board ++ [0] ++ leBytes 4 e.seq ++ leBytes 8 e.time ++ leBytes 8 e.step ++ leBytes 2 e.version ++ [0, 0] ++
  e.payload.take 36 ++ List.replicate (36 - e.payload.length) 0

/-- 2^k records of a board's ring (Table 19.9). -/
def State.ringSize (s : State) (b : Nat) : Nat :=
  let k := s.bfld b 0x5008 4 0
  2 ^ (if 10 ≤ k ∧ k ≤ 20 then k else 10)
/-- Whether a board's ring is enabled. -/
def State.ringOn (s : State) (b : Nat) : Bool := (s.board b).present && bit (s.breg b 0x5008).toNat 8
/-- Whether a board's ring is full (R495). -/
def State.ringFull (s : State) (b : Nat) : Bool :=
  ((s.breg b 0x500C).toNat + 1) % s.ringSize b == (s.breg b 0x5010).toNat % s.ringSize b

/-- An MSI-X message of vector v goes out, or is pending while its entry is masked (PCIe layout). -/
def State.sendMsi (s : State) (b v : Nat) : State :=
  if bit (s.breg b (0x800C + 16 * v)).toNat 0 then s.setBreg b 0x9000 (setField (s.breg b 0x9000) v v 1)
  else s.onBoard b (fun y => if v = 0 then { y with msix0 := y.msix0 + 1 } else { y with msix1 := y.msix1 + 1 })

/-- Vector 0 signals the ring when its count of unsignalled records is reached; vector 1 signals BOARD_FAILOVER and BOARD_READY (R497). -/
def State.signal (s : State) (b code : Nat) : State :=
  let s := if code = 0x0801 ∨ code = 0x0802 then s.sendMsi b 1 else s
  if !bit (s.breg b 0x5008).toNat 9 then s
  else
    let n := (s.board b).unsig + 1
    let c := s.bfld b 0x5020 15 0
    if c = 0 ∨ c ≤ n then (s.onBoard b (fun y => { y with unsig := 0 })).sendMsi b 0 else s.onBoard b (fun y => { y with unsig := n })

/-- Writes a record into the slot at the producer index, then the index and its copy (R495). -/
def State.putRecord (s : State) (b : Nat) (r : List Byte) : State :=
  let p := (s.breg b 0x500C).toNat % s.ringSize b
  let q := (p + 1) % s.ringSize b
  let s := (s.setBreg b 0x500C (BitVec.ofNat 32 q)).onBoard b (fun y => { y with ring := SMap.set [] y.ring p r, prodCopy := q })
  s.signal b (leNat (r.take 2))

/-- Writes what waits for space, EVENTS_LOST with the count of a drop first (R496). -/
def State.drainRing (s : State) (b : Nat) : Nat → State
  | 0 => s
  | n + 1 =>
    let y := s.board b
    if !s.ringOn b || s.ringFull b then s
    else if y.lost ≠ 0 then
      let e : Event :=
        { code := 2, board := s.active.getD 2, seq := s.evSeq % 2 ^ 32, time := s.time, step := (if s.job.st = 0 then 0 else s.job.step),
          version := s.job.version, payload := payload [(4, y.lost)] }
      let t := if s.active.isSome then s.traceOut 2 e.seq else s
      let t := ({ t with evSeq := t.evSeq + 1 }).onBoard b (fun y => { y with lost := 0 })
      State.drainRing (t.putRecord b (eventRecord e)) b n
    else match y.held with
      | [] => s
      | r :: rest => State.drainRing ((s.onBoard b (fun y => { y with held := rest })).putRecord b r) b n

/-- Delivers a record to a board: into its ring, or, while that is full, into the board's memory of 4,096 records, else it is dropped and
counted (R495, R496). -/
def State.deliverTo (s : State) (r : List Byte) (b : Nat) : State :=
  let y := s.board b
  if !s.ringOn b then s
  else if y.held.isEmpty && y.lost == 0 && !s.ringFull b then s.putRecord b r
  else if y.held.length < 4096 then (s.onBoard b (fun y => { y with held := y.held ++ [r] })).drainRing b 4097
  else (s.onBoard b (fun y => { y with lost := y.lost + 1 })).bumpB b 0x6000 15 8

/-- EVENT_DELIVERY: the oldest event that an active MP holds goes to every enabled ring. -/
def eventDelivery (s : State) : State :=
  match s.active, s.evPending with
  | some _, e :: rest => upTo 2 (fun b s => s.deliverTo (eventRecord e) b) { s with evPending := rest }
  | _, _ => s

/-- EVENT_DELIVERY. -/
def execEventDelivery (s : State) : Res := mpRow eventDelivery s

/-- A write of EVQ_CONS: held records are written (R496). -/
def evqCons (b : Nat) (v : W32) (s : State) : State := if s.boardOn b then (s.setBreg b 0x5010 v).drainRing b 4097 else s

/-- EVQ_CONS. -/
def execEvqCons (b : Nat) (v : W32) (s : State) : Res := if 2 ≤ b then .refused .noSuchUnit else .next (evqCons b v s)

/-- A write of EVQ_CTRL: clearing ENABLE resets both indices (Table 19.9). -/
def evqCtrl (b : Nat) (v : W32) (s : State) : State :=
  if !s.boardOn b then s
  else
    let was := bit (s.breg b 0x5008).toNat 8
    let s := s.setBreg b 0x5008 (v &&& 0x31F)
    if bit v.toNat 8 then s.drainRing b 4097
    else if was then ((s.setBreg b 0x500C 0).setBreg b 0x5010 0)
    else s

/-- EVQ_CTRL. -/
def execEvqCtrl (b : Nat) (v : W32) (s : State) : Res := if 2 ≤ b then .refused .noSuchUnit else .next (evqCtrl b v s)

/-- EVQ_COALESCE_TIMER: the time of EVQ_COALESCE has passed since the first unsignalled record (R497). -/
def evqCoalesceTimer (b : Nat) (s : State) : State :=
  if (s.board b).unsig = 0 ∨ !bit (s.breg b 0x5008).toNat 9 then s else (s.onBoard b (fun y => { y with unsig := 0 })).sendMsi b 0

/-- EVQ_COALESCE_TIMER. -/
def execEvqCoalesceTimer (b : Nat) (s : State) : Res := if 2 ≤ b then .refused .noSuchUnit else .next (evqCoalesceTimer b s)

/-! ## Mailbox slots (Table 19.5) -/

/-- n bytes of mailbox slot k of a board at an offset, as a number. -/
def State.slotNum (s : State) (b k o n : Nat) : Nat := Mem.readNat (s.board b).mbx (256 * k + o) n
/-- State of a slot: 0 free, 1 posted, 2 executing, 3 done. -/
def State.slotState (s : State) (b k : Nat) : Nat := s.slotNum b k 8 1
/-- Writes bytes of a slot. -/
def State.slotPut (s : State) (b k o : Nat) (bs : List Byte) : State := s.onBoard b (fun y => { y with mbx := Mem.write y.mbx (256 * k + o) bs })

/-- A command completes: result, status, state 3, and CMD_DONE unless QUIET (R488). -/
def State.finish (s : State) (b k status : Nat) (res : List Byte) : State :=
  if s.slotState b k ≠ 2 then s
  else
  let s := ((s.slotPut b k 0x80 res).slotPut b k 9 (leBytes 1 status)).slotPut b k 8 [3]
  if s.slotNum b k 2 2 % 2 = 1 then s
  else s.raise 0x0001 [(1, k), (1, b), (4, s.slotNum b k 4 4), (2, s.slotNum b k 0 2), (1, status)]

/-- Every command that is executing completes with FAILOVER; what it waited for is dropped (Table 19.6, R540). -/
def State.failCommands (s : State) : State :=
  let s := forAll (s.job.atBoundary.filter (fun w => w.code == 0x401)) (fun w s =>
    let c := s.slotNum w.board w.slot 0x11 1
    s.setFld (hubReg (s.slotNum w.board w.slot 0x10 1) 0x408) c c 0) s
  let s := upTo 2 (fun b s => upTo 64 (fun k s => if (s.board b).present ∧ s.slotState b k = 2 then s.finish b k 6 [] else s) s) s
  ({ s with handover := none, handCmd := none, liveCmd := none, liveOrder := 0 }).onJob (fun j => { j with atBoundary := [] })

/-! ## Acceptance (R487, R493, R536) -/

/-- The command codes of Table 19.7. -/
def commandCodes : List Nat :=
  [0x101, 0x102, 0x103, 0x104, 0x105, 0x106, 0x107, 0x201, 0x202, 0x301, 0x302, 0x401, 0x402, 0x501, 0x502, 0x503, 0x504, 0x505,
   0x601, 0x602, 0x603, 0x701, 0x702, 0x801, 0x802, 0x803, 0x901, 0x902, 0x903, 0xA01, 0xA02, 0xA03]
/-- The queries. -/
def queryCodes : List Nat := [0x202, 0x302, 0x402, 0x801, 0x802, 0x803]

/-- A 2-byte "bay, core" argument as a physical core (R490). -/
def coreArg (v : Nat) : Nat := v / 64 * 48 + v % 64

/-- A "bay, core" argument that names a core, as an object. -/
def coreObject (v : Nat) : Option (Nat × Nat) := if v / 64 < 60 ∧ v % 64 < 48 then some (1, coreArg v) else none
/-- A number below a limit, as an object of a kind. -/
def numObject (kind limit n : Nat) : Option (Nat × Nat) := if n < limit then some (kind, n) else none

/-- The object of a command that is not a query, as (kind, number): 0 the job, 1 a core, 2 a bay, 3 a bay's stack, 4 a landing, 5 the
module, 6 the snapshots, 7 the firmware; none where the argument names no unit (R490, R493). -/
def State.objectOf (s : State) (b k : Nat) : Option (Nat × Nat) :=
  let a := fun (o n : Nat) => s.slotNum b k o n
  let code := s.slotNum b k 0 2
  match code / 256 with
  | 1 => some (0, 0)
  | 2 => coreObject (a 0x10 2)
  | 3 => numObject 2 60 (a 0x10 1)
  | 4 => numObject 3 60 (a 0x10 1)
  | 5 => numObject 4 8 (a 0x10 1)
  | 6 => if code = 0x602 then numObject 2 60 (a 0x10 1) else some (5, 0)
  | 7 => some (6, 0)
  | 9 => some (7, 0)
  | _ =>
    if code = 0xA01 then numObject 4 8 (a 0x10 1)
    else if code = 0xA02 then coreObject (a 0x10 2)
    else match a 0x10 1 with
      | 0 => coreObject (a 0x12 2)
      | 1 => numObject 2 60 (a 0x12 2)
      | 2 => if a 0x12 2 % 64 < 32 then numObject 3 60 (a 0x12 2 / 64) else none
      | 3 => numObject 4 8 (a 0x12 2)
      | _ => none

/-- The active MP accepts a posted command: epoch and state 2; a reserved code, a command before READY that is neither a query nor
FW_STAGE, and a conflict complete at once (R487, R493, R536). -/
def State.acceptCmd (s : State) (b k : Nat) : State :=
  let ep := s.time / 100000
  let s := if s.epochOf = ep then s else { s with epochOf := ep, epochObjs := [] }
  let s := (s.slotPut b k 0xC (leBytes 4 ep)).slotPut b k 8 [2]
  let code := s.slotNum b k 0 2
  if !commandCodes.contains code then s.finish b k 3 []
  else if queryCodes.contains code then s
  else if !s.readyUp ∧ code ≠ 0x901 then s.finish b k 5 []
  else match s.objectOf b k with
    | none => s
    | some o => if s.epochObjs.contains o then s.finish b k 2 [] else { s with epochObjs := s.epochObjs ++ [o] }

/-- Posted commands are accepted in doorbell order while an MP is active (R487, R540). -/
def State.acceptPosted (s : State) : State :=
  if s.active.isNone ∨ s.liveOrder = 4 ∨ s.handover.isSome then s
  else
    let ps := s.posted
    forAll ps (fun e s => if (s.board e.2.1).present ∧ s.slotState e.2.1 e.2.2 = 1 then s.acceptCmd e.2.1 e.2.2 else s) { s with posted := [] }

/-! ## Live change (R538 to R540, Table 21.4) -/

/-- Order 6: FW_ACTIVATED, and both boards' fused counters advance once both boards run an image that asks for it (R504, R540). -/
def State.liveDone (s : State) : State :=
  let s := s.raise 0x0804 []
  let a := (s.board 0).image
  let c := (s.board 1).image
  let s := match a, c with
    | some i, some j => if i.advance && decide (i.version = j.version) then upTo 2 (fun b s => s.onBoard b (fun y => { y with secCtr := max y.secCtr i.security })) s
      else s
    | _, _ => s
  let s := match s.liveCmd with
    | some (b, k) => s.finish b k 0 []
    | none => s
  { s with liveOrder := 0, liveCmd := none }

/-- A board reboots from its staged slot (order 1 or 5); its copying is part of it until BOARD_READY. -/
def State.liveReboot (s : State) (b order : Nat) : State :=
  ({ s with liveOrder := order, liveBoard := b }).onBoard b Board.boot

/-- Whether a handover need not wait for a step boundary: no attempt is open (R482). -/
def State.noAttempt (s : State) : Bool := s.job.st != 2 || s.job.between

/-- Whether a sequence of the continuity chapter is in progress: a replay or restore that is due, or a restore that runs (R442, R454). -/
def State.inContinuity (s : State) : Bool := s.jobOn && (s.job.need != 0 || s.job.restoring.isSome)

/-- Order 3: the handover is ordered at once, or waits for the next step boundary and for the end of a continuity sequence (R539, R540). -/
def State.liveHandover (s : State) : State :=
  if s.noAttempt && !s.inContinuity then { s with liveOrder := 4, handover := some s.time } else { s with liveOrder := 3 }

/-- A point at which no attempt is open: order 3 goes on (R539). -/
def State.livePoint (s : State) : State := if s.liveOrder = 3 then s.liveHandover else s

/-! ## Roles and takeover (R481 to R483, Table 19.2) -/

/-- A board becomes active: it takes the reports queued while no MP was active, which become its events, and their loss is reported (R482,
R526). -/
def State.becomeActive (s : State) (b : Nat) : State :=
  let s := forAll (s.evPending.filter (fun e => e.board == 2)) (fun e s => s.traceOut e.code e.seq) s
  let s := ({ s with active := some b, evPending := s.evPending.map (fun (e : Event) => if e.board = 2 then { e with board := b } else e) }).onBoard b
    (fun y => { y with ready := true })
  if s.evLost = 0 then s else { (s.raise 0x0002 [(4, s.evLost)]) with evLost := 0 }

/-- What a new active MP finds: a halt that no MP has carried out; R316: after the commit point COMMIT is sent again, before it the open
attempt is aborted and replayed; the containment of a loss, with the routes to write, the standby root to designate and the placement to seek
that no MP has seen to (R364, R442, R443, R480). -/
def State.applyCommit (s : State) : State :=
  let s := if s.job.haltDue = 0 then s else s.haltJob s.job.haltDue
  let s := if s.job.st = 5 then s.holdAll 15 2 else s
  let s := upTo 8 (fun l s => match (s.land l).commitRep with
    | some f => s.pushFrame l f
    | none => s) s
  let s := if s.job.st ≠ 2 ∨ s.job.between ∨ s.job.committed ∨ s.job.aborted then s else s.abortAttempt.want 1
  let s := if s.job.st = 2 ∧ s.job.need = 2 then s.contain else s
  let s := if s.mpEsc then ({ s with mpEsc := false }).mpRewrite else s
  let s := if s.readyUp ∧ !bit (s.reg (gloReg 0x30C)).toNat 14 then s.designate s.rootBay false else s
  match s.mpSeek with
  | none => s
  | some r =>
    let s := { s with mpSeek := none }
    if s.jobLive then (s.contain).mpPlace r s.lostUnits else s

/-- A handover to board b is complete: its time is recorded and its command answered (R482, R537). -/
def State.endHandover (s : State) (b : Nat) : State :=
  let s := match s.handover with
    | some t => s.setFld (gloReg 0x808) 31 16 (min 0xFFFF ((s.time - t) / 100))
    | none => s
  let s := match s.handCmd with
    | some (c, k) => s.finish c k 0 (leBytes 1 b)
    | none => s
  { s with handover := none, handCmd := none }

/-- What a takeover in start-up repeats of the order in progress: the PLLs of order 3 lock again, and the trainings of orders 7 and 8 that are
not over start again (R537, log entry 41). -/
def State.repeatOrder (s : State) : State :=
  let lands := fun (s : State) => upTo 8 (fun l s => if s.bayUp (landingBay l) then s.setFld (landReg l 4) 16 0 0 else s) s
  match s.phase with
  | 3 => upTo 60 (fun b s => s.setFld (clkStat b) 3 3 0) s
  | 7 => lands (upTo 60 (fun b s => if s.bayUp b then s.onBay b (fun y => { y with trainedCh := [] }) else s) s)
  | 8 => lands s
  | _ => s

/-- The other board takes over from the active one: 0 heartbeat lost, 1 PRESENT_L deasserted, 2 handover (R482, R537). -/
def State.takeOver (s : State) (b cause : Nat) : State :=
  let old := 1 - b
  let s := s.onBoard old (fun y =>
    { y with ready := y.ready && decide (cause = 2), present := y.present && decide (cause ≠ 1), booted := y.booted && decide (cause ≠ 1) })
  let s := ((s.becomeActive b).applyCommit).raise 0x0801 [(1, old), (1, (Config.failoverCause cause).toNat)]
  let s := if s.phase = 0 then s else (s.orReg (gloReg 0x800) 0x80).repeatOrder
  if cause ≠ 2 then s.failCommands
  else
    let s := s.endHandover b
    if s.liveOrder = 4 then s.liveReboot old 5 else s

/-- Whether board b stands by: present, booted, with a role, and not active. -/
def State.standsBy (s : State) (b : Nat) : Bool := (s.board b).present && (s.board b).ready && s.active != some b

/-- A board leaves its role for a reset or a removal; without its active board the module has no MP until the standby takes over (R483). -/
def State.loseBoard (s : State) (b : Nat) : State :=
  let s := if s.liveOrder ≠ 0 ∧ (s.liveBoard = b ∨ s.active = some b) then { s with liveOrder := 0, liveCmd := none } else s
  if s.active = some b then { s with active := none } else s

/-- PRESENT_L of a board deasserts with no standby to take over from it: the board is gone (R483, R549). -/
def State.boardGone (s : State) (b : Nat) : State :=
  if (s.board b).present then (s.loseBoard b).onBoard b (fun y => { y with present := false, booted := false, ready := false }) else s

/-- BOARD_FAILOVER: the standby takes over when it has heard no heartbeat for 5 ms, when PRESENT_L of the active board deasserts, or when a
handover is ordered and a step boundary is reached (R482); PRESENT_L of a board that is not active takes it out alone (R549). A continuity
sequence delays the handover of a live change (R540). -/
def boardFailover (x : BoardOut) (s : State) : State :=
  let s := if x.cause = 2 then s.livePoint else s
  match (List.range 2).find? s.standsBy with
  | none => if x.cause = 1 then s.boardGone x.board else s
  | some b =>
    let heard := match (s.board b).beat with
      | some t => decide (s.time < t + 500000)
      | none => false
    match x.cause with
    | 0 => if heard then s else (s.takeOver b 0).acceptPosted
    | 1 => if x.board = b then s.boardGone b else (s.takeOver b 1).acceptPosted
    | 2 =>
      if s.handover.isNone || !s.noAttempt || (s.liveOrder == 4 && s.inContinuity) then s else (s.takeOver b 2).acceptPosted
    | _ => s

/-- BOARD_FAILOVER. -/
def execBoardFailover (x : BoardOut) (s : State) : Res := if 3 ≤ x.cause ∨ 2 ≤ x.board then .refused .noSuchUnit else .next (boardFailover x s)

/-- BOARD_READY: a booted board has copied the mirrored state and stands by; with no board active it becomes active itself, which ends order 2
of a start, and what was executing ends with FAILOVER. A board whose mirror format the active image does not accept takes no role (R483,
R540). -/
def boardReady (b : Nat) (s : State) : State :=
  let y := s.board b
  if !y.present ∨ !y.booted ∨ y.ready then s
  else match s.active with
    | none =>
      (((({ s with phase := if s.phase = 2 then 3 else s.phase }).becomeActive b).applyCommit.raise 0x0802 []).failCommands).acceptPosted
    | some a =>
      if !acceptsMirror (s.board a).image y.image then s
      else
        let s := (s.onBoard b (fun y => { y with ready := true })).raise 0x0802 []
        if s.liveBoard ≠ b then s
        else if s.liveOrder = 1 ∨ s.liveOrder = 2 then (if s.liveWhich = 2 then s.liveHandover else s.liveDone)
        else if s.liveOrder = 5 then s.liveDone
        else s

/-- BOARD_READY. -/
def execBoardReady (b : Nat) (s : State) : Res := if 2 ≤ b then .refused .noSuchUnit else mpRow (boardReady b) s

/-- HEARTBEAT: a booted board b hears the other MP (R481). The first one that a rebooted board of order 1 hears begins its copying, order 2
(Table 21.4; DEDUCED, log entry 41). -/
def heartbeat (b : Nat) (s : State) : State :=
  if !(s.board b).booted then s
  else
    let s := if s.liveOrder = 1 ∧ s.liveBoard = b then { s with liveOrder := 2 } else s
    s.onBoard b (fun y => { y with beat := some s.time })

/-- HEARTBEAT. -/
def execHeartbeat (b : Nat) (s : State) : Res := if 2 ≤ b then .refused .noSuchUnit else .next (heartbeat b s)

/-- BOARD_RESET: RESET_L on one connector has the effect of removing the board and inserting it again (R528). -/
def boardReset (b : Nat) (s : State) : State :=
  if !(s.board b).present ∨ !s.inp.on12 then s else (s.loseBoard b).onBoard b Board.afterReset

/-- BOARD_RESET. -/
def execBoardReset (b : Nat) (s : State) : Res := if 2 ≤ b then .refused .noSuchUnit else .next (boardReset b s)

/-- BOARD_INSERTED: a board is seated and boots; fwok tells whether its flash holds an admissible image (R483, R549). Its fuses are those
last held for the position (log entry 32). -/
def boardInserted (b : Nat) (fwok : Bool) (s : State) : State :=
  let s := s.loseBoard b
  let old := { (s.board b).kept with present := true, supply := true }
  let f := if !fwok then { old with flash := [none, none] }
    else if old.bootSlot.isSome then old
    else { old with preferred := 0, flash := [some { version := 0x1000000, security := old.secCtr, advance := false }, none] }
  s.setBoard b (if s.inp.on12 then f.boot else f)

/-- BOARD_INSERTED. -/
def execBoardInserted (b : Nat) (fwok : Bool) (s : State) : Res := if 2 ≤ b then .refused .noSuchUnit else .next (boardInserted b fwok s)

end Sys2Proof.Machine
end

