-- ==== Sys2Proof/Machine/Start.lean ====
section
/-! DEFINITION. Start-up: power-on, reset, the orders of Table 21.1 and READY (R458, R481, R527 to R537, R545). -/

namespace Sys2Proof.Machine

/-! ## Orders 1 and 2 -/

/-- The cores whose fuse SHIP_GOOD is 0; a word that is not listed holds 1 (R512, log entry 3). -/
def State.shipBad (s : State) : List Nat :=
  (s.regs.filter (fun e => decide (aBay e.1 < 60 ∧ aUnit e.1 < 48 ∧ aBlk e.1 = 6 ∧ aOff e.1 = 8) && !bit e.2.toNat 0)).map (fun e =>
    aBay e.1 * 48 + aUnit e.1)

/-- Sets a core's bits of FENCE_LO or FENCE_HI and of ROUTER_FENCE. -/
def State.fenceBit (s : State) (p : Nat) : State :=
  let b := coreBay p
  let i := coreIdx p
  let s := if i < 32 then s.setFld (hubReg b 0x504) i i 1 else s.setFld (hubReg b 0x508) (i - 32) (i - 32) 1
  s.setFld (coreReg p 8 0) 0 0 1

/-- Notes a core's fence cause in the repair record. -/
def State.noteFence (s : State) (p cause : Nat) : State := { s with rep := { s.rep with fence := SMap.set 0 s.rep.fence p cause } }

/-- Every core that the repair record fences, and every core disabled at shipment, is fenced again (R435, R512, Table 21.2). -/
def State.restoreFences (s : State) : State :=
  forAll ((s.rep.fence.filter (fun e => e.2 != 0)).map (fun e => e.1) ++ s.shipBad) (fun p s => s.fenceBit p) s

/-- The healthy list, C and the limit of every bay (R404). -/
def State.restoreChannels (s : State) : State :=
  forAll s.rep.chOut (fun e s =>
    let s := forAll ((List.range 32).filter (bit e.2)) (fun c s => s.setFld (hubReg e.1 0x404) c c 0) s
    let c := (s.healthy e.1).length
    (s.setFld (hubReg e.1 0x400) 6 0 (2 * c)).setFld (hubReg e.1 0x400) 13 8 c) s

/-- Phases off, and the phase ceiling they leave (R461, R466). -/
def State.restorePhases (s : State) : State :=
  forAll s.rep.phases (fun e s =>
    let s := s.showPhases e.1
    s.setFld (paceStat e.1) 5 4 ((phaseCeil (s.vcoreW e.1) (s.vsramW e.1)).getD 3)) s

/-- Bays that a supply trip left dark, and bays without a channel, are dark: they are not enabled, their cores are fenced with cause 9
where the record has no cause, and the routers beside them fence the outputs toward them (R404, R530, Tables 13.12, 17.2). -/
def State.restoreDark (s : State) : State :=
  let bs := (List.range 60).filter (fun b => s.rep.darkBays.contains b || (s.healthy b).isEmpty)
  forAll bs (fun b s =>
    let s := ((s.onBay b (fun y => { y with dark := true })).setFld (hubReg b 0x400) 6 0 0)
    upTo 48 (fun i s =>
      let p := b * 48 + i
      (if s.fenced p then s else (s.fenceBit p).noteFence p 9).fenceOutputs p) s) s

/-- Both boards boot: the board in position A becomes active when it verifies its firmware, else B; the other one that verifies stands by
(R481). -/
def State.bootBoards (s : State) : State :=
  let s := upTo 2 (fun b s => s.onBoard b (fun y => if y.present then y.afterReset else y.kept)) s
  let up := (List.range 2).filter (fun b => (s.board b).booted)
  let s := forAll up (fun b s => s.onBoard b (fun y => { y with ready := true })) s
  { s with active := up.head?, phase := if up.isEmpty then 2 else 3 }

/-- A start from order 2: only fuses, flash images and the repair record are kept (R527). The commands that wait are outside the module. -/
def State.coldStart (s : State) : State :=
  let t : State := {
    pending := s.pending, freeCtr := s.freeCtr, boards := s.boards, rep := s.rep,
    regs := s.regs.filter (fun e => aBlk e.1 == 6),
    inp := { s.inp with
      on12 := true, stopped := false, outRange := if s.inp.on12 then s.inp.outRange else s.inp.outRange.filter (fun k => k != 1),
      coolant := 0, cool1 := 0, cool3 := 0, coolBad := false, coolLow := 0,
      powOver := 0, no54 := false, smbAge := if s.inp.on12 then s.inp.smbAge + s.time else 0 } }
  ((((t.restoreFences).restoreChannels).restorePhases).restoreDark).bootBoards

/-- POWER_ON: 12 V is applied (R529). -/
def execPowerOn (s : State) : Res := .next (if s.inp.on12 then s else s.coldStart)

/-- MODULE_RESET: RESET_L on both connectors with 12 V on, or 12 V returns after a dip (R528). -/
def execModuleReset (s : State) : Res := .next (if s.inp.on12 || s.inp.stopped then s.coldStart else s)

/-! ## Order 3 -/

/-- PLL_LOCK: a bay's PLL locks to the first source of its list; with every bay that is not dark locked or in holdover, roots in dark bays
are replaced and order 4 begins (R364, R475). -/
def pllLock (b : Nat) (s : State) : State :=
  if s.phase ≠ 3 ∨ s.inp.stopped ∨ (s.bay b).dark then s
  else
    let s := (s.lockClk b).2
    if !(List.range 60).all (fun x => (s.bay x).dark || s.fld (clkStat x) 4 3 != 0) then s
    else
      let s := { s with phase := 4 }
      let act := if (s.bay 25).dark then s.nextRoot (if (s.bay 34).dark then 60 else 34) else some 25
      match act with
      | none => s
      | some a => s.setRoots a (if (s.bay 34).dark ∨ a = 34 then s.nextRoot a else some 34)

/-- PLL_LOCK. -/
def execPllLock (bay : Nat) (s : State) : Res := if 60 ≤ bay then .refused .noSuchUnit else .next (pllLock bay s)

/-! ## Order 4 (R530, R545) -/

/-- The groups of four bays with a bay that is neither enabled nor dark. -/
def State.bayGroups (s : State) : List Nat :=
  (List.range 15).filter (fun g => (List.range 4).any (fun i => !(s.bay (4 * g + i)).enabled && !(s.bay (4 * g + i)).dark))

/-- BAY_ENABLE: the next group of four bays, at P3; order 4 is held before its first group while the 54 V input is low. -/
def bayEnable (s : State) : State :=
  if s.phase ≠ 4 ∨ s.active.isNone ∨ s.inp.no54 ∨ s.inp.stopped then s
  else if !s.inp.ok54 ∧ (List.range 60).all (fun b => !(s.bay b).enabled) then { s with inp := { s.inp with no54 := true } }
  else
    let s := match s.bayGroups with
      | [] => s
      | g :: _ => upTo 4 (fun i s =>
          let b := 4 * g + i
          if (s.bay b).dark then s else (s.onBay b (fun y => { y with enabled := true })).setFld (paceStat b) 1 0 3) s
    if s.bayGroups.isEmpty then { s with phase := 5 } else s

/-- BAY_ENABLE. -/
def execBayEnable (s : State) : Res := mpRow bayEnable s

/-- NO_54V_RESUME: the 54 V input has been in range for 100 ms (R545). -/
def execNo54vResume (s : State) : Res :=
  mpRow (fun s => if s.inp.no54 && s.inp.ok54 then { s with inp := { s.inp with no54 := false } } else s) s

/-! ## Orders 5 and 6 (R531, Table 21.2) -/

/-- START_COUNT (Table 21.6). -/
def startCount : Nat := gloReg 0x804

/-- A core that fails is fenced; a failed router or sync node (cause 5) also fences its neighbours' outputs. -/
def State.testFence (s : State) (p cause : Nat) : State :=
  let s := (s.isolate p cause).raise 0x0205 [(2, physCode p), (1, cause)]
  let s := { s with sn := s.sn ++ [({ typ := 5, head := coreBay p, a := coreIdx p, b := 0 } : Token)] }
  let s := s.sendAlarm (coreBay p) 9 (coreIdx p + 64 * cause)
  (if cause = 5 then s.fenceOutputs p else s).bump startCount 11 0 1

/-- A core released from its fence. -/
def State.testRelease (s : State) (p : Nat) : State :=
  let b := coreBay p
  let i := coreIdx p
  let s := if i < 32 then s.setFld (hubReg b 0x504) i i 0 else s.setFld (hubReg b 0x508) (i - 32) (i - 32) 0
  let s := s.setFld (coreReg p 8 0) 0 0 0
  ({ s with rep := { s.rep with fence := SMap.set 0 s.rep.fence p 0 } }).bump startCount 23 12 1

/-- The result of the start-up test at one core: fail is the cause of its failure, if any. A core disabled at shipment is not tested, and one
fenced during this start stays fenced (R537, Table 21.2); a failed router or sync node also fences its neighbours' outputs (R531). -/
def State.testCore (s : State) (p : Nat) (fail : Option Nat) : State :=
  let old := SMap.get 0 s.rep.fence p
  if !s.shipGood p ∨ s.startFenced.contains p then s
  else if [1, 2, 3, 6, 7].contains old then
    let s := { s with rep := { s.rep with testRes := SMap.set 0 s.rep.testRes p (if fail.isSome then 2 else 1) } }
    let s := if fail = some 5 then s.fenceOutputs p else s
    if fail.isSome then s.bump startCount 11 0 1 else s
  else match fail with
    | some c => s.testFence p c
    | none => if old = 0 then s else s.testRelease p

/-- Whether order 7 is over: every healthy channel of the bays that run has trained or failed. -/
def State.trainingOver (s : State) : Bool :=
  (List.range 60).all (fun b => !s.bayUp b || (s.healthy b).all (fun c => (s.bay b).trainedCh.contains c))

/-- With order 7 over, order 8 is the one in progress (R529). -/
def State.phase78 (s : State) : State := if s.phase = 7 ∧ s.trainingOver then { s with phase := 8 } else s

/-- Every bay that runs has all its cores switched on, and its crack model calibrated (R469, orders 5 and 6 of Table 21.1). The calibration is
the free one that its number names (Config.crackOhm). -/
def State.calibrate (s : State) : State :=
  let k := s.freeCtr + 1
  upTo 60 (fun b s =>
    if !s.bayUp b then s
    else
      let s := s.onBay b (fun y => { y with powered := List.range 48, hdr := [], hdrQuarter := [], hdrDue := [], guardHdr := [] })
      { ((s.showHdr b).showGuard b) with rep := { s.rep with crackCal := SMap.set 0 s.rep.crackCal b k } }) { s with freeCtr := k }

/-- START_UP_TEST: every core of the bays that run has been switched on and tested; spares are then switched off (R473, R531). -/
def startUpTest (fails : List (Nat × Nat)) (s : State) : State :=
  if (s.phase ≠ 5 ∧ s.phase ≠ 6) ∨ s.inp.stopped then s
  else
    let s := (if s.phase = 5 then s.endOrder5 else s).calibrate
    let s := upTo 2880 (fun p s =>
      if s.bayUp (coreBay p) then s.testCore p ((fails.find? (fun f => f.1 == p)).map (fun f => f.2)) else s) s
    let s := upTo 60 (fun b s => s.onBay b (fun y => { y with powered := y.powered.filter (fun i => !s.fenced (b * 48 + i)) })) s
    ({ (upTo 60 (fun b s => s.coldSpares b) s) with phase := 7 }).phase78

/-- START_UP_TEST. -/
def execStartUpTest (fails : List (Nat × Nat)) (s : State) : Res :=
  if fails.any (fun f => decide (2880 ≤ f.1) || !([1, 3, 5].contains f.2)) then .refused .noSuchUnit else .next (startUpTest fails s)

/-! ## Orders 7 and 8 (R533, R534) -/

/-- The rows of a channel become permanent repairs where their bank has its hard spare left; the others stay soft (R408, R533). -/
def State.hardRepairs (s : State) (b ch : Nat) : State :=
  let rows := (SMap.get [] s.rep.softRows b).filter (fun r => r.1 == ch)
  let r := rows.foldl (fun (a : List (Nat × Nat) × List (Nat × Nat)) x =>
    let k := (ch, Config.bankOf x.2)
    if a.1.contains k then (a.1, a.2 ++ [x]) else (a.1 ++ [k], a.2)) (SMap.get [] s.rep.hardRows b, [])
  let s := s.onBay b (fun y => { y with softRows := y.softRows.filter (fun x => x.1 != ch) ++ r.2 })
  let keep := (SMap.get [] s.rep.softRows b).filter (fun x => x.1 != ch) ++ r.2
  ({ s with rep := { s.rep with hardRows := SMap.set [] s.rep.hardRows b r.1, softRows := SMap.set [] s.rep.softRows b keep } }).showRepairs b

/-- STACK_TRAINING: a healthy channel trains, with its repairs made and zero written over it, or fails and is mapped out (R533). -/
def stackTraining (b ch : Nat) (ok : Bool) (s : State) : State :=
  if s.phase ≠ 7 ∨ !s.bayUp b ∨ !bit (s.reg (hubReg b 0x404)).toNat ch ∨ (s.bay b).trainedCh.contains ch then s
  else if ok then
    let s := { s with stack := s.stack.filter (fun c => !(c.1 / 2 ^ 36 == b && s.channelOf c.1 == ch)) }
    ((s.hardRepairs b ch).onBay b (fun y => { y with trainedCh := insNat y.trainedCh ch })).phase78
  else ({ ((s.mapOut b ch).bump startCount 29 24 1) with startOuts := s.startOuts + 1 }).phase78

/-- STACK_TRAINING. -/
def execStackTraining (bay ch : Nat) (ok : Bool) (s : State) : Res :=
  if 60 ≤ bay ∨ 32 ≤ ch then .refused .noSuchUnit else .next (stackTraining bay ch ok s)

/-- LANDING_TRAINING: a try at training an untrained landing ends with the lane groups of a mask working; four make the link, and a group that
worked after an earlier try and fails this one is disabled (R367, R534). It is tried again every 10 s. -/
def landingTraining (l groups : Nat) (s : State) : State :=
  if (s.phase < 7 ∧ !s.readyUp) ∨ !(s.land l).present ∨ !s.bayUp (landingBay l) ∨ bit (s.reg (landReg l 4)).toNat 16 then s
  else
    let down := (List.range 16).filter (fun g => !bit groups g && bit (s.reg (landReg l 4)).toNat g)
    forAll ((List.range 16).filter (bit groups)) (fun g s => linkTrained l g s) (forAll down (fun g s => laneGroupDown l g s) s)

/-- LANDING_TRAINING. -/
def execLandingTraining (l groups : Nat) (s : State) : Res := landEvent l (landingTraining l groups) s

/-! ## Orders 9 and 10 (R532, R535) -/

/-- The grade check: good cores by fuse against GOOD_CORES, and LOT and WAFER of every core and hub against the module's (R532). -/
def State.gradeOk (s : State) : Bool :=
  let id1 := (s.reg (mkAddr 63 0 6 4)).toNat
  let units := (List.range 60).flatMap (fun b => (List.range 49).map (fun u => mkAddr b u 6 0))
  (List.range 2880).countP s.shipGood == bits id1 22 11 &&
  units.all (fun a => s.reg a == s.reg (mkAddr 63 0 6 0) && bits (s.reg (a + 4)).toNat 4 0 == bits id1 4 0)

/-- Order 9, then READY with the start-up results; job state NONE (R532, R534, R535, R389). -/
def ready (s : State) : State :=
  if s.phase < 7 ∨ s.active.isNone ∨ s.inp.stopped ∨ !s.trainingOver then s
  else
    let s := (((s.writeEscapes).checkPaths).floorCheck)
    let un := (List.range 8).any (fun l => (s.land l).present && !bit (s.reg (landReg l 4)).toNat 16)
    let s := (s.setFld (gloReg 0x800) 5 5 (b2n (!s.gradeOk))).setFld (gloReg 0x800) 6 6 (b2n un)
    let s := upTo 4 (fun l s =>
      if (s.land l).partnerSeen && (s.land (l + 4)).partnerSeen && s.reg64 (landReg l 0x20) != s.reg64 (landReg (l + 4) 0x20) then
        s.raise 0x0404 [(1, l)]
      else s) s
    let st := b2n (!s.gradeOk) + 2 * b2n (bit (s.reg (gloReg 0x510)).toNat 0) + 4 * b2n un
    let s := { s with phase := 0, readyUp := true }
    s.raise 0x0003 [(1, s.workingLandings), (1, st), (4, s.usableCores), (4, s.usableStack), (4, s.fld startCount 11 0),
      (4, s.fld startCount 23 12), (4, s.startOuts)]

/-- READY. -/
def execReady (s : State) : Res := mpRow ready s

end Sys2Proof.Machine
end

