-- ==== Sys2Proof/Machine/Host.lean ====
section
/-! DEFINITION. Mailboxes, doorbells and acceptance, and the host commands that need no step boundary (R486 to R494, R504, R536, R538,
Tables 19.5 to 19.7). -/

namespace Sys2Proof.Machine

/-! ## Mailbox slots and doorbells (R486, R487) -/

/-- Whether byte x of a board's mailbox area is frozen: in bytes 0x00 to 0x7F of a slot that is posted or executing. -/
def State.frozen (s : State) (b x : Nat) : Bool :=
  decide (x % 256 < 0x80) && (s.slotState b (x / 256) == 1 || s.slotState b (x / 256) == 2)

/-- A host write to the mailbox area: frozen bytes are discarded, and the write is counted (R486). -/
def mailboxWrite (b off : Nat) (bs : List Byte) (s : State) : State :=
  if !s.boardOn b then s
  else
    let es := (bs.zipIdx.map (fun e => (off + e.2, e.1))).filter (fun e => decide (e.1 < 0x4000))
    let s' := s.onBoard b (fun y => { y with mbx := (es.filter (fun e => !s.frozen b e.1)).foldl (fun m e => Mem.write m e.1 [e.2]) y.mbx })
    if es.any (fun e => s.frozen b e.1) then s'.bumpB b 0x6008 31 16 else s'

/-- MAILBOX_WRITE. -/
def execMailboxWrite (b off : Nat) (bytes : List Byte) (s : State) : Res :=
  if 2 ≤ b then .refused .noSuchUnit else .next (mailboxWrite b off bytes s)

/-- A doorbell posts a free or done slot, those of one clk in the order board A, board B, then by ascending index; on another slot it is
discarded and counted (R487). -/
def doorbell (b k : Nat) (s : State) : State :=
  if !s.boardOn b then s
  else if s.slotState b k = 1 ∨ s.slotState b k = 2 then s.bumpB b 0x6008 31 16
  else
    let before := s.posted.filter (fun e => decide (e.1 < s.time ∨ (e.1 = s.time ∧ 64 * e.2.1 + e.2.2 < 64 * b + k)))
    let after := s.posted.filter (fun e => !decide (e.1 < s.time ∨ (e.1 = s.time ∧ 64 * e.2.1 + e.2.2 < 64 * b + k)))
    (({ s with posted := before ++ (s.time, b, k) :: after }).slotPut b k 8 [1]).acceptPosted

/-- DOORBELL. -/
def execDoorbell (b n : Nat) (s : State) : Res := if 2 ≤ b ∨ 64 ≤ n then .refused .noSuchUnit else mpRow (doorbell b n) s

/-! ## The shape of a command (R488, R490, R494) -/

/-- What a command answers: the state, and its status and result unless it waits. -/
abbrev Ans := State × Option (Nat × List Byte)

/-- A command that completes with a status and no result. -/
def State.done (s : State) (status : Nat) : Ans := (s, some (status, []))
/-- A command that completes OK with a result. -/
def State.okWith (s : State) (res : List Byte) : Ans := (s, some (0, res))
/-- A command that waits for the step boundary. -/
def State.await (s : State) (b k : Nat) (data : List Byte := []) : Ans :=
  (s.onJob (fun j => { j with atBoundary := j.atBoundary ++ [{ board := b, slot := k, code := s.slotNum b k 0 2, data := data }] }), none)

/-- Whether a command already waits. -/
def State.isWaiting (s : State) (b k : Nat) : Bool :=
  s.job.atBoundary.any (fun w => w.board == b && w.slot == k) || s.handCmd == some (b, k) || s.liveCmd == some (b, k)

/-- Whether slot k of board b holds an executing command of a code that an active MP serves and that does not wait. -/
def State.canRun (s : State) (b k code : Nat) : Bool :=
  s.active.isSome && (s.board b).present && s.slotState b k == 2 && s.slotNum b k 0 2 == code && !s.isWaiting b k

/-- Runs the command in slot k of board b if it executes: reserved flags or reserved bytes that are not 0 give BAD_ARGUMENT, and completion
follows R488 (Tables 19.5, 19.6). -/
def cmd (b k code : Nat) (f : State → Ans) (s : State) : Res :=
  if 2 ≤ b ∨ 64 ≤ k then .refused .noSuchUnit
  else mpRow (fun s =>
    if !s.canRun b k code then s
    else if 2 ≤ s.slotNum b k 2 2 ∨ s.slotNum b k 0xA 2 ≠ 0 then s.finish b k 4 []
    else match f s with
      | (t, none) => t
      | (t, some r) => t.finish b k r.1 r.2) s

/-- Argument bytes of the command in slot k. -/
def State.arg (s : State) (b k o n : Nat) : Nat := s.slotNum b k o n

/-! ## Cores and bays -/

/-- Whether a continuity sequence is changing a core: it is fenced with roles that a sistering has still to move (R494). -/
def State.coreBusy (s : State) (p : Nat) : Bool := s.jobLive && s.fenced p && !(s.core p).roles.isEmpty

/-- Whether a continuity sequence is changing a bay: its loss is being handled, or roles of its cores are being moved (R494). -/
def State.bayBusy (s : State) (y : Nat) : Bool := (s.bay y).lossDue || (List.range 48).any (fun i => s.coreBusy (y * 48 + i))

/-- Whether a continuity sequence is changing a bay's stack: also a channel that has failed and is to be mapped out (R402, R494). -/
def State.stackBusy (s : State) (y : Nat) : Bool := s.bayBusy y || (s.jobLive && !(s.bay y).failedCh.isEmpty)

/-- CORE_FENCE: fences with cause 8; it waits while the core's roles are being moved (R494). -/
def coreFence (b k : Nat) (s : State) : Ans :=
  let v := s.arg b k 0x10 2
  let p := coreArg v
  if 3840 ≤ v ∨ 48 ≤ v % 64 then s.done 4
  else if s.coreBusy p ∨ (s.bay (coreBay p)).lossDue then (s, none)
  else if (s.bay (coreBay p)).dark then s.done 0xA
  else if s.fenced p then s.done 1
  else (s.fenceCore p 8).done 0

/-- CORE_FENCE. -/
def execCoreFence (b n : Nat) (s : State) : Res := cmd b n 0x201 (coreFence b n) s

/-- CORE_QUERY. -/
def coreQuery (b k : Nat) (s : State) : Ans :=
  let v := s.arg b k 0x10 2
  let p := coreArg v
  if 3840 ≤ v ∨ 48 ≤ v % 64 then s.done 4
  else if s.coreBusy p ∨ (s.bay (coreBay p)).lossDue then (s, none)
  else if (s.bay (coreBay p)).dark then s.done 0xA
  else
    let r := fun (i : Nat) => ((s.core p).roles[i]?).getD 0xFFFFFFFF
    s.okWith (leBytes 4 (r 0) ++ leBytes 4 (r 1) ++ leBytes 1 (SMap.get 0 s.rep.fence p))

/-- CORE_QUERY. -/
def execCoreQuery (b n : Nat) (s : State) : Res := cmd b n 0x202 (coreQuery b n) s

/-- BAY_SPARES. -/
def baySpares (b k : Nat) (s : State) : Ans :=
  let y := s.arg b k 0x10 1
  let v := s.arg b k 0x11 1
  if 60 ≤ y ∨ 16 < v then s.done 4
  else if s.bayBusy y then (s, none)
  else (s.fldBy (8 + k) (hubReg y 0x500) 29 25 v).done 0

/-- BAY_SPARES. -/
def execBaySpares (b n : Nat) (s : State) : Res := cmd b n 0x301 (baySpares b n) s

/-- Spares of a bay as a query shows them: none in a dark bay (R436). -/
def State.spareCount (s : State) (y : Nat) : Nat := if (s.bay y).dark then 0 else (s.sparesOf y).length

/-- BAY_QUERY. -/
def bayQuery (b k : Nat) (s : State) : Ans :=
  let y := s.arg b k 0x10 1
  if 60 ≤ y then s.done 4
  else if s.bayBusy y then (s, none)
  else
    let fen := 48 - s.goodCores y
    s.okWith (leBytes 1 (s.fld (hubReg y 0x400) 6 0) ++ leBytes 1 (s.fld (paceStat y) 1 0) ++ leBytes 1 fen ++ leBytes 1 (s.spareCount y) ++
      leBytes 1 (b2n (s.bay y).dark))

/-- BAY_QUERY. -/
def execBayQuery (b n : Nat) (s : State) : Res := cmd b n 0x302 (bayQuery b n) s

/-! ## Stacks -/

/-- STACK_MAPOUT: with a job it waits for the boundary that performs it; with none it is performed now (R403). -/
def stackMapout (b k : Nat) (s : State) : Ans :=
  let y := s.arg b k 0x10 1
  let c := s.arg b k 0x11 1
  if 60 ≤ y ∨ 32 ≤ c then s.done 4
  else if s.stackBusy y then (s, none)
  else if !s.bayUp y then s.done 0xA
  else if !bit (s.reg (hubReg y 0x404)).toNat c then s.done 1
  else if s.jobOn then (s.setFld (hubReg y 0x408) c c 1).await b k
  else (s.mapOut y c).done 0

/-- STACK_MAPOUT. -/
def execStackMapout (b n : Nat) (s : State) : Res := cmd b n 0x401 (stackMapout b n) s

/-- STACK_QUERY. -/
def stackQuery (b k : Nat) (s : State) : Ans :=
  let y := s.arg b k 0x10 1
  if 60 ≤ y then s.done 4
  else if s.stackBusy y then (s, none)
  else if !s.bayUp y then s.done 0xA
  else s.okWith (leBytes 4 (s.reg (hubReg y 0x404)).toNat ++ leBytes 4 (s.reg (hubReg y 0x414)).toNat)

/-- STACK_QUERY. -/
def execStackQuery (b n : Nat) (s : State) : Res := cmd b n 0x402 (stackQuery b n) s

/-- A register write of the active MP for a command of mailbox k, which carries master 8 + k (R502). -/
def State.mailboxReg (s : State) (k a : Nat) (v : W32) : State :=
  (s.plainWrite a v).cnNote (8 + k) a 1 false

/-! ## Landings -/

/-- LANDING_ACCEPT: a changed partner identifier is acknowledged, and issue resumes (R388). -/
def landingAccept (b k : Nat) (s : State) : Ans :=
  let l := s.arg b k 0x10 1
  if 8 ≤ l then s.done 4
  else if !(s.land l).halted then s.done 5
  else ((s.setFld (landReg l 4) 20 20 0).onLand l (fun x => { x with halted := false })).done 0

/-- LANDING_ACCEPT. -/
def execLandingAccept (b n : Nat) (s : State) : Res := cmd b n 0x501 (landingAccept b n) s

/-- LANDING_HOLD. -/
def landingHold (b k : Nat) (s : State) : Ans :=
  let l := s.arg b k 0x10 1
  let m := s.arg b k 0x14 4
  if 8 ≤ l then s.done 4
  else
    let s := s.onLand l (fun x => { x with hostHold := x.hostHold ||| BitVec.ofNat 32 m })
    (s.sendHold l ((s.reg (landReg l 8)).toNat ||| m) 3 0).done 0

/-- LANDING_HOLD. -/
def execLandingHold (b n : Nat) (s : State) : Res := cmd b n 0x503 (landingHold b n) s

/-- LANDING_RELEASE: the VCs named are held no more by the host; a job that is held, halted or waiting still holds VC0 to VC3. -/
def landingRelease (b k : Nat) (s : State) : Ans :=
  let l := s.arg b k 0x10 1
  let m : W32 := BitVec.ofNat 32 (s.arg b k 0x14 4)
  if 8 ≤ l then s.done 4
  else if (s.land l).hostHold &&& m = 0 then s.done 1
  else
    let s := s.onLand l (fun x => { x with hostHold := x.hostHold &&& ~~~m })
    let job : W32 := if 3 ≤ s.job.st then 15 else 0
    let v := ((s.reg (landReg l 8)) &&& ~~~m) ||| (s.land l).hostHold ||| job
    (s.sendHold l v.toNat 3 0).done 0

/-- LANDING_RELEASE. -/
def execLandingRelease (b n : Nat) (s : State) : Res := cmd b n 0x504 (landingRelease b n) s

/-- LANDING_RETRAIN: the groups leave service until they are trained; with fewer than 4 left the link is no longer trained (R367). -/
def landingRetrain (b k : Nat) (s : State) : Ans :=
  let l := s.arg b k 0x10 1
  let m := s.arg b k 0x12 2
  if 8 ≤ l then s.done 4
  else
    let was := s.landWorks l
    let s := forAll ((List.range 16).filter (bit m)) (fun g s => s.setFld (landReg l 4) g g 0) s
    if s.groupsUp l < 4 ∧ bit (s.reg (landReg l 4)).toNat 16 then
      let s := s.setFld (landReg l 4) 16 16 0
      (if was then s.landingStopped l else s.endOfService).done 0
    else s.done 0

/-- LANDING_RETRAIN. -/
def execLandingRetrain (b n : Nat) (s : State) : Res := cmd b n 0x505 (landingRetrain b n) s

/-! ## Power -/

/-- POWER_PACE. -/
def powerPace (b k : Nat) (s : State) : Ans :=
  let v := s.arg b k 0x10 1
  if 3 < v then s.done 4 else (s.setJobPace v).done 0

/-- POWER_PACE. -/
def execPowerPace (b n : Nat) (s : State) : Res := cmd b n 0x601 (powerPace b n) s

/-- POWER_CEILING. -/
def powerCeiling (b k : Nat) (s : State) : Ans :=
  let y := s.arg b k 0x10 1
  let v := s.arg b k 0x11 1
  if 60 ≤ y ∨ 3 < v then s.done 4
  else if s.bayBusy y then (s, none)
  else ((s.fldBy (8 + k) (paceCtrl y) 1 0 v).repace y 1).done 0

/-- POWER_CEILING. -/
def execPowerCeiling (b n : Nat) (s : State) : Res := cmd b n 0x602 (powerCeiling b n) s

/-- POWER_LIMIT. -/
def powerLimit (b k : Nat) (s : State) : Ans :=
  let w := s.arg b k 0x10 2
  if 25000 < w then s.done 4 else (s.fldBy (8 + k) (gloReg 0x604) 15 0 w).done 0

/-- POWER_LIMIT. -/
def execPowerLimit (b n : Nat) (s : State) : Res := cmd b n 0x603 (powerLimit b n) s

/-! ## Queries -/

/-- QUERY_STATUS. -/
def queryStatus (_b _k : Nat) (s : State) : Ans :=
  let m := s.job.loaded
  s.okWith (leBytes 1 s.job.st ++ List.replicate 7 0 ++ leBytes 8 s.job.step ++ leBytes 2 s.job.version ++ leBytes 1 s.job.attempt ++
    leBytes 1 ((m.map (fun m => m.alt)).getD 0) ++ (m.map (fun m => m.man.mid)).getD (List.replicate 16 0) ++
    leBytes 1 (s.fld (gloReg 0x500) 7 0) ++ leBytes 1 (s.fld (gloReg 0x510) 3 0))

/-- QUERY_STATUS. -/
def execQueryStatus (b n : Nat) (s : State) : Res := cmd b n 0x801 (queryStatus b n) s

/-- QUERY_IDENTITY: the module's fuses and the firmware versions of both boards. -/
def queryIdentity (_b _k : Nat) (s : State) : Ans :=
  let id := fun (o : Nat) => (s.reg (mkAddr 63 0 6 o)).toNat
  let fw := fun (i : Nat) => if (s.board i).present then ((s.board i).image.map (fun f => f.version)).getD 0 else 0
  s.okWith (leBytes 4 (bits (id 0) 29 0) ++ leBytes 1 (bits (id 4) 4 0) ++ leBytes 1 (bits (id 4) 6 5) ++ leBytes 1 (bits (id 4) 9 7) ++
    leBytes 1 (bits (id 4) 10 10) ++ leBytes 2 (bits (id 4) 22 11) ++ [0, 0] ++ leBytes 4 (fw 0) ++ leBytes 4 (fw 1))

/-- QUERY_IDENTITY. -/
def execQueryIdentity (b n : Nat) (s : State) : Res := cmd b n 0x802 (queryIdentity b n) s

/-- QUERY_CAPACITY (R10, R436). -/
def queryCapacity (_b _k : Nat) (s : State) : Ans :=
  s.okWith (leBytes 2 s.usableCores ++ leBytes 2 s.usableStack ++ leBytes 1 s.workingLandings ++ [0, 0, 0] ++
    (List.range 60).flatMap (fun y => leBytes 1 (s.spareCount y)))

/-- QUERY_CAPACITY. -/
def execQueryCapacity (b n : Nat) (s : State) : Res := cmd b n 0x803 (queryCapacity b n) s

/-! ## Firmware (R503, R504, R538) -/

/-- The boards that a board argument names: 2 is both. -/
def boardsOf (v : Nat) : List Nat := if v = 2 then [0, 1] else [v]

/-- Whether an image's header names a fused, unrevoked key of a board's chip, which its key digests to, and its signature of the first 256
header bytes verifies under that key (R503). -/
def Board.signed (y : Board) (d : List Byte) : Bool :=
  let key := (d.drop 0x48).take 97
  let i := num d 0xE 1
  (y.fuseKeys[i]?) == some (sha384 key) && !bit y.revoked i && ecdsaOk key ((d.drop 0x100).take 96) (sha384 (d.take 0x100))

/-- Admission of a firmware image by the chips of the boards named (R503): the status of the first failure, or what is kept of it. -/
def State.admitImage (s : State) (bs : List Nat) (d : List Byte) : Except Nat FwImage :=
  let n := num d 0x10 8
  let body := (d.drop 0x200).take n
  if d.take 8 ≠ [0x42, 0x47, 0x57, 0x46, 0x57, 0x49, 0x4D, 0x47] ∨ d.length < 0x200 + n ∨ bs.any (fun b => !(s.board b).signed d) ∨
     sha384 body ≠ (d.drop 0x18).take 48 then .error 8
  else if bs.any (fun b => decide (num d 0xC 2 < (s.board b).secCtr)) then .error 9
  else
    let m := Config.fwMirror body
    .ok { version := num d 8 4, security := num d 0xC 2, advance := bit (num d 0xF 1) 0, mirrorW := m.1, mirrorR := m.2 }

/-- Writes an admitted image into the slot a board does not run from; a board that runs without a role, or runs no image, reboots into it
(R504, R540). -/
def Board.stage (y : Board) (f : FwImage) : Board :=
  let k := if y.booted then 1 - y.slotRun else y.preferred
  let z := { y with flash := (List.range 2).map (fun i => if i = k then some f else (y.flash[i]?).join), staged := true }
  if y.ready then z else ({ z with preferred := k }).boot

/-- FW_STAGE. -/
def fwStage (b k : Nat) (data : Option (List Byte)) (s : State) : Ans :=
  let v := s.arg b k 0x10 1
  let n := s.arg b k 0x20 8
  if 2 < v then s.done 4
  else if (boardsOf v).any (fun i => !(s.board i).present) then s.done 0xA
  else match data with
    | none => s.done 7
    | some d =>
      if d.length < n then s.done 7
      else match s.admitImage (boardsOf v) (d.take n) with
        | .error e => s.done e
        | .ok f => ((forAll (boardsOf v) (fun i s => s.onBoard i (fun y => y.stage f)) s).raise 0x0803 []).okWith (leBytes 4 f.version)

/-- FW_STAGE. -/
def execFwStage (b n : Nat) (data : Option (List Byte)) (s : State) : Res := cmd b n 0x901 (fwStage b n data) s

/-- The staged image of a board, if it is still admissible. -/
def Board.stagedImage (y : Board) : Option FwImage :=
  if y.present && y.booted && y.staged then ((y.flash[1 - y.slotRun]?).join).filter (fun f => decide (y.secCtr ≤ f.security)) else none

/-- FW_ACTIVATE: the live change starts when R538 holds, and the command completes with it (Table 21.4). -/
def fwActivate (b k : Nat) (s : State) : Ans :=
  let v := s.arg b k 0x10 1
  match s.active, (List.range 2).find? s.standsBy with
  | some a, some w =>
    if 2 < v then s.done 4
    else if s.liveOrder ≠ 0 ∨ s.handover.isSome ∨ !(boardsOf v).all (fun i =>
        (s.board i).stagedImage.isSome && acceptsMirror (s.board (1 - i)).image (s.board i).stagedImage) then s.done 5
    else
      let s := forAll (boardsOf v) (fun i s => s.onBoard i (fun y => { y with preferred := 1 - y.slotRun })) s
      let s := { s with liveCmd := some (b, k), liveWhich := v }
      (if v = a then s.liveHandover else s.liveReboot w 1, none)
  | _, _ => if 2 < v then s.done 4 else s.done 5

/-- FW_ACTIVATE. -/
def execFwActivate (b n : Nat) (s : State) : Res := cmd b n 0x902 (fwActivate b n) s

/-- FW_HANDOVER: the standby takes over at the next step boundary, or at once with no attempt open (R482). -/
def fwHandover (b k : Nat) (s : State) : Ans :=
  if (List.range 2).all (fun i => !s.standsBy i) ∨ s.liveOrder ≠ 0 ∨ s.handover.isSome then s.done 5
  else if s.noAttempt then ({ s with handover := some s.time, handCmd := some (b, k) }, none)
  else s.await b k

/-- FW_HANDOVER. -/
def execFwHandover (b n : Nat) (s : State) : Res := cmd b n 0x903 (fwHandover b n) s

/-! ## Injection (R394, R395) -/

/-- INJECT_LANDING: the rule's five registers are written and the rule is armed. -/
def injectLanding (b k : Nat) (s : State) : Ans :=
  let l := s.arg b k 0x10 1
  if 8 ≤ l then s.done 4
  else
    let v := fun (i : Nat) => (BitVec.ofNat 32 (s.arg b k (0x14 + 4 * i) 4) : W32)
    let s := forAll [1, 2, 3, 4] (fun i s => s.mailboxReg k (landReg l (0x900 + 4 * i)) (v i)) s
    ((s.mailboxReg k (landReg l 0x900) (v 0 ||| 1)).onLand l (fun x => { x with injCount := 0 })).done 0

/-- INJECT_LANDING. -/
def execInjectLanding (b n : Nat) (s : State) : Res := cmd b n 0xA01 (injectLanding b n) s

/-- INJECT_LINK: LINK_INJ of an output is written and armed. -/
def injectLink (b k : Nat) (s : State) : Ans :=
  let v := s.arg b k 0x10 2
  let o := s.arg b k 0x12 1
  if 3840 ≤ v ∨ 48 ≤ v % 64 ∨ o = 0 ∨ 4 < o then s.done 4
  else if s.coreBusy (coreArg v) ∨ (s.bay (v / 64)).lossDue then (s, none)
  else (s.mailboxReg k (coreReg (coreArg v) 8 (0x100 + 4 * o)) (BitVec.ofNat 32 (s.arg b k 0x14 4) ||| 1)).done 0

/-- INJECT_LINK. -/
def execInjectLink (b n : Nat) (s : State) : Res := cmd b n 0xA02 (injectLink b n) s

/-- INJECT_FAILURE: as if a core (0), bay (1), stack channel (2, as bay and channel in the form of "bay, core") or partner (3) failed. -/
def injectFailure (b k : Nat) (s : State) : Ans :=
  let v := s.arg b k 0x12 2
  match s.arg b k 0x10 1 with
  | 0 =>
    if 3840 ≤ v ∨ 48 ≤ v % 64 then s.done 4
    else if s.coreBusy (coreArg v) ∨ (s.bay (v / 64)).lossDue then (s, none)
    else if s.coreUp (coreArg v) then (s.fenceCore (coreArg v) 1).done 0 else s.done 0xA
  | 1 => if 60 ≤ v then s.done 4 else if s.bayBusy v then (s, none) else if s.bayUp v then (s.openDisconnect v).done 0 else s.done 0xA
  | 2 =>
    if 3840 ≤ v ∨ 32 ≤ v % 64 then s.done 4
    else if s.stackBusy (v / 64) then (s, none)
    else if s.bayUp (v / 64) then (s.channelFailed (v / 64) (v % 64)).done 0 else s.done 0xA
  | 3 => if 8 ≤ v then s.done 4 else if s.linkLive v then (partnerLost v s).done 0 else s.done 0xA
  | _ => s.done 4

/-- INJECT_FAILURE. -/
def execInjectFailure (b n : Nat) (s : State) : Res := cmd b n 0xA03 (injectFailure b n) s

end Sys2Proof.Machine
end

