-- ==== Sys2Proof/Machine/Boundary.lean ====
section
/-! DEFINITION. The step boundary, and the commands of the job, snapshot and landing families that act there (R33, R58, R61, R62, R309, R391,
R449, R451, R454, R490 to R492, Tables 19.7 and 19.8). -/

namespace Sys2Proof.Machine

/-! ## Loading a manifest (R58 to R61) -/

/-- Result of JOB_LOAD and JOB_ALTERNATE: manifest_id and the alternate loaded. -/
def loadResult (m : Loaded) : List Byte := m.man.mid ++ leBytes 1 m.alt

/-- Checks a manifest's bytes: the first failing status; added alternates must belong to the running manifest (R58, R490). -/
def State.checkLoad (s : State) (b k code : Nat) (d : List Byte) : Except Nat Loaded :=
  match s.checkManifest d (s.arg b k 0x18 8) with
  | .error e => .error e
  | .ok m =>
    if code = 0x101 then .ok m
    else match s.job.loaded with
      | none => .error 5
      | some r => if m.man.mid = r.man.mid ∧ r.man.altCount < m.man.altCount then .ok m else .error 4

/-- Loads a manifest now: it is checked and installed. -/
def State.loadNow (s : State) (b k code : Nat) (d : List Byte) : Ans :=
  match s.checkLoad b k code d with
  | .error e => s.done e
  | .ok m =>
    let s := (s.latencyCheck m.man).install m (decide (code = 0x107))
    (s.onJob (fun j => { j with st := if j.st = 0 then 1 else j.st, nextLoad := none })).okWith (loadResult m)

/-! ## End of a job -/

/-- The job ends: cores, landings and girts are left without work, the host's own holds stay, and JOB_ENDED is raised. -/
def State.endJob (s : State) : State :=
  let s := (s.stopCores).endDoubles
  let s := upTo 2880 (fun p s => if (s.core p).roles.isEmpty then s else
    s.onCore p (fun c => { (c.clearWork) with roles := [], curRole := none, stored := none })) s
  let s := upTo 8 (fun l s => s.onLand l (fun x => x.newAttempt true)) s
  let s := ({ s with bars := [], barsSb := [], flights := [], rets := [], sn := s.sn.filter (fun t => decide (5 ≤ t.typ)) }).raise 0x010B []
  let s := s.onJob (fun j => { st := 0, version := j.version, atBoundary := j.atBoundary, readyCnt := j.readyCnt })
  (upTo 60 (fun b s => s.coldSpares b) s).releaseHolds

/-- Result of JOB_STOP: the last committed step, a free value with none, and V. -/
def State.stopResult (s : State) : List Byte := leBytes 8 (s.job.lastCommit.getD Config.noCommittedStep.toNat) ++ leBytes 2 s.job.version

/-! ## Landings taken back (R391) -/

/-- Takes back a lost partner: sequence numbers and credit restart at 0 on both sides. SNAP frames that were not acknowledged are sent anew
(R446). -/
def State.retake (s : State) (l : Nat) : State :=
  let s := (s.setFld (landReg l 4) 17 17 0).onLand l (fun x =>
    { x.freshCredit with
      faulted := false, txSeq := 0, rxExpect := 0, nakWanted := false, ackDue := false, replay := [], resendIdx := none, probeQ := [],
      outQ := x.replay.filter (fun f => f.typ == 4) ++ x.outQ.filter (fun f => f.typ == 4 || f.typ == 6 || f.typ == 9) })
  s.landingBack

/-! ## What waits for the boundary (R488) -/

/-- A waiting command completes. -/
def State.finishW (s : State) (w : Waiting) (status : Nat) (res : List Byte) : State := s.finish w.board w.slot status res

/-- Orders a restore of a retained snapshot at a boundary (R454). -/
def State.restoreAt (s : State) (number : Nat) : Ans :=
  match ((s.job.snaps.filter (fun k => k.taken && (number == 0 || k.number == number))).getLast?) with
  | none => s.done 0xA
  | some k => (((s.contain).want 2).onJob (fun j => { j with st := 2, restoreNo := number })).okWith (leBytes 8 k.step)

/-- What a command that waits for a boundary does once the job is over: it needs the job no more, or ends with WRONG_STATE. -/
def State.lateW (s : State) (w : Waiting) : State :=
  if w.code = 0x401 then (s.mapOut (s.arg w.board w.slot 0x10 1) (s.arg w.board w.slot 0x11 1)).finishW w 0 []
  else if w.code = 0x502 then (s.retake (s.arg w.board w.slot 0x10 1)).finishW w 0 []
  else if w.code = 0x903 then { s with handover := some s.time, handCmd := some (w.board, w.slot) }
  else s.finishW w 5 []

/-- Every command that waits for a boundary of a job that has ended. -/
def State.flushWaiting (s : State) : State :=
  forAll s.job.atBoundary (fun w s => s.lateW w) (s.onJob (fun j => { j with atBoundary := [] }))

/-- Performs a command that has waited for the boundary; a requested map-out goes on waiting for its snapshot. -/
def State.atStep (s : State) (w : Waiting) : State :=
  let fin := fun (a : Ans) => match a with
    | (t, some r) => t.finishW w r.1 r.2
    | (t, none) => t
  if s.job.st ≠ 2 ∧ s.job.st ≠ 3 then s.lateW w
  else match w.code with
    | 0x101 => fin (s.loadNow w.board w.slot 0x101 w.data)
    | 0x107 => fin (s.loadNow w.board w.slot 0x107 w.data)
    | 0x103 =>
      if s.job.st = 3 then s.finishW w 1 []
      else ((s.holdAll 15 3).onJob (fun j => { j with st := 3, holding := true })).finishW w 0 (leBytes 8 s.job.step)
    | 0x106 => (s.endJob).finishW w 0 s.stopResult
    | 0x401 => s.onJob (fun j => { j with atBoundary := j.atBoundary ++ [w] })
    | 0x502 => (s.retake (s.arg w.board w.slot 0x10 1)).finishW w 0 []
    | 0x701 => ((s.onJob (fun j => { j with snapDue := true })).startSnap).finishW w 0 (leBytes 4 s.job.snapNext)
    | 0x702 => fin (s.restoreAt (s.arg w.board w.slot 0x10 4))
    | _ => { s with handover := some s.time, handCmd := some (w.board, w.slot) }

/-- The map-outs that registers request, of channels that are still healthy: (bay, channel) (R403). -/
def State.mapRequests (s : State) : List (Nat × Nat) :=
  ((List.range 60).filter s.bayUp).flatMap (fun b =>
    let r := (s.reg (hubReg b 0x408) &&& s.reg (hubReg b 0x404)).toNat
    ((List.range 32).filter (bit r)).map (fun c => (b, c)))

/-- The requested map-outs are performed after the boundary's snapshot has been taken: the bays' zeroed contents come back by a restore,
and no step is lost (R403). -/
def State.mapRequested (s : State) (req : List (Nat × Nat)) : State :=
  let s := forAll req (fun e s => s.mapOut e.1 e.2) s
  let ws := s.job.atBoundary.filter (fun w => w.code == 0x401)
  let s := forAll ws (fun w s => s.finishW w 0 []) (s.onJob (fun j => { j with atBoundary := j.atBoundary.filter (fun w => w.code != 0x401) }))
  s.seekPlace true []

/-- The boundary goes on: a live change hands over, a handover or a restore is awaited, requested map-outs wait for their snapshot, an
alternate is loaded, and the next step's attempt begins (R61, R403, R482, R539). -/
def State.goOn (s : State) : State :=
  if s.job.st ≠ 2 ∨ !s.job.between ∨ s.job.need = 2 ∨ s.job.restoring.isSome then s
  else if s.liveOrder = 3 ∧ !s.inContinuity then s.liveHandover
  else if s.handover.isSome ∧ !(s.liveOrder = 4 ∧ s.inContinuity) then s
  else
    let req := s.mapRequests
    if !req.isEmpty then
      if s.job.snaps.any (fun k => k.taken && k.step == s.job.step) then s.mapRequested req
      else if s.job.snaps.any (fun k => !k.taken) then s
      else s.takeSnap
    else
      let s := forAll (s.job.atBoundary.filter (fun w => w.code == 0x401)) (fun w s => s.finishW w 1 [])
        (s.onJob (fun j => { j with atBoundary := j.atBoundary.filter (fun w => w.code != 0x401) }))
      let s := match s.job.nextLoad with
        | some m => (s.install m true).onJob (fun j => { j with nextLoad := none })
        | none => s
      s.beginAttempt false

/-! ## STEP_BOUNDARY (R61) -/

/-- Whether a core and its stored role have come to the end of the step with their exports gone (R201). -/
def Core.atEnd (c : Core) : Bool :=
  c.endHold && c.exports.isEmpty && (match c.stored with
    | some k => k.endHold && k.exports.isEmpty
    | none => true)

/-- Whether every core with a role has ended the step; after a commit a stopped core has nothing left to give. -/
def State.coresDone (s : State) : Bool :=
  s.cores.all (fun e => e.2.roles.isEmpty || !s.coreUp e.1 || e.2.atEnd || (s.job.committed && !s.running e.1))

/-- Whether the gradient formats of the next step have been selected, where a group selects them (R311). -/
def State.formatsDone (s : State) : Bool := match s.job.loaded with
  | some m => s.job.formatDone || !m.groups.any (fun t => bit t.flags 3)
  | none => false

/-- Whether the attempt has ended: committed or entered into the ledger, its losses compared, every core in its ENDSTEP. -/
def State.attemptOver (s : State) : Bool :=
  s.stepOver && s.job.lossOk && s.formatsDone && s.coresDone && s.job.need == 0 && s.job.restoring.isNone

/-- The boundary itself: loss records go out and stand for the step (log entry 41), the step counter rises, TIME_OUT marks it, what waited is
performed, and a due snapshot starts. -/
def State.boundary (s : State) : State :=
  let s := (s.sendLosses).markPulse
  let s := s.onJob (fun j =>
    { j with lossAtt := if SMap.get 0 j.lossAtt j.step = 0 then SMap.set 0 j.lossAtt j.step (j.attempt + 1) else j.lossAtt,
             lostIn := j.lostIn.filter (fun e => decide (j.step < e.1)), step := j.step + 1, between := true, crossing := none, committed := true })
  let ws := s.job.atBoundary
  let s := forAll ws (fun w s => s.atStep w) (s.onJob (fun j => { j with atBoundary := [] }))
  if s.job.st = 0 then (s.flushWaiting).livePoint
  else if (s.job.st ≠ 2 ∧ s.job.st ≠ 3) ∨ s.job.need ≠ 0 then s.livePoint
  else if s.job.st = 3 then (s.startSnap).livePoint
  else (s.startSnap).goOn

/-- An aborted step starts again as its next attempt (R317). -/
def State.replayNow (s : State) : State :=
  let s := s.mapOutFailed
  if s.job.st ≠ 2 ∨ s.job.need = 2 then s
  else
    let s := match s.job.nextLoad with
      | some m => (s.install m true).onJob (fun j => { j with nextLoad := none })
      | none => s
    s.beginAttempt true

/-- Whether a ledger-only step is held once its objects are done (R282). -/
def State.ledgerHeld (s : State) : Bool :=
  !s.applies && !s.job.aborted && !s.job.committed && s.job.crossing == some 1 && s.objectsDone && s.backwardIssued && s.stepHeld

/-- STEP_BOUNDARY. -/
def stepBoundary (s : State) : State :=
  if s.active.isNone ∨ s.job.st ≠ 2 then s
  else if s.job.between then s.goOn
  else if s.job.need = 1 ∧ s.job.restoring.isNone then s.replayNow
  else if s.ledgerHeld then s.holdStepNow
  else if s.attemptOver then s.boundary
  else s

/-- STEP_BOUNDARY. -/
def execStepBoundary (s : State) : Res := mpRow stepBoundary s

/-! ## JOB commands (R490 to R492) -/

/-- The host's bytes of a command's length, or the status DMA_ERROR. -/
def hostBytes (data : Option (List Byte)) (n : Nat) : Option (List Byte) := match data with
  | some d => if d.length < n then none else some (d.take n)
  | none => none

/-- JOB_LOAD: at once with no job running, at a boundary or in a halted job; else at the next boundary (R61, R491). -/
def jobLoad (b k : Nat) (data : Option (List Byte)) (s : State) : Ans :=
  let n := s.arg b k 0x18 8
  if 8 * 2 ^ 30 < n then s.done 4
  else match hostBytes data n with
    | none => s.done 7
    | some d => if [0, 1, 3, 6].contains s.job.st ∨ (s.job.st = 2 ∧ s.job.between) then s.loadNow b k 0x101 d else s.await b k d

/-- JOB_LOAD. -/
def execJobLoad (b n : Nat) (data : Option (List Byte)) (s : State) : Res := cmd b n 0x101 (jobLoad b n data) s

/-- JOB_ALTERNATE: a waiting job that it fits goes on with it, and is restored unless it is MAP_PRESERVING (R443); a running one takes it at
the next boundary. -/
def jobAlternate (b k : Nat) (data : Option (List Byte)) (s : State) : Ans :=
  let n := s.arg b k 0x18 8
  if 8 * 2 ^ 30 < n then s.done 4
  else match hostBytes data n with
    | none => s.done 7
    | some d =>
      if s.job.st = 5 then
        (match s.checkLoad b k 0x107 d with
         | .error e => s.done e
         | .ok m =>
           let s := if keepsMap m.man m.alt ∨ s.job.attemptTop.isEmpty then s else s.want 2
           let s := (s.latencyCheck m.man).onJob (fun j => { j with st := 2, nextLoad := some m })
           (if s.job.between then s.goOn else s).okWith (loadResult m))
      else if s.job.st = 0 then s.done 5
      else if s.job.st = 1 ∨ s.job.st = 3 ∨ (s.job.st = 2 ∧ s.job.between) then s.loadNow b k 0x107 d
      else s.await b k d

/-- JOB_ALTERNATE. -/
def execJobAlternate (b n : Nat) (data : Option (List Byte)) (s : State) : Res := cmd b n 0x107 (jobAlternate b n data) s

/-- The carry list: entries of an address and a length, multiples of 64 KiB within one bay's range (R490). -/
def carryOf (n : Nat) (d : List Byte) : List (Nat × Nat) := (List.range n).map (fun i => (num d (16 * i) 8 % 2 ^ 42, num d (16 * i + 8) 8))

/-- Whether a carry list is admissible beside the loaded manifest: its ranges and the resident data leave every bay its reserve (R31, R399,
log entry 41). -/
def State.carryOk (s : State) (m : Loaded) (c : List (Nat × Nat)) : Bool :=
  c.all (fun e => e.1 % 65536 == 0 && e.2 % 65536 == 0) && (s.onJob (fun j => { j with carry := c })).residentOk m.man (m.man.effective m.alt)

/-- Writes the job settings that the arguments of JOB_START in mailbox k give into the module (R502): NAN_POLICY, EPI_RETRY_STEP, P1, P2,
PLANK_VERSION, the format table and the job pace; the match tables and slot counters start afresh (R122, R212, R258, R283, R309, R350). -/
def State.jobSettings (s : State) (m : Loaded) (k policy epi pace version : Nat) : State :=
  let s := upTo 8 (fun l s => s.fldBy (8 + k) (landReg l 0x500) 1 0 policy) s
  let s := if epi = 0 then s else upTo 2880 (fun p s => s.fldBy (8 + k) (coreReg p 1 0x10) 3 0 epi) s
  let s := match m.micro with
    | some u => upTo 8 (fun l s => (s.regBy (8 + k) (landReg l 0x604) (BitVec.ofNat 32 u.p1Init)).regBy (8 + k) (landReg l 0x608)
      (BitVec.ofNat 32 u.p2Init)) s
    | none => s
  let s := forAll m.place (fun e s => s.onCore e.2 (fun c => { c with dtab := [] })) s
  let s := upTo 60 (fun b s => s.onBay b (fun y => { y with slot := 0 })) s
  let s := s.writeVersion (8 + k) version
  let s := m.groups.zipIdx.foldl (fun s g =>
    s.writeFmt (8 + k) g.2 (fmtEntry g.1.initCode (clampTo (-127) 127 (14 - g.1.initERef)) g.1.initERef s.job.step)) s
  s.setJobPace pace

/-- The first attempt of a job begins. Where cores, bays or both landings of a pair have been lost since the load, the manifest and its
alternates are evaluated anew under R59 first; with none that fits the job waits for an alternate (R22, R443). -/
def State.firstAttempt (s : State) : State :=
  if s.rolesPlaced && s.rowsServed then s.beginAttempt true
  else match s.job.loaded.bind (fun m => (s.chooseAlt m.man).map (fun x => loadedOf m.man x.1 x.2)) with
    | some m => (s.install m true).beginAttempt true
    | none => (s.askAlternate (s.lostCores ++ s.deadPairs)).onJob (fun j => { j with between := true, committed := true })

/-- JOB_START: the loaded manifest starts at the named step and version, with its first snapshot due (R33, R449). -/
def jobStart (b k : Nat) (data : Option (List Byte)) (s : State) : Ans :=
  let a := fun (o n : Nat) => s.arg b k o n
  let n := a 0x40 4
  match s.job.loaded with
  | none => s.done 5
  | some m =>
    if s.job.st ≠ 1 then s.done 5
    else if 3 < a 0x32 1 ∨ 15 < a 0x33 1 ∨ 3 < a 0x34 1 ∨ 4096 < n then s.done 4
    else match (if n = 0 then some [] else hostBytes data (16 * n)) with
      | none => s.done 7
      | some d =>
        let c := carryOf n d
        if !s.carryOk m c then s.done 4
        else
          let step := a 0x20 8
          let s := s.onJob (fun j =>
            { st := 2, step := step, firstStep := step, inputPos := a 0x28 8, version := a 0x30 2, seedLo := a 0x10 8, seedHi := a 0x18 8,
              jobPace := a 0x34 1, carry := c, loaded := j.loaded, lostIn := j.lostIn, lastSnapStep := step, snapDue := true,
              askLog := decide (step ≠ 0), atBoundary := j.atBoundary, overwritten := j.overwritten, lostPlanks := j.lostPlanks })
          let s := (s.jobSettings m k (a 0x32 1) (a 0x33 1) (a 0x34 1) (a 0x30 2)).raise 0x0101 []
          ((s.startSnap).firstAttempt).done 0

/-- JOB_START. -/
def execJobStart (b n : Nat) (data : Option (List Byte)) (s : State) : Res := cmd b n 0x102 (jobStart b n data) s

/-- JOB_HOLD. -/
def jobHold (b k : Nat) (s : State) : Ans :=
  if s.job.st ≠ 2 then s.done 5
  else if s.job.between then ((s.holdAll 15 3).onJob (fun j => { j with st := 3, holding := true })).okWith (leBytes 8 s.job.step)
  else s.await b k

/-- JOB_HOLD. -/
def execJobHold (b n : Nat) (s : State) : Res := cmd b n 0x103 (jobHold b n) s

/-- JOB_RELEASE: the job goes on with the step it was held before. -/
def jobRelease (_b _k : Nat) (s : State) : Ans :=
  if s.job.st ≠ 3 then s.done 5 else ((s.onJob (fun j => { j with st := 2, holding := false })).goOn).done 0

/-- JOB_RELEASE. -/
def execJobRelease (b n : Nat) (s : State) : Res := cmd b n 0x104 (jobRelease b n) s

/-- JOB_DIRECT: 0 replays the held step, 1 with a new NAN_POLICY, 2 restores; a held ledger-only step, and one that a loss has meanwhile
made unreplayable, is restored (R492). -/
def jobDirect (b k : Nat) (s : State) : Ans :=
  let act := s.arg b k 0x10 1
  let pol := s.arg b k 0x11 1
  if 2 < act ∨ 3 < pol then s.done 4
  else if s.job.st ≠ 4 ∧ (s.job.st ≠ 6 ∨ act ≠ 2) then s.done 5
  else
    let n := leBytes 4 (SMap.get 0 s.job.attemptTop s.job.step)
    let s := if act = 1 then upTo 8 (fun l s => s.fldBy (8 + k) (landReg l 0x500) 1 0 pol) s else s
    if act = 2 ∨ !s.applies ∨ s.job.need = 2 then
      (s.onJob (fun j => { j with st := 2, need := 2, restoreNo := 0 })).okWith n
    else if s.job.nextLoad.isSome then ((s.onJob (fun j => { j with st := 2 })).want 1).okWith n
    else (s.beginAttempt true).okWith n

/-- JOB_DIRECT. -/
def execJobDirect (b n : Nat) (s : State) : Res := cmd b n 0x105 (jobDirect b n) s

/-- JOB_STOP: at the boundary, or at once with NOW or with no attempt open. -/
def jobStop (b k : Nat) (s : State) : Ans :=
  let now := s.arg b k 0x10 1
  if 1 < now then s.done 4
  else if s.job.st < 2 then s.done 5
  else if s.job.st = 2 ∧ !s.job.between ∧ now = 0 then s.await b k
  else
    let s := if s.job.between then s else s.abortAttempt
    ((s.endJob.flushWaiting).livePoint).okWith s.stopResult

/-- JOB_STOP. -/
def execJobStop (b n : Nat) (s : State) : Res := cmd b n 0x106 (jobStop b n) s

/-! ## Landing and snapshot commands at a boundary -/

/-- LANDING_RETAKE: at the next step boundary, or at once with no attempt open. -/
def landingRetake (b k : Nat) (s : State) : Ans :=
  let l := s.arg b k 0x10 1
  if 8 ≤ l then s.done 4
  else if !bit (s.reg (landReg l 4)).toNat 17 then s.done 5
  else if s.noAttempt then (s.retake l).done 0
  else s.await b k

/-- LANDING_RETAKE. -/
def execLandingRetake (b n : Nat) (s : State) : Res := cmd b n 0x502 (landingRetake b n) s

/-- SNAP_NOW. -/
def snapNow (b k : Nat) (s : State) : Ans :=
  if s.job.st = 3 ∨ (s.job.st = 2 ∧ s.job.between) then
    ((s.onJob (fun j => { j with snapDue := true })).startSnap).okWith (leBytes 4 s.job.snapNext)
  else if s.job.st = 2 then s.await b k
  else s.done 5

/-- SNAP_NOW. -/
def execSnapNow (b n : Nat) (s : State) : Res := cmd b n 0x701 (snapNow b n) s

/-- SNAP_RESTORE. -/
def snapRestore (b k : Nat) (s : State) : Ans :=
  let n := s.arg b k 0x10 4
  if s.job.st ≠ 2 ∧ s.job.st ≠ 3 then s.done 5
  else if !s.job.snaps.any (fun x => x.taken && (n == 0 || x.number == n)) then s.done 0xA
  else if s.noAttempt then s.restoreAt n
  else s.await b k

/-- SNAP_RESTORE. -/
def execSnapRestore (b n : Nat) (s : State) : Res := cmd b n 0x702 (snapRestore b n) s

end Sys2Proof.Machine
end

