-- ==== Sys2Proof/Machine/Bar.lean ====
section
/-! DEFINITION. Host accesses through the BARs of a board, and the SMBus (R484, R485, R495 to R497, R551, Tables 19.3, 19.4 and 22.8). -/

namespace Sys2Proof.Machine

/-! ## BAR0 (Table 19.4) -/

/-- A BAR0 register word as a read shows it. -/
def State.bar0Word (s : State) (b off : Nat) : W32 :=
  if off < 0x4000 then BitVec.ofNat 32 (Mem.readNat (s.board b).mbx off 4)
  else if off = 0x6000 then
    let peer := s.board (1 - b)
    BitVec.ofNat 32 (b2n (s.active = some b) + 2 * b2n peer.present + 4 * b2n (peer.present && peer.ready) + 8 * (s.board b).slotRun +
      16 * b2n (s.board b).fwInvalid + 256 * s.bfld b 0x6000 15 8)
  else if off = 0x600C then BitVec.ofNat 32 (s.time / 100000)
  else if [0x5000, 0x5004, 0x5008, 0x500C, 0x5010, 0x5018, 0x501C, 0x5020, 0x6004, 0x6008, 0x9000].contains off ∨ (0x8000 ≤ off ∧ off < 0x8020) then
    s.breg b off
  else 0

/-- What a read of a BAR0 word clears: EVQ_LOST and HOST_ERR are RC. -/
def State.bar0Clear (s : State) (b off : Nat) : State :=
  if off = 0x6000 ∨ off = 0x6008 then s.setBreg b off 0 else s

/-- A read of n bytes of BAR0, word by word. -/
def State.bar0Read (s : State) (b off n : Nat) : List Byte × State :=
  let ws := (List.range (ceilDiv (off % 4 + n) 4)).map (fun i => off / 4 * 4 + 4 * i)
  ((((ws.flatMap (fun w => leBytes 4 (s.bar0Word b w).toNat)).drop (off % 4)).take n), forAll ws (fun w s => s.bar0Clear b w) s)

/-- A write of an MSI-X table word: an entry that is unmasked sends its pending message. -/
def State.msixWrite (s : State) (b off : Nat) (v : W32) : State :=
  let s := s.setBreg b off v
  let vec := (off - 0x8000) / 16
  if off % 16 = 12 ∧ !bit v.toNat 0 ∧ bit (s.breg b 0x9000).toNat vec then
    (s.setBreg b 0x9000 (setField (s.breg b 0x9000) vec vec 0)).sendMsi b vec
  else s

/-- A 4-byte write of a BAR0 register outside the mailboxes. -/
def State.bar0Put (s : State) (b off : Nat) (v : W32) : State :=
  if 0x4000 ≤ off ∧ off < 0x4100 then doorbell b ((off - 0x4000) / 4) s
  else if off = 0x5000 then s.setBreg b off (v &&& 0xFFFFF000)
  else if off = 0x5008 then evqCtrl b v s
  else if off = 0x5010 then evqCons b v s
  else if off = 0x5018 then s.setBreg b off (v &&& 0xFFFFFFF8)
  else if off = 0x5004 ∨ off = 0x501C ∨ off = 0x5020 then s.setBreg b off v
  else if off = 0x6004 then s.setBreg b off (v &&& 0x3F)
  else if 0x8000 ≤ off ∧ off < 0x8020 then s.msixWrite b off v
  else s

/-- A write to BAR0: the mailboxes take any bytes, the registers whole words. -/
def State.bar0Write (s : State) (b off : Nat) (bs : List Byte) : State :=
  if off < 0x4000 then mailboxWrite b off bs s
  else if off % 4 ≠ 0 then s
  else forAll (chunks 4 (bs.length / 4) bs).zipIdx (fun c s => s.bar0Put b (off + 4 * c.2) (BitVec.ofNat 32 (leNat c.1))) s

/-! ## BAR2 and BAR4 (R485) -/

/-- The CN master of a board's BAR2 and BAR4 accesses. -/
def State.barMaster (s : State) (b : Nat) : Nat := 8 + s.bfld b 0x6004 5 0

/-- An access that decodes to nothing is counted, and HOST_RANGE is raised at most once a second. -/
def State.rangeError (s : State) (b : Nat) : State :=
  let s := s.bumpB b 0x6008 15 0
  let free := match (s.board b).rangeAt with
    | none => true
    | some t => decide (t + 100000000 ≤ s.time)
  if free then (s.onBoard b (fun y => { y with rangeAt := some s.time })).raise 0x0805 [] else s

/-- One CN access of 4 or 8 bytes of a BAR4 access at BAR offset a: the data, whether it decoded, and the state. -/
def State.bar4Unit (s : State) (b a n : Nat) (wr : Option (List Byte)) : List Byte × Bool × State :=
  let zero := List.replicate n (0 : Byte)
  if a < 4 * 2 ^ 40 then
    if !s.stackOk a n then (zero, false, s)
    else match wr with
      | some d => ([], true, s.hubWrite (s.barMaster b) a d)
      | none => (Mem.read s.stack a n, true, s.hubCount 0 a n)
  else if a < 4 * 2 ^ 40 + 60 * 2 ^ 30 then
    let o := a - 4 * 2 ^ 40
    if 48 ≤ o / 2 ^ 24 % 64 ∨ 14 * 2 ^ 20 + 262144 < o % 2 ^ 24 + n then (zero, false, s)
    else
      let r := s.pagedAccess (s.barMaster b) (o / 2 ^ 30 * 48 + o / 2 ^ 24 % 64) (o % 2 ^ 24) n (wr.map leNat)
      (if r.1.err then zero else r.1.data, !r.1.err, r.2)
  else
    let o := a - 6 * 2 ^ 40
    if a < 6 * 2 ^ 40 ∨ 8 * 2 ^ 30 < o + n then (zero, false, s)
    else match wr with
      | some d => ([], true, s.onBoard b (fun y => { y with lpddr := Mem.write y.lpddr o d, mpBad := true }))
      | none => (Mem.read (s.board b).lpddr o n, true, s)

/-- A BAR4 access of size bytes: aligned, 4 bytes to 4 KiB, in CN accesses of 8 bytes, or 4 for a 4-byte one, in address order. A stack
access that the hub holds waits there; a read shows its data once it is performed (R403, R412, log entry 41). -/
def State.bar4 (s : State) (b off size : Nat) (wr : Option (List Byte)) : ReadBack × State :=
  let u := if size = 4 then 4 else 8
  let bay := off / 2 ^ 36
  if size = 0 ∨ size % u ≠ 0 ∨ 4096 < size ∨ off % u ≠ 0 ∨ 4096 < off % 4096 + size then ({ data := List.replicate size 0 }, s.rangeError b)
  else if off < 4 * 2 ^ 40 ∧ s.stackOk off size ∧ s.hubHolds bay then
    match wr with
    | some d => ({}, s.hubWrite (s.barMaster b) off d)
    | none => ({}, s.hubQueue bay { core := s.barMaster b, wr := false, addr := off, spad := size, data := [], kind := 2 })
  else
    let r := (List.range (size / u)).foldl (fun (x : List Byte × Bool × State) i =>
      let y := x.2.2.bar4Unit b (off + u * i) u (wr.map (fun d => (d.drop (u * i)).take u))
      (x.1 ++ y.1, x.2.1 && y.2.1, y.2.2)) ([], true, s)
    ({ data := r.1 }, if r.2.1 then r.2.2 else r.2.2.rangeError b)

/-- A BAR2 access of 4 or 8 aligned bytes of the register space. -/
def State.bar2 (s : State) (b off size : Nat) (wr : Option (List Byte)) : ReadBack × State :=
  let none_ : ReadBack := { data := List.replicate size 0 }
  if (size ≠ 4 ∧ size ≠ 8) ∨ off % size ≠ 0 ∨ 2 ^ 32 ≤ off then (none_, s.rangeError b)
  else match wr with
    | some d =>
      let x := s.waferWrite (s.barMaster b) off size (leNat d)
      ({}, if x.1 then x.2.rangeError b else x.2)
    | none =>
      let x := s.waferRead (s.barMaster b) off size
      if x.1.err then (none_, x.2.rangeError b) else (x.1, x.2)

/-- BAR_ACCESS: a host access of size bytes through a BAR of a board; rw tells a write, whose bytes are data. -/
def barAccess (b bar off : Nat) (rw : Bool) (size : Nat) (data : List Byte) (s : State) : State :=
  if !s.boardOn b then { s with back := { err := true } }
  else
    let d := data.take size ++ List.replicate (size - data.length) 0
    let wr := if rw then some d else none
    let r : ReadBack × State := match bar, rw with
      | 0, true => ({}, s.bar0Write b off d)
      | 0, false => let x := s.bar0Read b off size; ({ data := x.1 }, x.2)
      | 2, _ => s.bar2 b off size wr
      | _, _ => s.bar4 b off size wr
    { r.2 with back := r.1 }

/-- BAR_ACCESS: a board has BAR0, BAR2 and BAR4 (Table 19.3). -/
def execBarAccess (b bar off : Nat) (rw : Bool) (size : Nat) (data : List Byte) (s : State) : Res :=
  if 2 ≤ b ∨ (bar ≠ 0 ∧ bar ≠ 2 ∧ bar ≠ 4) then .refused .noSuchUnit
  else if rw ∧ bar = 0 ∧ 0x4000 ≤ off ∧ off < 0x4100 then mpRow (barAccess b bar off rw size data) s
  else .next (barAccess b bar off rw size data s)

/-! ## SMBus (R551, Table 22.8) -/

/-- Bytes of the module identity (Table 20.8). -/
def State.identityBytes (s : State) : List Byte := (List.range 3).flatMap (fun i => leBytes 4 (s.reg (mkAddr 63 0 6 (4 * i))).toNat)

/-- The byte at an SMBus offset. -/
def State.smbByte (s : State) (b off : Nat) : Nat :=
  let cool := (s.reg (gloReg 0x608)).toNat
  let pow := (s.reg (gloReg 0x600)).toNat
  let w100 := (pow % 65536 + pow / 65536) / 100
  if off = 0 then
    b2n (s.active = some b) + 2 * b2n s.readyUp + 4 * b2n (s.alertCause b ≠ 0) + 8 * s.job.st
  else if off = 1 then s.alertCause b
  else if 0x10 ≤ off ∧ off < 0x1C then (s.identityBytes.getD (off - 0x10) 0).toNat
  else if !(s.board b).booted then 0
  else match off with
    | 2 => bits cool 23 16
    | 3 => bits cool 31 24
    | 4 => bits cool 7 0
    | 5 => (((List.range 60).filter s.bayUp).map (fun y => s.fld (hubReg y 0x620) 7 0)).foldl max 0
    | 6 => w100 % 256
    | 7 => w100 / 256
    | _ => 0

/-- SMBUS_READ: a board answers from 2 s after 12 V is applied (R551). -/
def smbusRead (b off : Nat) (s : State) : State :=
  if (s.board b).present && s.inp.on12 && decide (200000000 ≤ s.inp.smbAge + s.time) then
    { s with back := { data := leBytes 1 (s.smbByte b off) } }
  else { s with back := { err := true } }

/-- SMBUS_READ. -/
def execSmbusRead (b off : Nat) (s : State) : Res := if 2 ≤ b then .refused .noSuchUnit else .next (smbusRead b off s)

end Sys2Proof.Machine
end

