-- ==== Sys2Proof/Machine/Bulk.lean ====
section
/-! DEFINITION. The bulk network's routers: routes, slots, classes, fences, multicast copies, link retry and link injection (R348 to R357,
R395). -/

namespace Sys2Proof.Machine

/-- The slot byte of output o at router p in the bay's current slot; firmware has written the ring's input into every slot of the directed
links of the landing ring route (R350, R356, Table 13.6). -/
def State.slotByte (s : State) (p o slot : Nat) : Nat := match ringOutput p with
  | some (r, i) => if r = o then 0x80 + i else s.rtrByte p (0x1000 + 256 * o + slot % 256)
  | none => s.rtrByte p (0x1000 + 256 * o + slot % 256)

/-- Whether any slot of output o is owned by input i for traffic other than the ring's (R356). -/
def State.slotOwns (s : State) (p o i : Nat) : Bool :=
  (ringOutput p).all (fun r => r.1 != o) && (List.range 256).any (fun k => let b := s.slotByte p o k; bit b 7 && b % 8 == i)

/-- The outputs that a flit at input i of router p wants: for a slotted flit those whose tables give its input a slot, for a multicast
flit its group's mask, else one output. A slotted flit without a slot goes on as best-effort (R352, R355). -/
def State.wants (s : State) (p i : Nat) (f : Flit) : List Nat := match f.cls with
  | 0 =>
    let os := (List.range 5).filter (fun o => s.slotOwns p o i)
    if os.isEmpty then [dimRoute f.src p f.dst] else os
  | 1 => [dimRoute f.src p f.dst]
  | 3 => [s.escOut p f.dst]
  | _ => (List.range 5).filter (bit (s.rtrByte p (0x1500 + f.grp)))

/-- The targets of a multicast branch: the tree behind output o (R355). -/
def State.branchTargets (s : State) (p o g : Nat) : List Nat := match meshNbr p o with
  | some q => s.mcTargets g 112 q
  | none => []

/-- A flit whose chosen output is fenced changes to the escape class here; a multicast branch does so as one flit for each target behind
it (R353). -/
def State.escapeFlit (s : State) (p o : Nat) (f : Flit) : List Flit :=
  if f.cls = 2 ∨ f.cls = 4 then (s.branchTargets p o f.grp).map (fun t => { f with cls := 3, dst := t }) else [{ f with cls := 3 }]

/-- What is at the inputs of a router, best-effort from here on when its slots have ended, and escaped when its output is fenced, a slotted
flit when all of its outputs are; with the number of flits that escaped. -/
def State.normal (s : State) (p : Nat) (i : Nat) (fs : List Flit) : List Flit × Nat :=
  fs.foldl (fun (a : List Flit × Nat) f =>
    let f := if f.cls = 0 ∧ !((List.range 5).any (fun o => s.slotOwns p o i)) then { f with cls := 1 } else f
    match f.cls, s.wants p i f with
    | 0, os => if os.all (fun o => o != 0 && s.outFenced p o) then (a.1 ++ [{ f with cls := 3 }], a.2 + 1) else (a.1 ++ [f], a.2)
    | 3, _ => (a.1 ++ [f], a.2)
    | 2, _ => (a.1 ++ [f], a.2)
    | 4, _ => (a.1 ++ [f], a.2)
    | _, o :: _ => if o ≠ 0 ∧ s.outFenced p o then (a.1 ++ s.escapeFlit p o f, a.2 + 1) else (a.1 ++ [f], a.2)
    | _, [] => (a.1 ++ [f], a.2)) ([], 0)

/-- Held copies whose output has been fenced since escape (R353). -/
def State.escapeHeld (s : State) (p : Nat) : State :=
  let r := s.rtr p
  let out := r.held.filter (fun h => h.1 != 0 && s.outFenced p h.1)
  if out.isEmpty then s
  else (s.setRtr p { r with held := r.held.filter (fun h => !out.contains h),
                            inb := SMap.set [] r.inb 0 (SMap.get [] r.inb 0 ++ out.flatMap (fun h => s.escapeFlit p h.1 h.2)) }).bump
    (coreReg p 8 4) 15 0 out.length

/-- Takes what the local input has room for, normalises every input of a router and counts the escapes (R348, R353, Table 13.13). -/
def State.normalise (s : State) (p : Nat) : State :=
  let s := (s.setRtr p (s.rtr p).fillLocal).escapeHeld p
  (List.range 5).foldl (fun (s : State) i =>
    let r := s.rtr p
    let n := s.normal p i (SMap.get [] r.inb i)
    (s.setRtr p { r with inb := SMap.set [] r.inb i n.1 }).bump (coreReg p 8 4) 15 0 n.2) s

/-- The first flit of a buffer class at an input. -/
def Router.first (r : Router) (i cls : Nat) : Option Flit := (SMap.get [] r.inb i).find? (fun f => bufClass f.cls == cls)

/-- Takes a flit from an input. -/
def Router.take (r : Router) (i : Nat) (f : Flit) : Router := { r with inb := SMap.set [] r.inb i ((SMap.get [] r.inb i).erase f) }

/-- Whether output o of router p crosses from one bay to another (R395). -/
def stitched (p o : Nat) : Bool := match meshNbr p o with
  | some q => coreBay p != coreBay q
  | none => false

/-- The input port at the far end of output o. -/
def farPort (o : Nat) : Nat := match o with
  | 1 => 3
  | 2 => 4
  | 3 => 1
  | _ => 2

/-- Whether the far end of output o has room for a class. -/
def State.roomAt (s : State) (p o cls : Nat) : Bool := match o, meshNbr p o with
  | 0, _ => true
  | _, none => false
  | _, some q => decide ((s.rtr q).load (farPort o) cls < bufRoom cls)

/-- A flit reaches its core: its bytes are written and the sender's count for the target falls; a fenced core's flits are discarded and
counted (R190, R353). -/
def State.deliver (s : State) (p : Nat) (f : Flit) : State :=
  if bit (s.reg (coreReg p 8 0)).toNat 0 then s.bump (coreReg p 8 4) 23 16 1
  else
    let s := (s.onCore p (fun c => { c with spad := Mem.write c.spad f.addr f.data })).tally p 0x13 1
    s.onCore f.src (fun c => { c with xfers := c.xfers.map (fun x =>
      if x.kind = 4 ∧ x.msg = f.msg then { x with dsts := x.dsts.map (fun d => if d.1 = p then (d.1, d.2 - 1) else d) } else x) })

/-- A flit arrives at the far end of output o. -/
def State.hop (s : State) (p o : Nat) (f : Flit) : State := match o, meshNbr p o with
  | 0, _ => s.deliver p f
  | _, none => s
  | _, some q =>
    let r := s.rtr q
    let i := farPort o
    s.setRtr q { r with inb := SMap.set [] r.inb i (SMap.get [] r.inb i ++ [f]) }

/-- LINK_INJ of an output (Table 14.27). -/
def linkInj (p o : Nat) : Nat := coreReg p 8 (0x100 + 4 * o)

/-- Counts a flit on an injected link and tells whether the rule acts on it; a one-shot rule disarms. A reorder rule acts only where it can
(R394, R395). -/
def State.injectNow (s : State) (p o : Nat) (can : Bool) : Bool × State :=
  let w := (s.reg (linkInj p o)).toNat
  let can := can || bits w 2 1 != 2
  if !stitched p o ∨ !bit w 0 then (false, s)
  else if !bit w 3 then (if can then (true, s.setFld (linkInj p o) 0 0 0) else (false, s))
  else
    let n := SMap.get 0 (s.rtr p).inj o + 1
    let per := 1024 * max 1 (bits w 31 22)
    let r := s.rtr p
    let s := s.setRtr p { r with inj := SMap.set 0 r.inj o (n % per) }
    (n % per == 0 && can, s)

/-- Carries a flit over output o; hit tells that the link's rule acts on it: a dropped or corrupted flit fails its CRC-16 and waits in the
retry buffer, delay holds the link for its time (R395). -/
def State.carryFlit (s : State) (p o : Nat) (hit : Bool) (f : Flit) : State :=
  let w := (s.reg (linkInj p o)).toNat
  match hit, bits w 2 1 with
  | true, 3 =>
    let d := bits w 21 15
    let us := if d = 0 ∨ 64 < d then 64 else d
    let r := s.rtr p
    (s.setRtr p { r with delayed := SMap.set 0 r.delayed o (s.time + 100 * us) }).hop p o f
  | true, 2 => s.hop p o f
  | true, _ =>
    let r := s.rtr p
    s.setRtr p { r with retry := SMap.set [] r.retry o (SMap.get [] r.retry o ++ [f]) }
  | false, _ => s.hop p o f

/-- Whether two flits belong to one packet. -/
def Flit.mates (f g : Flit) : Bool := f.src == g.src && f.msg == g.msg && f.pkt == g.pkt

/-- The input buffer with the packet of its flit f exchanged with the adjacent one of its class, none where that packet is not there or
comes from the same source (R354, R395). -/
def exchanged (buf : List Flit) (f : Flit) : Option (List Flit) :=
  let same := buf.filter (fun g => bufClass g.cls == bufClass f.cls)
  match same.find? (fun g => !f.mates g) with
  | none => none
  | some g =>
    if g.src = f.src then none
    else
      let other := buf.filter (fun x => bufClass x.cls != bufClass f.cls)
      let rest := same.filter (fun x => !f.mates x && !g.mates x)
      some (other ++ same.filter g.mates ++ same.filter f.mates ++ rest)

/-- The input, round-robin from the one after the last served, whose first flit of a class wants output o. -/
def State.pick (s : State) (p o cls : Nat) : Option (Nat × Flit) :=
  let r := s.rtr p
  let last := SMap.get 0 r.rr (5 * o + cls)
  (List.range 5).findSome? (fun k =>
    let i := (last + 1 + k) % 5
    match r.first i cls with
    | some f => if f.cls = cls ∧ (s.wants p i f).contains o ∧ s.roomAt p o cls then some (i, f) else none
    | none => none)

/-- Sends the flit picked for a class from an input, under the link's injection rule, and moves the round robin on. Where a reorder rule acts
the packets are exchanged first (R395). -/
def State.sendFrom (s : State) (p o i cls : Nat) (f : Flit) : State :=
  let swap := (exchanged (SMap.get [] (s.rtr p).inb i) f).filter (fun b =>
    (b.find? (fun g => bufClass g.cls == bufClass f.cls)).any (fun g => (s.wants p i g).contains o))
  let hit := s.injectNow p o swap.isSome
  let s := hit.2
  let r := s.rtr p
  let x : Router × Flit := match hit.1 && bits (s.reg (linkInj p o)).toNat 2 1 == 2, swap with
    | true, some b => ({ r with inb := SMap.set [] r.inb i b }, (b.find? (fun g => bufClass g.cls == bufClass f.cls)).getD f)
    | _, _ => (r, f)
  (s.setRtr p { x.1.take i x.2 with rr := SMap.set 0 r.rr (5 * o + cls) i }).carryFlit p o hit.1 x.2

/-- Whether a flit is on a multicast tree. -/
def Flit.onTree (f : Flit) : Bool := f.cls == 2 || f.cls == 4

/-- Holds one copy of a tree flit for each output of its group's mask; the copy of a fenced output escapes (R353, R355). -/
def State.copyTree (s : State) (p i : Nat) (f : Flit) : State :=
  let os := s.wants p i f
  let r := (s.rtr p).take i f
  let esc := os.filter (fun o => o != 0 && s.outFenced p o)
  let keep := os.filter (fun o => !esc.contains o)
  let r := { r with held := r.held ++ keep.map (fun o => (o, { f with inp := i })),
                    inb := SMap.set [] r.inb i (SMap.get [] r.inb i ++ esc.flatMap (fun o => s.escapeFlit p o f)) }
  (s.setRtr p r).bump (coreReg p 8 4) 15 0 esc.length

/-- Whether a held copy may leave: no earlier one of its group waits for the output, since order per target is kept over both classes of a tree
(R355). -/
def Router.headOfGroup (r : Router) (h : Nat × Flit) : Bool := r.held.find? (fun k => k.1 == h.1 && k.2.grp == h.2.grp) == some h

/-- The oldest held copy for output o of a class from input i that may leave. -/
def Router.heldFrom (r : Router) (o cls i : Nat) : Option (Nat × Flit) :=
  r.held.find? (fun h => h.1 == o && h.2.cls == cls && h.2.inp == i && r.headOfGroup h)

/-- A held copy for output o of a class, round-robin over the inputs that the copies came in at, when the far end has room (R349, R355). -/
def State.heldFor (s : State) (p o cls : Nat) : Option (Nat × Flit) :=
  let r := s.rtr p
  let last := SMap.get 0 r.rr (5 * o + cls)
  if s.roomAt p o cls then (List.range 5).findSome? (fun k => r.heldFrom o cls ((last + 1 + k) % 5)) else none

/-- The escape flit that output o sends next, round-robin over the inputs: a held copy on a tree (true), or the input's first escape flit
(R349). -/
def State.pickEscape (s : State) (p o : Nat) : Option (Bool × Nat × Flit) :=
  let r := s.rtr p
  let last := SMap.get 0 r.rr (5 * o + 3)
  if !s.roomAt p o 3 then none
  else (List.range 5).findSome? (fun k =>
    let i := (last + 1 + k) % 5
    match r.heldFrom o 4 i, r.first i 3 with
    | some h, _ => some (true, i, h.2)
    | none, some f => if f.cls = 3 ∧ (s.wants p i f).contains o then some (false, i, f) else none
    | none, none => none)

/-- Sends a held copy of a class under the link's injection rule, and moves the round robin on. A reorder rule exchanges it with a copy of its
class from another source that waits for the output (R395). -/
def State.sendHeld (s : State) (p o cls : Nat) (h : Nat × Flit) : State :=
  let swap := (s.rtr p).held.find? (fun k => k.1 == o && bufClass k.2.cls == bufClass h.2.cls && k.2.src != h.2.src && (s.rtr p).headOfGroup k)
  let hit := s.injectNow p o swap.isSome
  let s := hit.2
  let x := if hit.1 && bits (s.reg (linkInj p o)).toNat 2 1 == 2 then swap.getD h else h
  let r := s.rtr p
  (s.setRtr p { r with held := r.held.erase x, rr := SMap.set 0 r.rr (5 * o + cls) x.2.inp }).carryFlit p o hit.1 { x.2 with inp := 0 }

/-- Expands the first tree flit of a class at each input that wants output o, none of whose copies waits for it, and that none of its group
stands before, into held copies. -/
def State.expand (s : State) (p o cls : Nat) : State :=
  upTo 5 (fun i s =>
    if (s.rtr p).held.any (fun h => h.1 == o && h.2.cls == cls && h.2.inp == i) then s
    else
      let buf := SMap.get [] (s.rtr p).inb i
      match buf.find? (fun f => f.cls == cls && buf.find? (fun g => g.onTree && g.grp == f.grp) == some f) with
      | some f => if (s.wants p i f).contains o then s.copyTree p i f else s
      | none => s) s

/-- The slotted flit of the slot's owner escapes at a fenced output (R353). -/
def State.escapeSlotted (s : State) (p i : Nat) (f : Flit) : State :=
  let r := s.rtr p
  let r := r.take i f
  (s.setRtr p { r with inb := SMap.set [] r.inb i (SMap.get [] r.inb i ++ [{ f with cls := 3 }]) }).bump (coreReg p 8 4) 15 0 1

/-- A router output sends one flit: the slotted flit of the slot's owner, else escape, multicast, best-effort in turn, each round-robin over the
inputs (R349). -/
def flitForward (p o : Nat) (s : State) : State :=
  let r := s.rtr p
  if (s.bay (coreBay p)).dark ∨ !(SMap.get [] r.retry o).isEmpty ∨ s.time < SMap.get 0 r.delayed o then s
  else
    let s := ((s.normalise p).expand p o 4).expand p o 2
    let b := s.slotByte p o (s.bay (coreBay p)).slot
    let owner := b % 8
    match (if bit b 7 then ((s.rtr p).first owner 0).filter (fun f => (s.wants p owner f).contains o) else none) with
    | some f =>
      if o ≠ 0 ∧ s.outFenced p o then s.escapeSlotted p owner f
      else if s.roomAt p o 0 then s.sendFrom p o owner 0 f else s
    | none =>
      match s.pickEscape p o with
      | some (true, _, f) => s.sendHeld p o 3 (o, f)
      | some (false, i, f) => s.sendFrom p o i 3 f
      | none =>
        match s.heldFor p o 2 with
        | some h => s.sendHeld p o 2 h
        | none =>
          match s.pick p o 1 with
          | some (i, f) => s.sendFrom p o i 1 f
          | none => s

/-- FLIT_FORWARD. -/
def execFlitForward (p o : Nat) (s : State) : Res :=
  if 2880 ≤ p ∨ 5 ≤ o then .refused .noSuchUnit else .next (flitForward p o s)

/-- A copy held for 64 clk at output o goes on, on the same tree, in the escape class (R355). -/
def multicastEscape (p o : Nat) (s : State) : State :=
  let r := s.rtr p
  match r.held.find? (fun h => h.1 == o && h.2.cls == 2) with
  | none => s
  | some h =>
    (s.setRtr p { r with held := r.held.map (fun x => if x == h then (x.1, { x.2 with cls := 4 }) else x) }).bump (coreReg p 8 4) 15 0 1

/-- MULTICAST_ESCAPE. -/
def execMulticastEscape (p o : Nat) (s : State) : Res :=
  if 2880 ≤ p ∨ 5 ≤ o then .refused .noSuchUnit else .next (multicastEscape p o s)

/-- A stitched link resends the flit that failed its CRC (R395). -/
def linkRetry (p o : Nat) (s : State) : State :=
  let r := s.rtr p
  match SMap.get [] r.retry o with
  | [] => s
  | f :: fs => if s.roomAt p o f.cls then (s.setRtr p { r with retry := SMap.set [] r.retry o fs }).hop p o f else s

/-! ## The landing ring (R356, R357) -/

/-- The routers and outputs of the ring route from router p to router q (Table 13.7). -/
def ringPath (q : Nat) : Nat → Nat → List (Nat × Nat)
  | 0, _ => []
  | k + 1, p => match ringOutput p with
    | none => []
    | some (o, _) => if p = q then [] else (p, o) :: (match meshNbr p o with
      | some n => ringPath q k n
      | none => [])

/-- A ring flit crosses a link of its route under the link's injection rule: a failed flit is resent and a delay holds the link (R356, R395). -/
def State.ringLink (s : State) (x : Nat × Nat) : State :=
  let hit := s.injectNow x.1 x.2 false
  let w := (hit.2.reg (linkInj x.1 x.2)).toNat
  if hit.1 && bits w 2 1 == 3 then
    let d := bits w 21 15
    let r := hit.2.rtr x.1
    hit.2.setRtr x.1 { r with delayed := SMap.set 0 r.delayed x.2 (s.time + 100 * (if d = 0 ∨ 64 < d then 64 else d)) }
  else hit.2

/-- Flits of a ring group that leave landing l for landing n cross the links of its route; at the first fenced output they change to the
escape class, which the router there counts, and go round (R353, R356, R357). -/
def State.ringCarry (s : State) (l n flits : Nat) : State :=
  let path := ringPath (snNode (2880 + n)) 220 (snNode (2880 + l))
  let clear := path.takeWhile (fun x => !s.outFenced x.1 x.2)
  let s := forAll (clear.filter (fun x => stitched x.1 x.2)) (fun x s => upTo flits (fun _ s => s.ringLink x) s) s
  match path[clear.length]? with
  | some (p, _) => s.bump (coreReg p 8 4) 15 0 flits
  | none => s

/-- Whether a link of the ring route from landing l is held by a delay rule (R395). -/
def State.ringHeld (s : State) (l : Nat) : Bool :=
  s.routers.any (fun e => !e.2.delayed.isEmpty) &&
  (ringPath (snNode (2880 + s.ringAfter l)) 220 (snNode (2880 + l))).any (fun x => decide (s.time < SMap.get 0 (s.rtr x.1).delayed x.2))

/-- RING_GROUP_FORWARD: the group is added and, where it went on, carried over the ring's links: 16 flits and its escape blocks (R276). -/
def ringGroup (l obj g : Nat) (s : State) : State :=
  if s.ringHeld l then s else
  let t := ringGroupForward l obj g s
  let n := s.ringAfter l
  match s.objEntry obj with
  | none => t
  | some e =>
    match (t.land n).rslots.find? (fun r => r.plank == e.plank) with
    | none => t
    | some q =>
      let was := ((s.land n).rslots.find? (fun r => r.plank == e.plank)).any (fun r => r.ringG.contains g)
      if was ∨ !q.ringG.contains g then t
      else t.ringCarry l n (16 + ((chunks 16 17 (groupVals q.ring g)).map escBlocks).sum)

/-- RING_GROUP_FORWARD. -/
def execRingGroupForward (l obj g : Nat) (s : State) : Res := landEvent l (ringGroup l obj g) s

/-- LINK_RETRY. -/
def execLinkRetry (p o : Nat) (s : State) : Res := if 2880 ≤ p ∨ 5 ≤ o then .refused .noSuchUnit else .next (linkRetry p o s)

end Sys2Proof.Machine
end

