-- ==== Sys2Proof/Machine/Dispatch.lean ====
section
/-! DEFINITION. One arm per command; each arm is one direct call of that command's meaning. -/

namespace Sys2Proof.Machine

/-- The effect of a command on everything but the queue. -/
def exec (i : Instr) (s : State) : Host.Outcome State Fault Refusal :=
  match i with
  | .lds p h f => Sys2Proof.Machine.execLds p h f s
  | .ldst p h f => Sys2Proof.Machine.execLdst p h f s
  | .strm p h f => Sys2Proof.Machine.execStrm p h f s
  | .strd p h f => Sys2Proof.Machine.execStrd p h f s
  | .epi p h f => Sys2Proof.Machine.execEpi p h f s
  | .sclr p h f => Sys2Proof.Machine.execSclr p h f s
  | .sexp p h f => Sys2Proof.Machine.execSexp p h f s
  | .vmov p h f => Sys2Proof.Machine.execVmov p h f s
  | .vadd p h f => Sys2Proof.Machine.execVadd p h f s
  | .vsub p h f => Sys2Proof.Machine.execVsub p h f s
  | .vmul p h f => Sys2Proof.Machine.execVmul p h f s
  | .vfma p h f => Sys2Proof.Machine.execVfma p h f s
  | .vfnma p h f => Sys2Proof.Machine.execVfnma p h f s
  | .vmin p h f => Sys2Proof.Machine.execVmin p h f s
  | .vmax p h f => Sys2Proof.Machine.execVmax p h f s
  | .vamx p h f => Sys2Proof.Machine.execVamx p h f s
  | .vcmp p h f => Sys2Proof.Machine.execVcmp p h f s
  | .vsel p h f => Sys2Proof.Machine.execVsel p h f s
  | .vdiv p h f => Sys2Proof.Machine.execVdiv p h f s
  | .vsqrt p h f => Sys2Proof.Machine.execVsqrt p h f s
  | .vhsum p h f => Sys2Proof.Machine.execVhsum p h f s
  | .vhssq p h f => Sys2Proof.Machine.execVhssq p h f s
  | .vhamx p h f => Sys2Proof.Machine.execVhamx p h f s
  | .vspl p h f => Sys2Proof.Machine.execVspl p h f s
  | .vcvt p h f => Sys2Proof.Machine.execVcvt p h f s
  | .vrupd p h f => Sys2Proof.Machine.execVrupd p h f s
  | .vrcmb p h f => Sys2Proof.Machine.execVrcmb p h f s
  | .vvarp p h f => Sys2Proof.Machine.execVvarp p h f s
  | .vvars p h f => Sys2Proof.Machine.execVvars p h f s
  | .vrng p h f => Sys2Proof.Machine.execVrng p h f s
  | .vand p h f => Sys2Proof.Machine.execVand p h f s
  | .vor p h f => Sys2Proof.Machine.execVor p h f s
  | .vxor p h f => Sys2Proof.Machine.execVxor p h f s
  | .dtld p h f => Sys2Proof.Machine.execDtld p h f s
  | .dtclr p h f => Sys2Proof.Machine.execDtclr p h f s
  | .dtmat p h f => Sys2Proof.Machine.execDtmat p h f s
  | .dtstr p h f => Sys2Proof.Machine.execDtstr p h f s
  | .dtgat p h f => Sys2Proof.Machine.execDtgat p h f s
  | .dtgatCheck p h f => Sys2Proof.Machine.execDtgatCheck p h f s
  | .dtsct p h f => Sys2Proof.Machine.execDtsct p h f s
  | .dtsrt p h f => Sys2Proof.Machine.execDtsrt p h f s
  | .dtcmp p h f => Sys2Proof.Machine.execDtcmp p h f s
  | .dtexp p h f => Sys2Proof.Machine.execDtexp p h f s
  | .mcpy p h f => Sys2Proof.Machine.execMcpy p h f s
  | .msld p h f => Sys2Proof.Machine.execMsld p h f s
  | .msst p h f => Sys2Proof.Machine.execMsst p h f s
  | .msend p h f => Sys2Proof.Machine.execMsend p h f s
  | .msrd p h f => Sys2Proof.Machine.execMsrd p h f s
  | .mswr p h f => Sys2Proof.Machine.execMswr p h f s
  | .moveTransferDone p => Sys2Proof.Machine.execMoveTransferDone p s
  | .msendDelivery p t => Sys2Proof.Machine.execMsendDelivery p t s
  | .waitm p h f => Sys2Proof.Machine.execWaitm p h f s
  | .waitr p h f => Sys2Proof.Machine.execWaitr p h f s
  | .bara p h f => Sys2Proof.Machine.execBara p h f s
  | .barw p h f => Sys2Proof.Machine.execBarw p h f s
  | .fence p h => Sys2Proof.Machine.execFence p h s
  | .loop p h f => Sys2Proof.Machine.execLoop p h f s
  | .mstr p h f => Sys2Proof.Machine.execMstr p h f s
  | .trel p h => Sys2Proof.Machine.execTrel p h s
  | .endstep p h => Sys2Proof.Machine.execEndstep p h s
  | .logv p h f => Sys2Proof.Machine.execLogv p h f s
  | .rcset p h f => Sys2Proof.Machine.execRcset p h f s
  | .sadd p h f => Sys2Proof.Machine.execSadd p h f s
  | .ssub p h f => Sys2Proof.Machine.execSsub p h f s
  | .smul p h f => Sys2Proof.Machine.execSmul p h f s
  | .sand p h f => Sys2Proof.Machine.execSand p h f s
  | .sor p h f => Sys2Proof.Machine.execSor p h f s
  | .sxor p h f => Sys2Proof.Machine.execSxor p h f s
  | .sshl p h f => Sys2Proof.Machine.execSshl p h f s
  | .sshr p h f => Sys2Proof.Machine.execSshr p h f s
  | .sceq p h f => Sys2Proof.Machine.execSceq p h f s
  | .sclt p h f => Sys2Proof.Machine.execSclt p h f s
  | .saddi p h f => Sys2Proof.Machine.execSaddi p h f s
  | .sxori p h f => Sys2Proof.Machine.execSxori p h f s
  | .sli p h f => Sys2Proof.Machine.execSli p h f s
  | .slui p h f => Sys2Proof.Machine.execSlui p h f s
  | .sld p h f => Sys2Proof.Machine.execSld p h f s
  | .sst p h f => Sys2Proof.Machine.execSst p h f s
  | .srd p h f => Sys2Proof.Machine.execSrd p h f s
  | .loadComplete p => Sys2Proof.Machine.execLoadComplete p s
  | .columnEnter p => Sys2Proof.Machine.execColumnEnter p s
  | .regionClearDone p => Sys2Proof.Machine.execRegionClearDone p s
  | .epiAttemptDone p => Sys2Proof.Machine.execEpiAttemptDone p s
  | .scatterRecordTaken p bank => Sys2Proof.Machine.execScatterRecordTaken p bank s
  | .dovetailDone p => Sys2Proof.Machine.execDovetailDone p s
  | .spadPromote p req bank n => Sys2Proof.Machine.execSpadPromote p req bank n s
  | .slotRelease p => Sys2Proof.Machine.execSlotRelease p s
  | .endstepRestart p => Sys2Proof.Machine.execEndstepRestart p s
  | .markStall p => Sys2Proof.Machine.execMarkStall p s
  | .segOverrun p len => Sys2Proof.Machine.execSegOverrun p len s
  | .watchdogExpiry p => Sys2Proof.Machine.execWatchdogExpiry p s
  | .bistPass p ok ended => Sys2Proof.Machine.execBistPass p ok ended s
  | .coreMemoryError p mem ue => Sys2Proof.Machine.execCoreMemoryError p mem ue s
  | .eccLimit p => Sys2Proof.Machine.execEccLimit p s
  | .syncLinkTimeout p => Sys2Proof.Machine.execSyncLinkTimeout p s
  | .sistering p => Sys2Proof.Machine.execSistering p s
  | .roleSwitch p => Sys2Proof.Machine.execRoleSwitch p s
  | .plankIssue l => Sys2Proof.Machine.execPlankIssue l s
  | .stackPlankRead role plank => Sys2Proof.Machine.execStackPlankRead role plank s
  | .plankStart p pl => Sys2Proof.Machine.execPlankStart p pl s
  | .forwardBeat p pl b => Sys2Proof.Machine.execForwardBeat p pl b s
  | .confirm p pl => Sys2Proof.Machine.execConfirm p pl s
  | .deny p pl => Sys2Proof.Machine.execDeny p pl s
  | .rollback p => Sys2Proof.Machine.execRollback p s
  | .releaseCountUpdate l half p count => Sys2Proof.Machine.execReleaseCountUpdate l half p count s
  | .returnBandFill p => Sys2Proof.Machine.execReturnBandFill p s
  | .returnBeat p => Sys2Proof.Machine.execReturnBeat p s
  | .landingExaAdd l half => Sys2Proof.Machine.execLandingExaAdd l half s
  | .ringGroupForward l obj g => Sys2Proof.Machine.execRingGroupForward l obj g s
  | .ownerRounding l => Sys2Proof.Machine.execOwnerRounding l s
  | .luuUpdate l => Sys2Proof.Machine.execLuuUpdate l s
  | .globalMarkUpdate l role pos => Sys2Proof.Machine.execGlobalMarkUpdate l role pos s
  | .globalMark target crossing plank => Sys2Proof.Machine.execGlobalMark target crossing plank s
  | .barArrive hub ctr who => Sys2Proof.Machine.execBarArrive hub ctr who s
  | .barDone unit scope ctr count => Sys2Proof.Machine.execBarDone unit scope ctr count s
  | .fenceNotice bay idx => Sys2Proof.Machine.execFenceNotice bay idx s
  | .alarm bay code detail => Sys2Proof.Machine.execAlarm bay code detail s
  | .flitForward p o => Sys2Proof.Machine.execFlitForward p o s
  | .multicastEscape p o => Sys2Proof.Machine.execMulticastEscape p o s
  | .linkRetry p o => Sys2Proof.Machine.execLinkRetry p o s
  | .commitReady l frame => Sys2Proof.Machine.execCommitReady l frame s
  | .commitRepeat l => Sys2Proof.Machine.execCommitRepeat l s
  | .commitDone l frame => Sys2Proof.Machine.execCommitDone l frame s
  | .plankFrame l frame => Sys2Proof.Machine.execPlankFrame l frame s
  | .freight l frame => Sys2Proof.Machine.execFreight l frame s
  | .credit l frame => Sys2Proof.Machine.execCredit l frame s
  | .holdFrame l frame => Sys2Proof.Machine.execHoldFrame l frame s
  | .hail l frame => Sys2Proof.Machine.execHail l frame s
  | .probe l frame => Sys2Proof.Machine.execProbe l frame s
  | .barrierFrame l frame => Sys2Proof.Machine.execBarrierFrame l frame s
  | .regwrite l frame => Sys2Proof.Machine.execRegwrite l frame s
  | .regread l frame => Sys2Proof.Machine.execRegread l frame s
  | .snapFrame l frame => Sys2Proof.Machine.execSnapFrame l frame s
  | .reverted l frame => Sys2Proof.Machine.execReverted l frame s
  | .badFrame l frame => Sys2Proof.Machine.execBadFrame l frame s
  | .frameLoss x => Sys2Proof.Machine.execFrameLoss x s
  | .nakRepeat l => Sys2Proof.Machine.execNakRepeat l s
  | .hailAckDue l => Sys2Proof.Machine.execHailAckDue l s
  | .replayTimeout l => Sys2Proof.Machine.execReplayTimeout l s
  | .hailIdle l => Sys2Proof.Machine.execHailIdle l s
  | .hold l vc cause bay => Sys2Proof.Machine.execHold l vc cause bay s
  | .partnerLost l => Sys2Proof.Machine.execPartnerLost l s
  | .laneGroupDown l g => Sys2Proof.Machine.execLaneGroupDown l g s
  | .linkTrained l g => Sys2Proof.Machine.execLinkTrained l g s
  | .frameSend l => Sys2Proof.Machine.execFrameSend l s
  | .stackAccess bay x => Sys2Proof.Machine.execStackAccess bay x s
  | .stackChannelLost bay ch => Sys2Proof.Machine.execStackChannelLost bay ch s
  | .stackRepair bay ch row => Sys2Proof.Machine.execStackRepair bay ch row s
  | .stackUe bay ch addr master => Sys2Proof.Machine.execStackUe bay ch addr master s
  | .patrolScrub bay ch row err => Sys2Proof.Machine.execPatrolScrub bay ch row err s
  | .stackRefresh bay ch => Sys2Proof.Machine.execStackRefresh bay ch s
  | .stackThermal bay temp => Sys2Proof.Machine.execStackThermal bay temp s
  | .bayLoss bay => Sys2Proof.Machine.execBayLoss bay s
  | .supplyTrip bay rail => Sys2Proof.Machine.execSupplyTrip bay rail s
  | .phaseLost bay phase => Sys2Proof.Machine.execPhaseLost bay phase s
  | .busConverterLost bay conv => Sys2Proof.Machine.execBusConverterLost bay conv s
  | .currentGuard bay ma => Sys2Proof.Machine.execCurrentGuard bay ma s
  | .droop bay mv => Sys2Proof.Machine.execDroop bay mv s
  | .crackSuspect bay g => Sys2Proof.Machine.execCrackSuspect bay g s
  | .paceChange bay => Sys2Proof.Machine.execPaceChange bay s
  | .hdrStage p => Sys2Proof.Machine.execHdrStage p s
  | .hdrDefer p => Sys2Proof.Machine.execHdrDefer p s
  | .spareDailyTest p ok => Sys2Proof.Machine.execSpareDailyTest p ok s
  | .junctionSample bay temp hot => Sys2Proof.Machine.execJunctionSample bay temp hot s
  | .powerGuard w54 w12 => Sys2Proof.Machine.execPowerGuard w54 w12 s
  | .coolantMonitor wf pf wi pi => Sys2Proof.Machine.execCoolantMonitor wf pf wi pi s
  | .inputLost kind n => Sys2Proof.Machine.execInputLost kind n s
  | .clockFailover bay => Sys2Proof.Machine.execClockFailover bay s
  | .boardFailover x => Sys2Proof.Machine.execBoardFailover x s
  | .boardReady b => Sys2Proof.Machine.execBoardReady b s
  | .boardReset b => Sys2Proof.Machine.execBoardReset b s
  | .startUpTest fails => Sys2Proof.Machine.execStartUpTest fails s
  | .stackTraining bay ch ok => Sys2Proof.Machine.execStackTraining bay ch ok s
  | .landingTraining l groups => Sys2Proof.Machine.execLandingTraining l groups s
  | .jobLoad b n data => Sys2Proof.Machine.execJobLoad b n data s
  | .jobStart b n data => Sys2Proof.Machine.execJobStart b n data s
  | .jobHold b n => Sys2Proof.Machine.execJobHold b n s
  | .jobRelease b n => Sys2Proof.Machine.execJobRelease b n s
  | .jobDirect b n => Sys2Proof.Machine.execJobDirect b n s
  | .jobStop b n => Sys2Proof.Machine.execJobStop b n s
  | .jobAlternate b n data => Sys2Proof.Machine.execJobAlternate b n data s
  | .coreFence b n => Sys2Proof.Machine.execCoreFence b n s
  | .coreQuery b n => Sys2Proof.Machine.execCoreQuery b n s
  | .baySpares b n => Sys2Proof.Machine.execBaySpares b n s
  | .bayQuery b n => Sys2Proof.Machine.execBayQuery b n s
  | .stackMapout b n => Sys2Proof.Machine.execStackMapout b n s
  | .stackQuery b n => Sys2Proof.Machine.execStackQuery b n s
  | .landingAccept b n => Sys2Proof.Machine.execLandingAccept b n s
  | .landingRetake b n => Sys2Proof.Machine.execLandingRetake b n s
  | .landingHold b n => Sys2Proof.Machine.execLandingHold b n s
  | .landingRelease b n => Sys2Proof.Machine.execLandingRelease b n s
  | .landingRetrain b n => Sys2Proof.Machine.execLandingRetrain b n s
  | .powerPace b n => Sys2Proof.Machine.execPowerPace b n s
  | .powerCeiling b n => Sys2Proof.Machine.execPowerCeiling b n s
  | .powerLimit b n => Sys2Proof.Machine.execPowerLimit b n s
  | .snapNow b n => Sys2Proof.Machine.execSnapNow b n s
  | .snapRestore b n => Sys2Proof.Machine.execSnapRestore b n s
  | .queryStatus b n => Sys2Proof.Machine.execQueryStatus b n s
  | .queryIdentity b n => Sys2Proof.Machine.execQueryIdentity b n s
  | .queryCapacity b n => Sys2Proof.Machine.execQueryCapacity b n s
  | .fwStage b n data => Sys2Proof.Machine.execFwStage b n data s
  | .fwActivate b n => Sys2Proof.Machine.execFwActivate b n s
  | .fwHandover b n => Sys2Proof.Machine.execFwHandover b n s
  | .injectLanding b n => Sys2Proof.Machine.execInjectLanding b n s
  | .injectLink b n => Sys2Proof.Machine.execInjectLink b n s
  | .injectFailure b n => Sys2Proof.Machine.execInjectFailure b n s
  | .doorbell b n => Sys2Proof.Machine.execDoorbell b n s
  | .mailboxWrite b off bytes => Sys2Proof.Machine.execMailboxWrite b off bytes s
  | .evqCons b v => Sys2Proof.Machine.execEvqCons b v s
  | .evqCtrl b v => Sys2Proof.Machine.execEvqCtrl b v s
  | .evqCoalesceTimer b => Sys2Proof.Machine.execEvqCoalesceTimer b s
  | .barAccess b bar off rw size data => Sys2Proof.Machine.execBarAccess b bar off rw size data s
  | .smbusRead b off => Sys2Proof.Machine.execSmbusRead b off s
  | .timeInEdge b => Sys2Proof.Machine.execTimeInEdge b s
  | .coreRun p v => Sys2Proof.Machine.execCoreRun p v s
  | .coreStep p => Sys2Proof.Machine.execCoreStep p s
  | .istoreData p wr => Sys2Proof.Machine.execIstoreData p wr s
  | .tapCtrl p v => Sys2Proof.Machine.execTapCtrl p v s
  | .greenCtrl p v => Sys2Proof.Machine.execGreenCtrl p v s
  | .stackMapoutRequest bay v => Sys2Proof.Machine.execStackMapoutRequest bay v s
  | .memoryWindow master p off size wr => Sys2Proof.Machine.execMemoryWindow master p off size wr s
  | .timerStart p => Sys2Proof.Machine.execTimerStart p s
  | .windowEnd p => Sys2Proof.Machine.execWindowEnd p s
  | .timerClaim p => Sys2Proof.Machine.execTimerClaim p s
  | .bwCtrl addr v => Sys2Proof.Machine.execBwCtrl addr v s
  | .bwWindowEnd addr => Sys2Proof.Machine.execBwWindowEnd addr s
  | .rcRead addr => Sys2Proof.Machine.execRcRead addr s
  | .registerWrite addr v master => Sys2Proof.Machine.execRegisterWrite addr v master s
  | .resultLands p => Sys2Proof.Machine.execResultLands p s
  | .revertRepeat l => Sys2Proof.Machine.execRevertRepeat l s
  | .inputRestored kind n => Sys2Proof.Machine.execInputRestored kind n s
  | .inputOutOfRange kind out => Sys2Proof.Machine.execInputOutOfRange kind out s
  | .boardInserted b fwok => Sys2Proof.Machine.execBoardInserted b fwok s
  | .bistPassStart p => Sys2Proof.Machine.execBistPassStart p s
  | .returnObjectStart half => Sys2Proof.Machine.execReturnObjectStart half s
  | .greenFrameLate l => Sys2Proof.Machine.execGreenFrameLate l s
  | .coreSupplyFault p => Sys2Proof.Machine.execCoreSupplyFault p s
  | .timerClaimEnd p => Sys2Proof.Machine.execTimerClaimEnd p s
  | .injectedDelayEnd l => Sys2Proof.Machine.execInjectedDelayEnd l s
  | .heartbeat b => Sys2Proof.Machine.execHeartbeat b s
  | .pllLock bay => Sys2Proof.Machine.execPllLock bay s
  | .watchEvaluation => Sys2Proof.Machine.execWatchEvaluation s
  | .formatSelection => Sys2Proof.Machine.execFormatSelection s
  | .rootFailover => Sys2Proof.Machine.execRootFailover s
  | .crossingEnd => Sys2Proof.Machine.execCrossingEnd s
  | .stepBoundary => Sys2Proof.Machine.execStepBoundary s
  | .commitDecision => Sys2Proof.Machine.execCommitDecision s
  | .commitStalled => Sys2Proof.Machine.execCommitStalled s
  | .snapGuardWrite => Sys2Proof.Machine.execSnapGuardWrite s
  | .snapshot => Sys2Proof.Machine.execSnapshot s
  | .restore => Sys2Proof.Machine.execRestore s
  | .lossCompare => Sys2Proof.Machine.execLossCompare s
  | .riskSample => Sys2Proof.Machine.execRiskSample s
  | .moduleReset => Sys2Proof.Machine.execModuleReset s
  | .powerOn => Sys2Proof.Machine.execPowerOn s
  | .bayEnable => Sys2Proof.Machine.execBayEnable s
  | .no54vResume => Sys2Proof.Machine.execNo54vResume s
  | .ready => Sys2Proof.Machine.execReady s
  | .eventDelivery => Sys2Proof.Machine.execEventDelivery s

end Sys2Proof.Machine
end

