-- ==== Sys2Proof/Machine/Tick.lean ====
section
/-! DEFINITION. The passing of time on an empty queue: one tick of the module timebase, the clk it holds in each running bay, and what counts clk (R15, R350, R515 to R517). -/

namespace Sys2Proof.Machine

/-- Sixteenths of a clk in 10 ns at a pace (Table 18.4); an engaged current guard skips one clk edge in 8 (R467). -/
def clkUnits (pace : Nat) (guard : Bool) : Nat :=
  let n := ([176, 152, 128, 88][pace]?).getD 176
  if guard then n - n / 8 else n

/-- CYC of a core advances by n clk, unless CYC_EN is 0 or its counters are frozen (R516, R518). -/
def State.addCyc (s : State) (p n : Nat) : State :=
  if bit (s.reg (coreReg p 5 8)).toNat 6 && !bit (s.reg (coreReg p 5 0xC)).toNat 7 then
    let t := s.reg64 (coreReg p 5 0) + n
    let s := s.setReg64 (coreReg p 5 0) (t % 2 ^ 64)
    if t < 2 ^ 64 then s else s.orReg (coreReg p 5 0xC) 0x40
  else s

/-- The event that counts the clk a core is held with a wait type (Table 20.13). -/
def holdEvent (t : Nat) : Option Nat := ([none, some 2, some 3, some 4, none, some 5, some 6, none][t]?).getD none

/-- An occupancy of a core by its code (Table 20.13). -/
def State.occupancy (s : State) (p code : Nat) : Nat :=
  let c := s.core p
  match code with
  | 0x80 => c.dq.length
  | 0x81 => ((List.range 256).map (fun b => (c.scq.filter (fun r => r.bank == b)).length)).foldl max 0
  | 0x82 => c.xfers.length
  | 0x83 => ((List.range c.tapSlots).filter (fun k => (c.slot k).used)).length
  | 0x84 => (c.point.map (fun q => q.log.length)).getD 0
  | 0x85 => (c.preds.filter (fun e => e.isSome)).length
  | _ => 0

/-- The counters in threshold mode over n clk (R517). -/
def State.thresholds (s : State) (p n : Nat) : State :=
  (List.range 6).foldl (fun s k =>
    let e := (s.reg (coreReg p 5 (0x10 + 4 * k))).toNat
    if s.pcOn p k && bit e 8 && decide (e / 65536 < s.occupancy p (e % 256)) then s.addPc p k n else s) s

/-- One clk of a core with RUN set: it issues the bundle at its PC, or is held, which counts by wait type (R169, R207, R517). -/
def State.runOne (s : State) (p : Nat) : State :=
  if !s.running p then s
  else
    let s := if s.mayIssue p then s.issueBundle p else s
    let w := (s.reg (coreReg p 0 4)).toNat
    match holdEvent (bits w 16 14) with
    | some e => if bit w 13 then s.tally p e 1 else s
    | none => s

/-- n clk at a core that is not fenced: its stored bundles issue, and its counters count. The scratchpad lines that its arbiter refuses in them
are free (log entries 5, 6). -/
def State.coreClk (s : State) (p n : Nat) : State :=
  (((upTo n (fun _ s => s.runOne p) s).addCyc p n).tally p 0xB (Config.refusedLines p s.time)).thresholds p n

/-- One tick of a running bay: its clk, the slot frame counter, and its cores' counters. -/
def State.bayTick (s : State) (b : Nat) : State :=
  let r := (s.reg (paceStat b)).toNat
  let u := (s.bay b).clkPart + clkUnits (bits r 1 0) (bit r 11)
  let s := s.onBay b (fun y => { y with clkPart := u % 16, slot := (y.slot + u / 16) % 256 })
  upTo 48 (fun i s => if s.fenced (48 * b + i) then s else s.coreClk (48 * b + i) (u / 16)) s

/-- One 10 ns tick of the module timebase (log entry 7). -/
def State.tick (s : State) : State := upTo 60 (fun b s => if s.bayUp b then s.bayTick b else s) { s with time := s.time + 1 }

end Sys2Proof.Machine
end

