-- ==== Sys2Proof/WellFormed.lean ====
section
/-! DEFINITION. Well-formed commands: every operand names a unit that the module has room for and stays in its field's width. The slot
fields of an operation are bit vectors of the encoding's widths, so they need no check. -/

namespace Sys2Proof

/-- A physical core number (R20). -/
def okCore (p : Nat) : Bool := decide (p < 2880)
/-- A landing number (Table 1.1). -/
def okLand (l : Nat) : Bool := decide (l < 8)
/-- A bay number (R396). -/
def okBay (b : Nat) : Bool := decide (b < 60)
/-- A board number: 0 for A and 1 for B (R480). -/
def okBoard (b : Nat) : Bool := decide (b < 2)

/-- A frame whose fields fit Table 14.2. -/
def Frame.wf (f : Frame) : Bool :=
  decide (f.seq < 2 ^ 24 ∧ f.object < 2 ^ 32 ∧ f.version < 65536 ∧ f.typ < 256 ∧ f.vc < 32 ∧ f.index < 256 ∧ f.payload.length ≤ 256)

/-- Whether a command is well-formed. -/
def Instr.wf (i : Instr) : Bool :=
  match i with
  | .lds p _ _ => okCore p
  | .ldst p _ _ => okCore p
  | .strm p _ _ => okCore p
  | .strd p _ _ => okCore p
  | .epi p _ _ => okCore p
  | .sclr p _ _ => okCore p
  | .sexp p _ _ => okCore p
  | .vmov p _ _ => okCore p
  | .vadd p _ _ => okCore p
  | .vsub p _ _ => okCore p
  | .vmul p _ _ => okCore p
  | .vfma p _ _ => okCore p
  | .vfnma p _ _ => okCore p
  | .vmin p _ _ => okCore p
  | .vmax p _ _ => okCore p
  | .vamx p _ _ => okCore p
  | .vcmp p _ _ => okCore p
  | .vsel p _ _ => okCore p
  | .vdiv p _ _ => okCore p
  | .vsqrt p _ _ => okCore p
  | .vhsum p _ _ => okCore p
  | .vhssq p _ _ => okCore p
  | .vhamx p _ _ => okCore p
  | .vspl p _ _ => okCore p
  | .vcvt p _ _ => okCore p
  | .vrupd p _ _ => okCore p
  | .vrcmb p _ _ => okCore p
  | .vvarp p _ _ => okCore p
  | .vvars p _ _ => okCore p
  | .vrng p _ _ => okCore p
  | .vand p _ _ => okCore p
  | .vor p _ _ => okCore p
  | .vxor p _ _ => okCore p
  | .dtld p _ _ => okCore p
  | .dtclr p _ _ => okCore p
  | .dtmat p _ _ => okCore p
  | .dtstr p _ _ => okCore p
  | .dtgat p _ _ => okCore p
  | .dtgatCheck p _ _ => okCore p
  | .dtsct p _ _ => okCore p
  | .dtsrt p _ _ => okCore p
  | .dtcmp p _ _ => okCore p
  | .dtexp p _ _ => okCore p
  | .mcpy p _ _ => okCore p
  | .msld p _ _ => okCore p
  | .msst p _ _ => okCore p
  | .msend p _ _ => okCore p
  | .msrd p _ _ => okCore p
  | .mswr p _ _ => okCore p
  | .moveTransferDone p => okCore p
  | .msendDelivery p t => okCore p && okCore t
  | .waitm p _ _ => okCore p
  | .waitr p _ _ => okCore p
  | .bara p _ _ => okCore p
  | .barw p _ _ => okCore p
  | .fence p _ => okCore p
  | .loop p _ _ => okCore p
  | .mstr p _ _ => okCore p
  | .trel p _ => okCore p
  | .endstep p _ => okCore p
  | .logv p _ _ => okCore p
  | .rcset p _ _ => okCore p
  | .sadd p _ _ => okCore p
  | .ssub p _ _ => okCore p
  | .smul p _ _ => okCore p
  | .sand p _ _ => okCore p
  | .sor p _ _ => okCore p
  | .sxor p _ _ => okCore p
  | .sshl p _ _ => okCore p
  | .sshr p _ _ => okCore p
  | .sceq p _ _ => okCore p
  | .sclt p _ _ => okCore p
  | .saddi p _ _ => okCore p
  | .sxori p _ _ => okCore p
  | .sli p _ _ => okCore p
  | .slui p _ _ => okCore p
  | .sld p _ _ => okCore p
  | .sst p _ _ => okCore p
  | .srd p _ _ => okCore p
  | .loadComplete p => okCore p
  | .columnEnter p => okCore p
  | .regionClearDone p => okCore p
  | .epiAttemptDone p => okCore p
  | .scatterRecordTaken p bank => okCore p && decide (bank < 128)
  | .dovetailDone p => okCore p
  | .spadPromote p _ _ _ => okCore p
  | .slotRelease p => okCore p
  | .endstepRestart p => okCore p
  | .markStall p => okCore p
  | .segOverrun p _ => okCore p
  | .watchdogExpiry p => okCore p
  | .bistPass p _ _ => okCore p
  | .coreMemoryError p mem _ => okCore p && decide (mem < 3)
  | .eccLimit p => okCore p
  | .syncLinkTimeout p => okCore p
  | .sistering p => okCore p
  | .roleSwitch p => okCore p
  | .plankIssue l => okLand l
  | .stackPlankRead role plank => decide (role < 2) && decide (plank < 2 ^ 32)
  | .plankStart p pl => okCore p && decide (pl < 2 ^ 32)
  | .forwardBeat p pl b => okCore p && decide (pl < 2 ^ 32) && decide (b < 256)
  | .confirm p pl => okCore p && decide (pl < 2 ^ 32)
  | .deny p pl => okCore p && decide (pl < 2 ^ 32)
  | .rollback p => okCore p
  | .releaseCountUpdate l half p _ => okLand l && decide (half < 96) && okCore p
  | .returnBandFill p => okCore p
  | .returnBeat p => okCore p
  | .landingExaAdd l half => okLand l && decide (half < 96)
  | .ringGroupForward l _ _ => okLand l
  | .ownerRounding l => okLand l
  | .luuUpdate l => okLand l
  | .globalMarkUpdate l role pos => okLand l && decide (role < 2) && decide (pos < 1024)
  | .globalMark target crossing plank => decide (target < 2888) && decide (crossing < 65536) && decide (plank < 2 ^ 32)
  | .barArrive hub ctr _ => decide (hub ≤ 60) && decide (ctr < 64)
  | .barDone unit _ ctr _ => decide (unit < 2888) && decide (ctr < 64)
  | .fenceNotice bay idx => okBay bay && decide (idx < 48)
  | .alarm bay _ _ => okBay bay
  | .flitForward p o => okCore p && decide (o < 5)
  | .multicastEscape p o => okCore p && decide (o < 5)
  | .linkRetry p o => okCore p && decide (o < 5)
  | .commitReady l frame => okLand l && frame.wf
  | .commitRepeat l => okLand l
  | .commitDone l frame => okLand l && frame.wf
  | .plankFrame l frame => okLand l && frame.wf
  | .freight l frame => okLand l && frame.wf
  | .credit l frame => okLand l && frame.wf
  | .holdFrame l frame => okLand l && frame.wf
  | .hail l frame => okLand l && frame.wf
  | .probe l frame => okLand l && frame.wf
  | .barrierFrame l frame => okLand l && frame.wf
  | .regwrite l frame => okLand l && frame.wf
  | .regread l frame => okLand l && frame.wf
  | .snapFrame l frame => okLand l && frame.wf
  | .reverted l frame => okLand l && frame.wf
  | .badFrame l frame => okLand l && frame.wf
  | .frameLoss x => okLand x.land
  | .nakRepeat l => okLand l
  | .hailAckDue l => okLand l
  | .replayTimeout l => okLand l
  | .hailIdle l => okLand l
  | .hold l vc _ bay => okLand l && decide (vc < 32) && okBay bay
  | .partnerLost l => okLand l
  | .laneGroupDown l g => okLand l && decide (g < 16)
  | .linkTrained l g => okLand l && decide (g < 16)
  | .frameSend l => okLand l
  | .stackAccess bay x => okBay bay && decide (x.ch < 32) && decide (x.ce ≤ 2 ^ 20)
  | .stackChannelLost bay ch => okBay bay && decide (ch < 32)
  | .stackRepair bay ch row => okBay bay && decide (ch < 32) && decide (row < 2 ^ 20)
  | .stackUe bay ch _ master => okBay bay && decide (ch < 32) && decide (master < 188)
  | .patrolScrub bay ch row err => okBay bay && decide (ch < 32) && decide (row < 2 ^ 20) && decide (err < 2 ^ 16)
  | .stackRefresh bay ch => okBay bay && decide (ch < 32)
  | .stackThermal bay _ => okBay bay
  | .bayLoss bay => okBay bay
  | .supplyTrip bay rail => okBay bay && decide (rail ≤ 6)
  | .phaseLost bay phase => okBay bay && decide (phase < 37)
  | .busConverterLost bay conv => okBay bay && decide (conv < 2)
  | .currentGuard bay _ => okBay bay
  | .droop bay _ => okBay bay
  | .crackSuspect bay g => okBay bay && decide (g < 20)
  | .paceChange bay => okBay bay
  | .hdrStage p => okCore p
  | .hdrDefer p => okCore p
  | .spareDailyTest p _ => okCore p
  | .junctionSample bay _ hot => okBay bay && decide (hot ≤ 48)
  | .powerGuard w54 w12 => decide (w54 < 65536) && decide (w12 < 65536)
  | .coolantMonitor wf pf wi pi => decide (wf < 256) && decide (pf < 256) && decide (wi < 256) && decide (pi < 256)
  | .inputLost kind _ => decide (kind < 4)
  | .clockFailover bay => okBay bay
  | .boardFailover x => decide (x.cause < 3) && decide (x.board < 2)
  | .boardReady b => okBoard b
  | .boardReset b => okBoard b
  | .startUpTest fails => fails.all (fun e => okCore e.1 && [1, 3, 5].contains e.2)
  | .stackTraining bay ch _ => okBay bay && decide (ch < 32)
  | .landingTraining l groups => okLand l && decide (groups < 65536)
  | .jobLoad b n _ => okBoard b && decide (n < 64)
  | .jobStart b n _ => okBoard b && decide (n < 64)
  | .jobHold b n => okBoard b && decide (n < 64)
  | .jobRelease b n => okBoard b && decide (n < 64)
  | .jobDirect b n => okBoard b && decide (n < 64)
  | .jobStop b n => okBoard b && decide (n < 64)
  | .jobAlternate b n _ => okBoard b && decide (n < 64)
  | .coreFence b n => okBoard b && decide (n < 64)
  | .coreQuery b n => okBoard b && decide (n < 64)
  | .baySpares b n => okBoard b && decide (n < 64)
  | .bayQuery b n => okBoard b && decide (n < 64)
  | .stackMapout b n => okBoard b && decide (n < 64)
  | .stackQuery b n => okBoard b && decide (n < 64)
  | .landingAccept b n => okBoard b && decide (n < 64)
  | .landingRetake b n => okBoard b && decide (n < 64)
  | .landingHold b n => okBoard b && decide (n < 64)
  | .landingRelease b n => okBoard b && decide (n < 64)
  | .landingRetrain b n => okBoard b && decide (n < 64)
  | .powerPace b n => okBoard b && decide (n < 64)
  | .powerCeiling b n => okBoard b && decide (n < 64)
  | .powerLimit b n => okBoard b && decide (n < 64)
  | .snapNow b n => okBoard b && decide (n < 64)
  | .snapRestore b n => okBoard b && decide (n < 64)
  | .queryStatus b n => okBoard b && decide (n < 64)
  | .queryIdentity b n => okBoard b && decide (n < 64)
  | .queryCapacity b n => okBoard b && decide (n < 64)
  | .fwStage b n _ => okBoard b && decide (n < 64)
  | .fwActivate b n => okBoard b && decide (n < 64)
  | .fwHandover b n => okBoard b && decide (n < 64)
  | .injectLanding b n => okBoard b && decide (n < 64)
  | .injectLink b n => okBoard b && decide (n < 64)
  | .injectFailure b n => okBoard b && decide (n < 64)
  | .doorbell b n => okBoard b && decide (n < 64)
  | .mailboxWrite b off _ => okBoard b && decide (off < 0x4000)
  | .evqCons b _ => okBoard b
  | .evqCtrl b _ => okBoard b
  | .evqCoalesceTimer b => okBoard b
  | .barAccess b bar _ _ size _ => okBoard b && decide (bar = 2 ∨ bar = 4) && decide (size = 1 ∨ size = 2 ∨ size = 4 ∨ size = 8)
  | .smbusRead b _ => okBoard b
  | .timeInEdge b => okBoard b
  | .coreRun p _ => okCore p
  | .coreStep p => okCore p
  | .istoreData p _ => okCore p
  | .tapCtrl p _ => okCore p
  | .greenCtrl p _ => okCore p
  | .stackMapoutRequest bay _ => okBay bay
  | .memoryWindow master p _ size _ => decide (master < 74) && okCore p && decide (size = 1 ∨ size = 2 ∨ size = 4 ∨ size = 8)
  | .timerStart p => okCore p
  | .windowEnd p => okCore p
  | .timerClaim p => okCore p
  | .bwCtrl addr _ => decide (addr < 2 ^ 32)
  | .bwWindowEnd addr => decide (addr < 2 ^ 32)
  | .rcRead addr => decide (addr < 2 ^ 32)
  | .registerWrite addr _ master => decide (addr < 2 ^ 32) && decide (master < 74)
  | .resultLands p => okCore p
  | .revertRepeat l => okLand l
  | .inputRestored kind _ => decide (kind < 2)
  | .inputOutOfRange kind _ => decide (kind < 2)
  | .boardInserted b _ => okBoard b
  | .bistPassStart p => okCore p
  | .returnObjectStart half => decide (half < 96)
  | .greenFrameLate l => okLand l
  | .coreSupplyFault p => okCore p
  | .timerClaimEnd p => okCore p
  | .injectedDelayEnd l => okLand l
  | .heartbeat b => okBoard b
  | .pllLock bay => okBay bay
  | .watchEvaluation => true
  | .formatSelection => true
  | .rootFailover => true
  | .crossingEnd => true
  | .stepBoundary => true
  | .commitDecision => true
  | .commitStalled => true
  | .snapGuardWrite => true
  | .snapshot => true
  | .restore => true
  | .lossCompare => true
  | .riskSample => true
  | .moduleReset => true
  | .powerOn => true
  | .bayEnable => true
  | .no54vResume => true
  | .ready => true
  | .eventDelivery => true

end Sys2Proof
end

