-- ==== Sys2Proof/Safety.lean ====
section
/-! DEFINITION. What counts as a safe run, in the terms the statements use: a command that completes, a core that can issue, what a core's issue may change, and the canonical form of every memory and table of the machine. -/

namespace Sys2Proof

open Machine

/-- Command i completes at s: exec answers a next state, and P holds of it. -/
def Completes (i : Instr) (s : State) (P : State → Prop) : Prop := ∃ t, exec i s = .next t ∧ P t

namespace Machine

/-- Nothing at the core is green: no mask is set, no source is open, no rollback point is held and nothing is left to suppress (R415 to
R420). -/
def Core.seasoned (c : Core) : Bool :=
  c.point.isNone && c.openSrc == 0 && c.suppress.isEmpty && !c.anyGreen && (c.slots.all (fun e => !e.2.green))

/-- A core that runs with nothing in flight and nothing green: its bay runs, it is not fenced, RUN is 1, no end of step and no rollback
holds it, and its PC is in the store (R169, R201, R206, R207). -/
def State.calm (s : State) (p : Nat) : Bool :=
  decide (p < 2880) && s.running p && s.mayIssue p && !(s.core p).pcEnd && (s.core p).feet.isEmpty && (s.core p).seasoned

/-- Act a of a bundle with header h issues at a calm core: the predicate holds or is not asked, the act has no fault and no wait of its
own, its engine has room, no region it writes is being exported, and it opens no prediction without a green log (R87, R170, R173, R206). -/
def State.issues (s : State) (p : Nat) (h : Hdr) (a : Act) : Bool :=
  s.calm p && (predHolds h (s.core p) || a.exempt) && a.fault.isNone && a.hold == 0 && a.room &&
  !a.foot.rw.any (fun n => s.exporting p n) && !a.predOp

/-- The bundle that follows a one-operation bundle at the PC when no loop level is active (R169, R201). -/
def State.plainNext (s : State) (p : Nat) : Bool := (s.core p).loops.all (fun l => !l.active) && decide (s.pc p < 8191)

/-- Registers that the issue of a bundle at core p may change beside what its operations write: CORE_PC, and the counters of block 5
(R169, R517). -/
def issueRegs (p a : Nat) : Bool := a == coreReg p 0 4 || decide (coreReg p 5 0 ≤ a ∧ a < coreReg p 6 0)

/-- Between s and t nothing changed outside core p and the registers that an issue at p may change. -/
def SameBut (p : Nat) (s t : State) : Prop :=
  t = { s with cores := t.cores, regs := t.regs } ∧ (∀ q, q ≠ p → t.core q = s.core q) ∧ ∀ a, issueRegs p a = false → t.reg a = s.reg a

/-- Core memories are as before: scratchpad, sill image and instruction store. -/
def SameMem (c d : Core) : Prop := d.spad = c.spad ∧ d.sill = c.sill ∧ d.istore = c.istore

/-- The log lines that the operations issued since a rollback point have reserved (R425). -/
def Core.resOf (c : Core) : Nat := (c.point.map (fun q => q.res)).getD 0

/-- Only bookkeeping of the issue differs: operation counts, reserved log lines, waits, segment and loop state (R46, R169, R193, R197, R425,
R429). -/
def BookOnly (c d : Core) : Prop :=
  d = { c with point := c.point.map (fun q => { q with res := d.resOf }), cntSince := d.cntSince, suppress := d.suppress, wait := d.wait, logWaited := d.logWaited, stalled := d.stalled, seg := d.seg,
               segRole := d.segRole, loops := d.loops, pcEnd := d.pcEnd }

/-- The next bundle is the one after, when no loop level is active and the store goes on (R169). -/
def NextBundle (p : Nat) (s t : State) : Prop := s.plainNext p = true → t.pc p = s.pc p + 1

/-- Operand b of a VX operation: 256 bytes of scratchpad at X[VS2] with MS, else V[VS2] (Table 7.8). -/
def Core.vxB (c : Core) (f : VxF) : Nat :=
  if f.ms then Mem.readNat c.spad (c.xreg (f.vs2.toNat % 16)).toNat 256 else (c.vreg f.vs2.toNat).toNat

/-- The post-increments of a VX operation with INC: 256 on the X registers it addresses, each once; ms and md say which it uses
(Table 7.8). -/
def VxInc (p : Nat) (f : VxF) (ms md : Bool) (s t : State) : Prop :=
  ∀ x, x < 16 → (t.core p).xreg x = (s.core p).xreg x +
    (if f.inc && ((ms && x == f.vs2.toNat % 16) || (md && x == f.vd.toNat % 16)) then 256 else 0)

/-- A VX operation has issued: one result with these registers, scratchpad bytes and flags is on its way, the post-increments are done, no
other register and no memory of the core has changed, and nothing outside the core has (R148, R150, R172). -/
def VxIssued (p : Nat) (f : VxF) (ms md : Bool) (regs : List (Nat × Nat)) (spad : List (Nat × List Byte)) (fl : Fl) (s t : State) : Prop :=
  (∃ r, (t.core p).vpipe = [r] ∧ r.regs = regs ∧ r.spad = spad ∧ r.fl = fl) ∧ VxInc p f ms md s t ∧
  (t.core p).v = (s.core p).v ∧ (t.core p).s = (s.core p).s ∧ SameMem (s.core p) (t.core p) ∧ SameBut p s t ∧ NextBundle p s t

/-- The same for an operation with one register of result, which MD sends to scratchpad at X[VD] (R183, Table 7.8). -/
def VxResult (p : Nat) (f : VxF) (ms : Bool) (v : Nat × Fl) (s t : State) : Prop :=
  VxIssued p f ms f.md (if f.md then [] else [(f.vd.toNat, v.1)])
    (if f.md then [(((s.core p).xreg (f.vd.toNat % 16)).toNat, leBytes 256 v.1)] else []) v.2 s t

/-- Lane type TY of an elementwise operation g: 0 FP32, 1 BF16, 2 and 3 a widened half of BF16 lanes as operand a (R149, R184). -/
def vxLanes (g : Fmt → Nat → Nat → Nat → FR) (ty a b c : Nat) : Nat × Fl :=
  if ty = 1 then
    let r := mapLanes (g fBF16) (lanes 16 128 a) (lanes 16 128 b) (lanes 16 128 c)
    (unlanes 16 r.1, r.2)
  else
    let r := mapLanes (g fFP32) (if ty = 0 then lanes 32 64 a else half32 a (ty - 2)) (lanes 32 64 b) (lanes 32 64 c)
    (unlanes 32 r.1, r.2)

/-- The elementwise operation g of the operands a VX operation names has issued. -/
def VxEach (p : Nat) (f : VxF) (g : Fmt → Nat → Nat → Nat → FR) (s : State) : State → Prop :=
  VxResult p f f.ms (vxLanes g f.ty.toNat ((s.core p).vreg f.vs1.toNat).toNat ((s.core p).vxB f) ((s.core p).vreg f.vs3.toNat).toNat) s

/-- Landing l takes frame f as the next of its link: the link is up and its partner not lost, no injection rule is armed or at work on the
receiving side, and the frame is the one expected (R369, R380, R391, R394). -/
def State.takes (s : State) (l : Nat) (f : Frame) : Bool :=
  decide (l < 8) && s.linkLive l && (s.land l).injHeldIn.isEmpty && (s.land l).injSwapIn.isEmpty && s.fld (landReg l 0x900) 0 0 == 0 &&
  (f.typ == 7 || f.typ == 8 || f.seq == (s.land l).rxExpect) && decide (f.seq < 2 ^ 24)

/-- The frame has been accepted in sequence: the next number is expected (R380). -/
def Accepted (s t : State) (l : Nat) : Prop := (t.land l).rxExpect = ((s.land l).rxExpect + 1) % 2 ^ 24

/-- Landing l can put a frame on its wire now: link up, partner not lost, no injection rule armed or at work on the sending side (R394). -/
def State.sends (s : State) (l : Nat) : Bool :=
  decide (l < 8) && s.linkLive l && (s.land l).injHeldOut.isEmpty && (s.land l).injSwap.isEmpty && s.fld (landReg l 0x900) 0 0 == 0

/-- A command executes in slot k of board b: it has the code, no reserved flag or byte, and does not wait (R487, R488). -/
def State.serves (s : State) (b k code : Nat) : Bool :=
  decide (b < 2 ∧ k < 64) && !s.mpUndef && s.canRun b k code && decide (s.slotNum b k 2 2 < 2) && s.slotNum b k 0xA 2 == 0

/-- The command of slot k of board b has completed: the slot is done, and holds the status and the result (R488, Table 19.5). -/
def Finished (b k status : Nat) (res : List Byte) (t : State) : Prop :=
  t.slotState b k = 3 ∧ t.slotNum b k 9 1 = status ∧ ∀ i, i < res.length → Mem.byte (t.board b).mbx (256 * k + 0x80 + i) = res.getD i 0

/-- The memories of a core, and those of the role it stores, are in canonical form. -/
def Core.wf (c : Core) : Bool :=
  Mem.wf c.spad && Mem.wf c.sill && Mem.wf c.istore &&
  (match c.stored with
   | some k => Mem.wf k.spad && Mem.wf k.sill && Mem.wf k.istore
   | none => true)

/-- Every memory of the machine is in canonical form: the bay stacks, the memories of the cores, and the register space. -/
def State.wf (s : State) : Bool :=
  Mem.wf s.stack && s.cores.all (fun e => Core.wf e.2) && s.boards.all (fun e => Mem.wf e.2.mbx && Mem.wf e.2.lpddr)

end Machine

end Sys2Proof
end

