-- ==== Sys2Proof/Certificates/Slice0/Obligations.lean ====
section
/-! DEFINITION. The statements for the provers, family by family: results, frames, faults and refusals, invariants, encodings. -/

open Sys2Proof Sys2Proof.Machine

/-! ## The scalar slot -/

/-- SADD to SCLT write D with the operation of A and B on 64 bits; D, A and B name S or X registers (R192, Table 7.14). -/
def Obligations.scalar_register_results : Prop :=
  ∀ (s : State) (p : Nat) (h : Hdr) (f : ScalF), s.calm p = true → predHolds h (s.core p) = true →
    f.d.toNat < 48 → f.a.toNat < 48 → f.b.toNat < 48 →
    let a := (s.core p).scal f.a.toNat
    let b := (s.core p).scal f.b.toNat
    let gives := fun (v : W64) (t : State) =>
      (t.core p).scal f.d.toNat = v ∧ (∀ r, r < 48 → r ≠ f.d.toNat → (t.core p).scal r = (s.core p).scal r) ∧
      (t.core p).v = (s.core p).v ∧ SameMem (s.core p) (t.core p) ∧ (t.core p).vpipe = [] ∧ SameBut p s t ∧ NextBundle p s t
    Completes (.sadd p h f) s (gives (a + b)) ∧ Completes (.ssub p h f) s (gives (a - b)) ∧ Completes (.smul p h f) s (gives (a * b)) ∧
    Completes (.sand p h f) s (gives (a &&& b)) ∧ Completes (.sor p h f) s (gives (a ||| b)) ∧ Completes (.sxor p h f) s (gives (a ^^^ b)) ∧
    Completes (.sshl p h f) s (gives (a <<< (b.toNat % 64))) ∧ Completes (.sshr p h f) s (gives (a >>> (b.toNat % 64))) ∧
    Completes (.sceq p h f) s (gives (if a = b then 1 else 0)) ∧
    Completes (.sclt p h f) s (gives (if a.toInt < b.toInt then 1 else 0))

/-- SADDI, SXORI, SLI, SLUI and SRD write D from A and the sign-extended immediate, or a special value: the step, the logical core, the
logical core count of the job, the seed, the loop indexes, the variant tag of the running role, and 0 for every other index (R176, R323, Tables
7.4, 7.14). -/
def Obligations.scalar_immediate_results : Prop :=
  ∀ (s : State) (p : Nat) (h : Hdr) (f : ScalI), s.calm p = true → predHolds h (s.core p) = true → f.d.toNat < 48 →
    let gives := fun (v : W64) (t : State) =>
      (t.core p).scal f.d.toNat = v ∧ (∀ r, r < 48 → r ≠ f.d.toNat → (t.core p).scal r = (s.core p).scal r) ∧
      (t.core p).v = (s.core p).v ∧ SameMem (s.core p) (t.core p) ∧ SameBut p s t ∧ NextBundle p s t
    (f.a.toNat < 48 → Completes (.saddi p h f) s (gives ((s.core p).scal f.a.toNat + f.imm.signExtend 64)) ∧
      Completes (.sxori p h f) s (gives ((s.core p).scal f.a.toNat ^^^ f.imm.signExtend 64))) ∧
    Completes (.sli p h f) s (gives (f.imm.signExtend 64)) ∧
    Completes (.slui p h f) s (gives (BitVec.ofNat 64 (((s.core p).scal f.d.toNat).toNat % 2 ^ 30 + f.imm.toNat % 4096 * 2 ^ 30))) ∧
    (f.imm = 0 → Completes (.srd p h f) s (gives (BitVec.ofNat 64 s.job.step))) ∧
    (f.imm = 1 → Completes (.srd p h f) s (gives (BitVec.ofNat 64 ((s.core p).curRole.getD 0)))) ∧
    (∀ m, f.imm = 2 → s.job.loaded = some m → Completes (.srd p h f) s (gives (BitVec.ofNat 64 m.logical))) ∧
    (f.imm = 9 → Completes (.srd p h f) s (gives (BitVec.ofNat 64 (s.roleTag p false)))) ∧
    (9 < f.imm.toNat → Completes (.srd p h f) s (gives 0)) ∧
    (f.imm = 3 → Completes (.srd p h f) s (gives (BitVec.ofNat 64 s.job.seedLo))) ∧
    (f.imm = 4 → Completes (.srd p h f) s (gives (BitVec.ofNat 64 s.job.seedHi))) ∧
    ∀ l : Nat, l < 4 → f.imm.toNat = 5 + l → Completes (.srd p h f) s (gives (BitVec.ofNat 64 ((s.core p).loops.getD l {}).idx))

/-- SLD and SST take 8 bytes of scratchpad at A + 8 × IMM; the result lands later (R556, Table 7.14). -/
def Obligations.scalar_memory_results : Prop :=
  ∀ (s : State) (p : Nat) (h : Hdr) (f : ScalI),
    let c := s.core p
    let addr := ((c.scal f.a.toNat).toNat + 8 * f.imm.toInt : Int).toNat
    let still := fun (t : State) => (t.core p).v = c.v ∧ (t.core p).s = c.s ∧ (t.core p).x = c.x ∧ SameMem c (t.core p) ∧ SameBut p s t ∧ NextBundle p s t
    (s.issues p h (actSldst false f s p) = true →
      Completes (.sld p h f) s (fun t => still t ∧ ∃ r, (t.core p).vpipe = [r] ∧ r.regs = [(scalId f.d.toNat, Mem.readNat c.spad addr 8)] ∧ r.spad = [])) ∧
    (s.issues p h (actSldst true f s p) = true →
      Completes (.sst p h f) s (fun t => still t ∧ ∃ r, (t.core p).vpipe = [r] ∧ r.regs = [] ∧ r.spad = [(addr, leBytes 8 (c.scal f.d.toNat).toNat)]))

/-! ## Control -/

/-- BARA sends one arrival token and counts it; RCSET sets its receive counter; LOGV raises one event with its value, tag and logical
core, and with TAG bit 15 adds a loss record to the loss log and to the attempt's records (R190, R199, R202, R451). -/
def Obligations.messages_of_control : Prop :=
  ∀ (s : State) (p : Nat) (h : Hdr) (b : BarF) (r : CtrF) (l : LogF), s.calm p = true → predHolds h (s.core p) = true →
    let k := barKey b.scope b.bctr.toNat
    let v := ((s.core p).scal l.a.toNat).toNat
    (SMap.get 0 (s.core p).arrB k ≤ SMap.get 0 (s.core p).doneB k → Completes (.bara p h b) s (fun t =>
      t.sn = s.sn ++ [{ typ := 3, head := (if b.scope then 60 else coreBay p), a := b.bctr.toNat, b := p }] ∧
      SMap.get 0 (t.core p).arrB k = SMap.get 0 (s.core p).arrB k + 1 ∧ SameMem (s.core p) (t.core p) ∧ NextBundle p s t)) ∧
    Completes (.rcset p h r) s (fun t => t.reg (recvReg p r.ctr.toNat) = r.value ∧ BookOnly (s.core p) (t.core p) ∧ NextBundle p s t) ∧
    (l.a.toNat < 48 → s.active ≠ none → Completes (.logv p h l) s (fun t =>
      (∃ e, t.evPending = s.evPending ++ [e] ∧ e.code = 0x0901 ∧ e.step = (if s.job.st = 0 then 0 else s.job.step) ∧
        e.payload = leBytes 8 v ++ leBytes 2 l.tag.toNat ++ [0, 0] ++ leBytes 4 (s.logicalOf p)) ∧
      (let new : List LossRec := if l.tag.getLsbD 15 then
          [{ step := s.job.step, core := s.logicalOf p, tag := l.tag.toNat, value := v, att := s.job.attempt }] else []
       t.job.attLosses = s.job.attLosses ++ new ∧ t.job.losses = s.job.losses ++ new) ∧
      BookOnly (s.core p) (t.core p) ∧ NextBundle p s t))

/-- LOOP opens its level over the next BODY bundles, or with COUNT 0 skips them; MSTR sets a level's stride; TREL releases the oldest
filled slot; ENDSTEP zeroes the receive counters, empties the array queue and holds the core (R197, R198, R200, R201). -/
def Obligations.flow_control_results : Prop :=
  ∀ (s : State) (p : Nat) (h : Hdr) (f : LoopF) (m : MstrF), s.calm p = true → predHolds h (s.core p) = true →
    (s.core p).loops.length = 4 → (s.core p).strides.length = 4 → s.plainNext p = true →
    let b := s.pc p
    let last := b + f.body.toNat
    (f.body ≠ 0 → last ≤ 8191 → f.count ≠ 0 → Completes (.loop p h f) s (fun t =>
      t.pc p = b + 1 ∧
      (t.core p).loops.getD f.lvl.toNat {} = ⟨true, b + 1, last, f.count.toNat, 0, (s.core p).strides.getD f.lvl.toNat 0⟩ ∧ SameMem (s.core p) (t.core p) ∧ SameBut p s t)) ∧
    (f.body ≠ 0 → last < 8191 → f.count = 0 → Completes (.loop p h f) s (fun t => t.pc p = last + 1 ∧ (t.core p).loops = (s.core p).loops)) ∧
    Completes (.mstr p h m) s (fun t => (t.core p).strides.getD m.lvl.toNat 0 = m.stride.toNat ∧
      (∀ l, l < 4 → l ≠ m.lvl.toNat → (t.core p).strides.getD l 0 = (s.core p).strides.getD l 0) ∧ t.pc p = b + 1 ∧ SameBut p s t) ∧
    ((s.core p).relIssued < (s.core p).nextFill → Completes (.trel p h) s (fun t =>
      (t.core p).relIssued = (s.core p).relIssued + 1 ∧ (t.core p).slots = (s.core p).slots ∧ t.pc p = b + 1 ∧ SameBut p s t)) ∧
    Completes (.endstep p h) s (fun t => (∀ i, i < 16 → t.reg (recvReg p i) = 0) ∧ (t.core p).dq = [] ∧ (t.core p).endHold = true ∧
      t.pc p = b ∧ t.fld (coreReg p 0 4) 13 13 = 1 ∧ SameMem (s.core p) (t.core p))

/-- WAITM on a mark that has arrived, WAITR on a count reached, BARW with no arrival open and FENCE on a drained core go on at once and
change nothing; a WAITM whose mark has not arrived holds the bundle with WAITING and WAIT_TYPE 1; a slot whose predicate fails does
nothing (R37, R173, R190, R193, R199, Tables 7.14, 7.18). -/
def Obligations.waits_and_skips : Prop :=
  (∀ (s : State) (p : Nat) (h : Hdr) (w : WaitmF) (r : CtrF) (b : BarF), s.calm p = true →
    let goesOn := fun (t : State) => BookOnly (s.core p) (t.core p) ∧ SameBut p s t ∧ NextBundle p s t
    ((s.core p).markMet w.kind.toNat (s.crossingNo (if w.role then 1 else 0), (s.core p).waitPlank w.base.toNat w.lm.toNat) = true →
      Completes (.waitm p h w) s goesOn) ∧
    (r.value.toNat ≤ (s.reg (recvReg p r.ctr.toNat)).toNat → Completes (.waitr p h r) s goesOn) ∧
    (SMap.get 0 (s.core p).arrB (barKey b.scope b.bctr.toNat) ≤ SMap.get 0 (s.core p).doneB (barKey b.scope b.bctr.toNat) →
      Completes (.barw p h b) s goesOn) ∧
    Completes (.fence p h) s goesOn) ∧
  (∀ (s : State) (p : Nat) (h : Hdr) (w : WaitmF), s.calm p = true →
    (s.core p).markMet w.kind.toNat (s.crossingNo (if w.role then 1 else 0), (s.core p).waitPlank w.base.toNat w.lm.toNat) = false →
    Completes (.waitm p h w) s (fun t => t.pc p = s.pc p ∧ t.fld (coreReg p 0 4) 13 13 = 1 ∧ t.fld (coreReg p 0 4) 16 14 = 1 ∧
      (t.core p).wait = .mark w.kind.toNat (s.crossingNo (if w.role then 1 else 0), (s.core p).waitPlank w.base.toNat w.lm.toNat) ∧
      SameMem (s.core p) (t.core p) ∧ SameBut p s t)) ∧
  (∀ (s : State) (p : Nat) (h : Hdr) (f : ScalF) (g : VxF) (k : LdF), s.calm p = true → predHolds h (s.core p) = false →
    let skips := fun (t : State) => BookOnly (s.core p) (t.core p) ∧ SameBut p s t ∧ NextBundle p s t
    Completes (.sadd p h f) s skips ∧ Completes (.vadd p h g) s skips ∧ Completes (.lds p h k) s skips)

/-- Program faults stop the core before the bundle and name code, bundle and slot: a scalar register field of 48 to 63 BAD_REGISTER (6), a
TREL with every slot released TAP_RELEASE (11), a format the array does not take BAD_FORMAT (3), a stack address outside the present
capacity STACK_RANGE (9) (R91, R192, R200, R206, R397, Table 7.16). -/
def Obligations.program_faults_stop_the_core : Prop :=
  (∀ (s : State) (p : Nat) (h : Hdr) (f : ScalF), s.calm p = true → predHolds h (s.core p) = true → s.job.st < 2 → s.active ≠ none →
    (48 ≤ f.d.toNat ∨ 48 ≤ f.a.toNat ∨ 48 ≤ f.b.toNat) →
    Completes (.sadd p h f) s (fun t =>
      (t.reg (coreReg p 0 8)).toNat = 6 + 256 * s.pc p + 2 ^ 21 * 4 + 2 ^ 24 ∧ t.running p = false ∧ t.pc p = s.pc p ∧
      (t.core p).s = (s.core p).s ∧ (t.core p).x = (s.core p).x ∧ ∃ e, t.evPending = s.evPending ++ [e] ∧ e.code = 0x0201)) ∧
  (∀ (s : State) (p : Nat) (h : Hdr), s.calm p = true → predHolds h (s.core p) = true → s.job.st < 2 → (s.core p).nextFill ≤ (s.core p).relIssued →
    Completes (.trel p h) s (fun t => t.fld (coreReg p 0 8) 7 0 = 11 ∧ t.fld (coreReg p 0 8) 24 24 = 1 ∧ t.running p = false ∧ t.pc p = s.pc p)) ∧
  (∀ (s : State) (p : Nat) (h : Hdr) (f : LdF), s.calm p = true → predHolds h (s.core p) = true → s.job.st < 2 → arrayFmt f.fmt.toNat = false →
    Completes (.lds p h f) s (fun t => t.fld (coreReg p 0 8) 7 0 = 3 ∧ t.fld (coreReg p 0 8) 23 21 = 0 ∧ t.fld (coreReg p 0 8) 24 24 = 1 ∧
      t.running p = false ∧ (t.core p).mulX = none ∧ (t.core p).x = (s.core p).x)) ∧
  (∀ (s : State) (p : Nat) (h : Hdr) (f : MvF), s.calm p = true → predHolds h (s.core p) = true → s.job.st < 2 →
    let src := ((s.core p).xreg f.xs.toNat).toNat
    let dst := ((s.core p).xreg f.xd.toNat).toNat
    let n := 64 * (f.len.toNat + 1)
    src % 64 = 0 → src < 2 ^ 42 → dst % 64 = 0 → (s.core p).spadOk dst n = true → s.stackOk src n = false →
    Completes (.msld p h f) s (fun t => t.fld (coreReg p 0 8) 7 0 = 9 ∧ t.fld (coreReg p 0 8) 23 21 = 3 ∧ t.running p = false ∧
      (t.core p).xfers = [] ∧ SameMem (s.core p) (t.core p)))

/-! ## The vector slot -/

/-- VADD to VSQRT work lane by lane with the rounding mode of RND, on FP32, BF16 or widened lanes (R138 to R141, R184, Table 7.9). -/
def Obligations.vector_elementwise_results : Prop :=
  ∀ (s : State) (p : Nat) (h : Hdr) (f : VxF),
    let m := Rnd.ofCode f.rnd.toNat
    let runs := fun (op : Nat) => s.issues p h (actVx op f s p) = true
    (runs 0x02 → Completes (.vadd p h f) s (VxEach p f (fun k a b _ => fpAdd k m (k.decode a) (k.decode b)) s)) ∧
    (runs 0x03 → Completes (.vsub p h f) s (VxEach p f (fun k a b _ => fpAdd k m (k.decode a) (k.decode b).neg) s)) ∧
    (runs 0x04 → Completes (.vmul p h f) s (VxEach p f (fun k a b _ => fpMul k m (k.decode a) (k.decode b)) s)) ∧
    (runs 0x05 → Completes (.vfma p h f) s (VxEach p f (fun k a b c => fpFma k m (k.decode a) (k.decode b) (k.decode c)) s)) ∧
    (runs 0x06 → Completes (.vfnma p h f) s (VxEach p f (fun k a b c => fpFma k m (k.decode a).neg (k.decode b) (k.decode c)) s)) ∧
    (runs 0x07 → Completes (.vmin p h f) s (VxEach p f (fun k a b _ => fpMin k a b) s)) ∧
    (runs 0x08 → Completes (.vmax p h f) s (VxEach p f (fun k a b _ => fpMax k a b) s)) ∧
    (runs 0x09 → Completes (.vamx p h f) s (VxEach p f (fun k a b _ => fpAmax k a b) s)) ∧
    (runs 0x0A → Completes (.vcmp p h f) s (VxEach p f (fun k a b _ =>
      ((if (fpCmp k (f.vs3.toNat % 8) a b).1 then 2 ^ k.width - 1 else 0), (fpCmp k (f.vs3.toNat % 8) a b).2)) s)) ∧
    (runs 0x0B → Completes (.vsel p h f) s (VxEach p f (fun _ a b c => ((if a = 0 then c else b), 0)) s)) ∧
    (runs 0x0C → Completes (.vdiv p h f) s (VxEach p f (fun k a b _ => fpDiv k m (k.decode a) (k.decode b)) s)) ∧
    (runs 0x0D → Completes (.vsqrt p h f) s (VxEach p f (fun k _ b _ => fpSqrt k m (k.decode b)) s))

/-- VMOV, VAND, VOR, VXOR, VSPL and VRNG write one register image: operand b, the bitwise operations, S[SX] in every lane, and one draw
per lane (R186, R297, Table 7.9). -/
def Obligations.vector_image_results : Prop :=
  ∀ (s : State) (p : Nat) (h : Hdr) (f : VxF),
    let c := s.core p
    let a := (c.vreg f.vs1.toNat).toNat
    let sv := (c.sreg f.sx.toNat).toNat
    let runs := fun (op : Nat) => s.issues p h (actVx op f s p) = true
    (runs 0x01 → Completes (.vmov p h f) s (VxResult p f f.ms (c.vxB f, 0) s)) ∧
    (runs 0x18 → Completes (.vand p h f) s (VxResult p f f.ms (a &&& c.vxB f, 0) s)) ∧
    (runs 0x19 → Completes (.vor p h f) s (VxResult p f f.ms (a ||| c.vxB f, 0) s)) ∧
    (runs 0x1A → Completes (.vxor p h f) s (VxResult p f f.ms (a ^^^ c.vxB f, 0) s)) ∧
    (runs 0x11 → Completes (.vspl p h f) s (VxResult p f false (unlanes 32 (List.replicate 64 (sv % 2 ^ 32)), 0) s)) ∧
    (runs 0x17 → Completes (.vrng p h f) s (VxResult p f false
      (unlanes 32 ((List.range 64).map (drawLane s.job.seedLo s.job.seedHi sv (c.curRole.getD 0) (if s.pc p = 0 then 0 else c.segRole) s.job.step)), 0)
      s))

/-- VHSUM, VHSSQ and VHAMX fold the 64 or 128 lanes of operand b in a tree and write S[SX]; BF16 lanes are widened first (R152, R153). -/
def Obligations.vector_horizontal_results : Prop :=
  ∀ (s : State) (p : Nat) (h : Hdr) (f : VxF),
    let m := Rnd.ofCode f.rnd.toNat
    let b := (s.core p).vxB f
    let xs := if f.ty = 0 then lanes 32 64 b else (lanes 16 128 b).map bf16To32
    let k := if f.ty = 0 then 6 else 7
    let add := fun x y => fpAdd fFP32 m (fFP32.decode x) (fFP32.decode y)
    let sq := xs.map (fun x => fpMul fFP32 m (fFP32.decode x) (fFP32.decode x))
    let ends := fun (r : List Nat × Fl) => VxIssued p f f.ms false [(idS f.sx.toNat, r.1.headD 0)] [] r.2 s
    let runs := fun (op : Nat) => s.issues p h (actVx op f s p) = true
    (runs 0x0E → Completes (.vhsum p h f) s (ends (treeFold add k xs 0))) ∧
    (runs 0x0F → Completes (.vhssq p h f) s (ends (treeFold add k (sq.map (fun x => x.1)) (sq.foldl (fun a x => a ||| x.2) 0)))) ∧
    (runs 0x10 → Completes (.vhamx p h f) s (ends (treeFold (fpAmax fFP32) k xs 0)))

/-- VCVT converts one group of 64 elements; VRUPD and VRCMB write a combined record to V[VD], V[VD + 1] and S[SX]; VVARP and VVARS divide
M2 by the count or the count less one. Conversions between formats that R142 to R145 do not list and the zero bits [63:32] of S[SX] after VRUPD and
VRCMB (log entry 41), and the variance of a count of 0 (log entry 19), are the model's choice (R142 to R145, R156 to R160, R185). -/
def Obligations.vector_convert_and_record_results : Prop :=
  ∀ (s : State) (p : Nat) (h : Hdr) (f : VxF),
    let c := s.core p
    let m := Rnd.ofCode f.rnd.toNat
    let vd := f.vd.toNat
    let sv := (c.sreg f.sx.toNat).toNat
    let old := fun (i : Nat) => (c.vreg i).toNat
    let tgt := f.vs3.toNat % 16
    let cv := vxConvert (f.vs1.toNat % 16) tgt f.ty.toNat m (c.vxB f) sv
    let rec' := fun (o : (Nat × Nat × Nat) × Fl × Nat) (ms : Bool) =>
      VxIssued p f ms false [(vd, o.1.2.1), (vd + 1, o.1.2.2), (idS f.sx.toNat, o.1.1)] [] o.2.1 s
    let var := fun (sub : Nat) => let r := vxVariance m (old (f.vs1.toNat + 1)) (sv % 2 ^ 32) sub; VxResult p f false (r.1, r.2.1) s
    let runs := fun (op : Nat) => s.issues p h (actVx op f s p) = true
    (runs 0x12 → f.md = false → Completes (.vcvt p h f) s (VxIssued p f f.ms false
      [(vd, putGroup (old vd) (fmtBits tgt) (if tgt = 0 then 0 else 64 * f.ty.toNat) cv.1)] [] cv.2 s)) ∧
    (runs 0x12 → f.md = true → Completes (.vcvt p h f) s (VxIssued p f f.ms true []
      [((c.xreg (vd % 16)).toNat + (if tgt = 0 then 0 else 8 * fmtBits tgt * f.ty.toNat), leBytes (8 * fmtBits tgt) (unlanes (fmtBits tgt) cv.1))] cv.2 s)) ∧
    (runs 0x13 → Completes (.vrupd p h f) s (rec' (recCombine (sv % 2 ^ 32) (old vd) (old (vd + 1)) 1 (c.vxB f) 0) f.ms)) ∧
    (runs 0x14 → Completes (.vrcmb p h f) s (rec' (recCombine (sv % 2 ^ 32) (old vd) (old (vd + 1))
      ((c.sreg (f.vs3.toNat % 32)).toNat % 2 ^ 32) (old f.vs1.toNat) (old (f.vs1.toNat + 1))) false)) ∧
    (runs 0x15 → Completes (.vvarp p h f) s (var 0)) ∧ (runs 0x16 → Completes (.vvars p h f) s (var 1))

/-! ## The array slot -/

/-- LDS, LDST, STRM, STRD and SCLR enter the multiply unit with their operands, and a load's INC moves X[XB] by 128 pitches and X[XS] by
512; nothing but the engine's queue changes (R93 to R98, R171, R180, R219, Table 7.6). -/
def Obligations.multiply_unit_accepts : Prop :=
  ∀ (s : State) (p : Nat) (h : Hdr) (f : LdF) (g : StrmF) (d : StrdF) (k : SclrF),
    let c := s.core p
    let x := fun (i : BitVec 4) => (c.xreg i.toNat).toNat
    let still := fun (t : State) => (t.core p).v = c.v ∧ (t.core p).s = c.s ∧ SameMem c (t.core p) ∧ SameBut p s t ∧ NextBundle p s t
    let loads := fun (kind : Nat) (t : State) => still t ∧ (t.core p).lastFmt = some f.fmt.toNat ∧
      (∃ o, (t.core p).mulX = some o ∧ o.kind = kind ∧ o.base = x f.xb ∧ o.pitch = x f.xp ∧ o.scale = x f.xs ∧ o.rows = f.rows.toNat + 1 ∧
        o.fmt = f.fmt.toNat) ∧
      (f.inc = true → f.xb ≠ f.xs → (t.core p).xreg f.xb.toNat = c.xreg f.xb.toNat + BitVec.ofNat 64 (128 * x f.xp) ∧
        (t.core p).xreg f.xs.toNat = c.xreg f.xs.toNat + 512) ∧ (f.inc = false → (t.core p).x = c.x)
    (s.issues p h (actLoad 0 f s p) = true → Completes (.lds p h f) s (loads 0)) ∧
    (s.issues p h (actLoad 1 f s p) = true → Completes (.ldst p h f) s (loads 1)) ∧
    (s.issues p h (actStrm g s p) = true → Completes (.strm p h g) s (fun t => still t ∧ (t.core p).x = c.x ∧
      ∃ o, (t.core p).mulX = some o ∧ o.kind = 2 ∧ o.base = x g.xsrc ∧ o.n = g.n.toNat + 1 ∧ o.fmt = g.fmt.toNat ∧ o.a = g.a.toNat ∧
        o.acc = g.form ∧ o.expl = g.ssrc ∧ o.scale = x g.xsc ∧ o.next = 0)) ∧
    (s.issues p h (actStrd d s p) = true → Completes (.strd p h d) s (fun t => still t ∧ (t.core p).x = c.x ∧
      ∃ o, (t.core p).mulX = some o ∧ o.kind = 3 ∧ o.n = (c.sreg d.sn.toNat).toNat ∧ o.fmt = d.fmt.toNat ∧ o.a = d.a.toNat ∧ o.acc = d.form)) ∧
    (s.issues p h (actSclr k s p) = true → Completes (.sclr p h k) s (fun t => still t ∧ (t.core p).x = c.x ∧
      ∃ o, (t.core p).mulX = some o ∧ o.kind = 4 ∧ o.reg = k.reg.toNat ∧ o.cnt = k.cnt.toNat + 1))

/-- EPI reads its descriptor at issue and starts its first attempt; SEXP sets EXPORT in its regions and queues the export (R113, R118,
R181, R557). -/
def Obligations.epilogue_and_export_accept : Prop :=
  ∀ (s : State) (p : Nat) (h : Hdr) (f : EpiF) (k : SexpF),
    let c := s.core p
    let addr := (c.xreg f.xd.toNat).toNat + 32 * f.off.toNat
    (s.issues p h (actEpi f s p) = true → Completes (.epi p h f) s (fun t =>
      (∃ e, (t.core p).epiX = some e ∧ e.addr = addr ∧ e.sillBase = Mem.readNat c.spad addr 2 ∧ e.cols = Mem.readNat c.spad (addr + 2) 2 ∧
        e.rows = Mem.readNat c.spad (addr + 4) 1 ∧ e.fmt = Mem.readNat c.spad (addr + 5) 1 ∧ e.outA = Mem.readNat c.spad (addr + 8) 4 ∧
        e.attempt = 0 ∧ e.step = s.fld (coreReg p 1 0x10) 3 0 ∧ e.bundle = s.pc p) ∧
      (t.core p).x = c.x ∧ SameMem c (t.core p) ∧ SameBut p s t ∧ NextBundle p s t)) ∧
    (s.issues p h (actSexp k s p) = true → Completes (.sexp p h k) s (fun t =>
      (∀ n, n < 64 → t.exporting p n = (s.exporting p n || decide (k.reg.toNat ≤ n ∧ n ≤ k.reg.toNat + k.cnt.toNat))) ∧
      (t.core p).exports = c.exports ++ [{ reg := k.reg.toNat, cnt := k.cnt.toNat + 1, bundle := s.pc p, pt := c.ptSeq }] ∧
      SameMem c (t.core p) ∧ NextBundle p s t))

/-! ## The dovetail and move slots -/

/-- Every DT operation enters the dovetail engine with its addresses, count, mode and, where it has one, its descriptor as it stands
when the operation enters an idle engine (R187, R208, R215, Table 7.10). -/
def Obligations.dovetail_accepts : Prop :=
  ∀ (s : State) (p : Nat) (h : Hdr) (f : DtF),
    let c := s.core p
    let x := fun (i : BitVec 4) => (c.xreg i.toNat).toNat
    let enters := fun (opc mode : Nat) (t : State) =>
      (∃ o, (t.core p).dtX = some o ∧ o.opc = opc ∧ o.xa = x f.xa ∧ o.xb = x f.xb ∧ o.sn = f.sn.toNat ∧ o.mode = mode ∧ o.a = f.a.toNat ∧
        o.acc = f.form ∧ o.prog = 0 ∧ (opc = 1 ∨ opc = 3 ∨ opc = 4 ∨ opc = 6 ∨ opc = 7 → o.n = (c.sreg f.sn.toNat).toNat) ∧
        (opc = 4 ∨ opc = 8 ∨ opc = 9 ∨ (opc = 5 ∧ mode ≠ 3) → o.desc = some (dtParse (Mem.read c.spad (x f.xc) 32)))) ∧
      (t.core p).v = c.v ∧ (t.core p).s = c.s ∧ (t.core p).x = c.x ∧ SameMem c (t.core p) ∧ SameBut p s t ∧ NextBundle p s t
    let runs := fun (opc : Nat) => s.issues p h (actDt opc f s p) = true
    (runs 1 → Completes (.dtld p h f) s (enters 1 f.mode.toNat)) ∧ (runs 2 → Completes (.dtclr p h f) s (enters 2 f.mode.toNat)) ∧
    (runs 3 → Completes (.dtmat p h f) s (enters 3 f.mode.toNat)) ∧ (runs 4 → Completes (.dtstr p h f) s (enters 4 f.mode.toNat)) ∧
    (runs 5 → Completes (.dtgat p h f) s (enters 5 f.mode.toNat)) ∧
    (s.issues p h (actDt 5 { f with mode := 3 } s p) = true → Completes (.dtgatCheck p h f) s (enters 5 3)) ∧
    (runs 6 → Completes (.dtsct p h f) s (enters 6 f.mode.toNat)) ∧ (runs 7 → Completes (.dtsrt p h f) s (enters 7 f.mode.toNat)) ∧
    (runs 8 → Completes (.dtcmp p h f) s (enters 8 f.mode.toNat)) ∧ (runs 9 → Completes (.dtexp p h f) s (enters 9 f.mode.toNat))

/-- Every MV operation starts its transfer: source, destination, LEN + 1 lines of 64 bytes and, for MSEND, class, counter and target;
INC moves XS and XD by its bytes; a stack transfer queues each line at the bay of its address, and a message its flits at the core's router,
those of class 2 for every target of the group's tree. That the lines of MSLD and MSST are requests at the bay hub and no flits is the model's
choice (log entry 41; R188 to R190, R348, R355, R401, Table 7.11). -/
def Obligations.move_starts : Prop :=
  ∀ (s : State) (p : Nat) (h : Hdr) (f : MvF),
    let c := s.core p
    let src := (c.xreg f.xs.toNat).toNat
    let dst := (c.xreg f.xd.toNat).toNat
    let lines := f.len.toNat + 1
    let starts := fun (opc : Nat) (t : State) =>
      (∃ x, (t.core p).xfers = [x] ∧ x.kind = opc ∧ x.src = src ∧ x.dst = dst ∧ x.lines = lines ∧ x.acc = f.form ∧ x.left = lines ∧
        (opc = 4 → x.cls = f.cls.toNat ∧ x.ctr = f.ctr.toNat)) ∧
      (∀ r, r < 16 → (t.core p).xreg r = c.xreg r + (if f.inc && (r == f.xs.toNat || r == f.xd.toNat) then BitVec.ofNat 64 (64 * lines) else 0)) ∧
      (t.core p).v = c.v ∧ (t.core p).s = c.s ∧ SameMem c (t.core p) ∧ t.stack = s.stack ∧ NextBundle p s t
    let runs := fun (opc : Nat) => s.issues p h (actMv opc f s p) = true
    (runs 1 → Completes (.mcpy p h f) s (fun t => starts 1 t ∧ SameBut p s t)) ∧
    (runs 2 → Completes (.msld p h f) s (fun t => starts 2 t ∧ ∀ b, (t.bay b).q = (s.bay b).q ++
      (((List.range lines).map (fun i => src + 64 * i)).filter (fun a => a / 2 ^ 36 == b)).map (fun a =>
        { core := p, wr := false, addr := a, spad := dst + (a - src), data := [] }))) ∧
    (runs 3 → Completes (.msst p h f) s (fun t => starts 3 t ∧ ∀ b, (t.bay b).q = (s.bay b).q ++
      (((List.range lines).map (fun i => dst + 64 * i)).filter (fun a => a / 2 ^ 36 == b)).map (fun a =>
        { core := p, wr := true, addr := a, spad := src + (a - dst), data := Mem.read c.spad (src + (a - dst)) 64 }))) ∧
    (runs 4 → f.cls.toNat ≤ 1 → Completes (.msend p h f) s (fun t => starts 4 t ∧
      ∃ fl, SMap.get [] (t.rtr p).inb 0 ++ (t.rtr p).wait = SMap.get [] (s.rtr p).inb 0 ++ (s.rtr p).wait ++ fl ∧ fl.length = ceilDiv lines 4 ∧
        ∀ g ∈ fl, g.src = p ∧ g.dst = s.mapOf p (c.sreg f.st.toNat).toNat ∧ g.cls = f.cls.toNat)) ∧
    (runs 4 → f.cls = 2 → Completes (.msend p h f) s (fun t => starts 4 t ∧
      (∃ x, (t.core p).xfers = [x] ∧ x.dsts = (s.mcTargets (c.sreg f.st.toNat).toNat 112 p).map (fun q => (q, ceilDiv lines 4))) ∧
      ∃ fl, SMap.get [] (t.rtr p).inb 0 ++ (t.rtr p).wait = SMap.get [] (s.rtr p).inb 0 ++ (s.rtr p).wait ++ fl ∧ fl.length = ceilDiv lines 4 ∧
        ∀ g ∈ fl, g.src = p ∧ g.grp = (c.sreg f.st.toNat).toNat ∧ g.cls = 2)) ∧
    (runs 5 → Completes (.msrd p h f) s (fun t => starts 5 t ∧ SameBut p s t)) ∧
    (runs 6 → Completes (.mswr p h f) s (fun t => starts 6 t ∧ SameBut p s t))

/-! ## Engines at work -/

/-- LOAD_COMPLETE puts the loaded rows, or with LDST the columns of the stored rows, and their block scales into the stationary tile and
starts the pending operation, but not in a rollback; REGION_CLEAR_DONE zeroes a region's accumulators, counter and flags but not EXPORT (R74,
R93 to R97, R171, Table 16.2). -/
def Obligations.load_and_clear_complete : Prop :=
  ∀ (s : State) (p : Nat) (o : MulOp), p < 2880 → s.coreUp p = true → (s.core p).mulX = some o →
    let c := s.core p
    let w := fmtBits o.fmt
    let loads := fun (P : Tile → Prop) => Completes (.loadComplete p) s (fun t =>
      (∃ x, (t.core p).tile = some x ∧ x.fmt = o.fmt ∧ x.rows = o.rows ∧ P x ∧
        ∀ r q, r < o.rows → q < 4 → (lanes 8 4 (x.scs.getD r 0)).getD q 0 = if isMx o.fmt then (Mem.byte c.spad (o.scale + 128 * q + r)).toNat else 127) ∧
      (c.rolling = false → (t.core p).mulX = c.mulP ∧ (t.core p).mulP = none) ∧ (c.rolling = true → (t.core p).mulX = none ∧ (t.core p).mulP = c.mulP) ∧
      SameMem c (t.core p) ∧ SameBut p s t)
    (o.kind = 0 → c.rangeFilled (loadRanges 0 o.base o.pitch o.rows o.fmt o.scale) = true → c.epiBefore o = false →
      loads (fun x => ∀ r, r < o.rows → x.els.getD r 0 = Mem.readNat c.spad (o.base + r * o.pitch) (rowBytes o.fmt))) ∧
    (o.kind = 1 → c.rangeFilled (loadRanges 1 o.base o.pitch o.rows o.fmt o.scale) = true → c.epiBefore o = false →
      loads (fun x => ∀ r k, r < o.rows → r < 128 → k < 128 → (lanes w 128 (x.els.getD r 0)).getD k 0 =
        (lanes w 128 (Mem.readNat c.spad (o.base + k * o.pitch) (rowBytes o.fmt))).getD r 0)) ∧
    (o.kind = 4 → o.reg + o.next < 64 → c.point = none → Completes (.regionClearDone p) s (fun t =>
      (∀ a r, a / 64 = o.reg + o.next → r < 128 → (t.core p).acc a r = 0) ∧
      (∀ x, x < (o.reg + o.next) * 32768 ∨ (o.reg + o.next + 1) * 32768 ≤ x → Mem.byte (t.core p).sill x = Mem.byte c.sill x) ∧
      t.reg (regnReg p (o.reg + o.next)) = s.reg (regnReg p (o.reg + o.next)) &&& 0x10000 ∧
      (t.core p).mulX = (if o.cnt ≤ o.next + 1 then (if c.rolling then none else c.mulP) else some { o with next := o.next + 1 }) ∧ (t.core p).spad = c.spad))

/-- COLUMN_ENTER sends each tile row's sum to its bank at the stream's address, overwriting or accumulating by FORM, and steps the
stream: a column of scratchpad for STRM, the column at the head of the array queue for STRD; both columns of an MXFP4 pair enter together
against an MXFP4 tile, and one enters alone where its pair's other column has gone before or the stream ends (R72, R90, R99 to R102, R105,
R220). -/
def Obligations.column_enters : Prop :=
  ∀ (s : State) (p : Nat) (o : MulOp) (w : Tile) (col two : ColIn), p < 2880 → s.coreUp p = true → (s.core p).mulX = some o → (s.core p).tile = some w →
    (s.core p).rolling = false → (s.core p).point = none → o.next < o.n →
    w.els.length = w.rows → w.scs.length = w.rows → w.rows ≤ 128 →
    let c := s.core p
    let pair := o.fmt = 10 ∧ w.fmt = 10 ∧ o.next % 2 = 0 ∧ o.next + 1 < o.n
    let enters := fun (k : Nat) (t : State) =>
      (∀ j r, j < k → r < w.rows →
        let x := if j = 0 then col else two
        let v := (rowDot w.fmt o.fmt (lanes (fmtBits w.fmt) 128 (w.els.getD r 0)) x.1 (lanes 8 4 (w.scs.getD r 0)) x.2.1).1
        (t.core p).acc (o.a + o.next + j) r = (if o.acc then add32 (c.acc (o.a + o.next + j) r) v else v) % 2 ^ 32) ∧
      (∀ x, (∀ j, j < k → x < (o.a + o.next + j) * 512 ∨ (o.a + o.next + j) * 512 + 4 * w.rows ≤ x) →
        Mem.byte (t.core p).sill x = Mem.byte c.sill x) ∧
      (o.next + k < o.n → ∃ q, (t.core p).mulX = some q ∧ q.next = o.next + k ∧ q.n = o.n) ∧ (o.n ≤ o.next + k → (t.core p).mulX = c.mulP) ∧
      (t.core p).dq = (if o.kind = 3 then c.dq.drop k else c.dq) ∧ (t.core p).spad = c.spad
    (¬pair → o.a + o.next < 4096 → (∀ y, c.mulP = some y → y.ser ≠ o.ser) →
      (o.kind = 2 ∧ c.rangeFilled (c.columnRanges o o.next) = true ∧ c.epiBefore o = false ∧ col = c.strmColumn o o.next ∨
       o.kind = 3 ∧ ∃ q rest, c.dq = q :: rest ∧ col = queueColumn q o.fmt) →
      Completes (.columnEnter p) s (enters 1)) ∧
    (pair → o.a + o.next + 1 < 4096 →
      (o.kind = 2 ∧ c.rangeFilled (c.columnRanges o o.next) = true ∧ c.rangeFilled (c.columnRanges o (o.next + 1)) = true ∧ c.epiBefore o = false ∧
         col = c.strmColumn o o.next ∧ two = c.strmColumn o (o.next + 1) ∨
       o.kind = 3 ∧ ∃ q y rest, c.dq = q :: y :: rest ∧ col = queueColumn q o.fmt ∧ two = queueColumn y o.fmt) →
      Completes (.columnEnter p) s (enters 2))

/-- EPI_ATTEMPT_DONE of an attempt that saturates nothing writes D_USED and ATTEMPT into its descriptor and ends the epilogue; one that
saturates before its fourth attempt is retried with the next attempt number; the fourth keeps what saturates, ends as well, counts in SATURATED
and, at a core that holds no green datum, raises EPI_SATURATED once in a crossing; every attempt but the first counts in RETRIES as it completes
(R118, R119, R122, Table 4.8; sizes of the payload by log entry 14, the model's choice). -/
def Obligations.epilogue_attempts : Prop :=
  ∀ (s : State) (p : Nat) (e : EpiOp), p < 2880 → s.coreUp p = true → (s.core p).epiX = some e → (s.core p).epiReady e = true →
    let c := s.core p
    let sat := (c.epiAttempt e).2.2 &&& flSaturate
    let d : Int := if e.d - e.attempt * e.step < -127 then -127 else e.d - e.attempt * e.step
    let counted := fun (t : State) =>
      t.fld (coreReg p 1 0x14) 15 0 = min 65535 (s.fld (coreReg p 1 0x14) 15 0 + (if e.attempt = 0 then 0 else 1))
    let ends := fun (t : State) =>
      Mem.byte (t.core p).spad (e.addr + 31) = BitVec.ofNat 8 e.attempt ∧ Mem.byte (t.core p).spad (e.addr + 30) = BitVec.ofNat 8 (wrapInt 8 d) ∧
      (c.rolling = false → (t.core p).epiX = c.epiP ∧ (t.core p).epiP = none) ∧ (c.rolling = true → (t.core p).epiX = none ∧ (t.core p).epiP = c.epiP) ∧
      (t.core p).sill = c.sill ∧ counted t
    (sat = 0 → e.attempt < 256 → c.point = none ∨ e.pt = c.ptSeq → Completes (.epiAttemptDone p) s ends) ∧
    (sat ≠ 0 → e.attempt < 3 → Completes (.epiAttemptDone p) s (fun t =>
      (∃ q, (t.core p).epiX = some q ∧ q.attempt = e.attempt + 1 ∧ q.cols = e.cols ∧ q.outA = e.outA) ∧ (t.core p).epiP = c.epiP ∧ counted t)) ∧
    (sat ≠ 0 → e.attempt = 3 → c.point = none ∨ e.pt = c.ptSeq → Completes (.epiAttemptDone p) s (fun t => ends t ∧
      t.fld (coreReg p 1 0x14) 23 16 = min 255 (s.fld (coreReg p 1 0x14) 23 16 + 1) ∧
      (e.mask = 0 → (∀ r, c.regnMask r = 0) → c.greenEv = [] → c.raised.contains 0x0204 = false → s.active ≠ none →
        e.foot.rr.all (fun r => !bit (s.reg (regnReg p r)).toNat 13) = true →
        ∃ v, t.evPending = s.evPending ++ [v] ∧ v.code = 0x0204 ∧
          v.payload = leBytes 4 (s.logicalOf p) ++ leBytes 2 (physCode p) ++ leBytes 2 e.bundle ++ leBytes 1 (wrapInt 8 d))))

/-- DOVETAIL_DONE: a DTLD loads its records into the match table, a DTCLR empties it, a DTMAT writes the pairs of the keys found and their
count, a DTSTR or DTGAT places its next column in the array queue, a DTSCT puts at most 16 records into the banks' queues in list order, a DTSRT
writes directory and rows, a DTCMP the compressed tile or the packed live blocks, a DTEXP the rows of the tile, and a check with no open
prediction sets CHECK_UNMATCHED; the pending operation starts as one ends, but not in a rollback; SCATTER_RECORD_TAKEN overwrites or accumulates
one bank (R210, R211, R213, R217 to R219, R224 to R227, R229, R232, R233, R235, R238 to R241; tiles that contradict themselves by log entry 41,
the model's choice). -/
def Obligations.dovetail_completes : Prop :=
  ∀ (s : State) (p : Nat) (o : DtOp), p < 2880 → s.coreUp p = true →
    let c := s.core p
    let d := o.desc.getD default
    let w := fmtBits d.fmt
    let next := fun (t : State) => (c.rolling = false → (t.core p).dtX = c.dtP.map (t.core p).dtStart ∧ (t.core p).dtP = none) ∧
      (c.rolling = true → (t.core p).dtX = none ∧ (t.core p).dtP = c.dtP)
    let ready := c.dtX = some o ∧ c.point = none ∧ o.sn < 32 ∧ (∀ a n, c.filled a n = true)
    let lands := fun (n : Nat) (t : State) => (t.core p).sreg o.sn = BitVec.ofNat 64 n
    let writes := fun (a : Nat) (bs : List Byte) (t : State) => (∀ i, i < bs.length → Mem.byte (t.core p).spad (a + i) = bs.getD i 0) ∧
      ∀ x, x < a ∨ a + bs.length ≤ x → Mem.byte (t.core p).spad x = Mem.byte c.spad x
    (ready → o.opc = 1 →
      let r := dtLoad ((List.range o.n).map (fun i => let r := Mem.readNat c.spad (o.xa + 8 * i) 8; (r % 2 ^ 32, r / 2 ^ 32))) 0 c.dtab false
      Completes (.dovetailDone p) s (fun t => (t.core p).dtab = r.1 ∧ lands (r.2.1.getD o.n) t ∧ next t ∧ SameMem c (t.core p) ∧
        (r.2.1 ≠ none → bit (t.reg (coreReg p 3 0)).toNat 0 = true) ∧ (r.2.2 = true → bit (t.reg (coreReg p 3 0)).toNat 1 = true))) ∧
    (c.dtX = some o → o.opc = 2 → Completes (.dovetailDone p) s (fun t =>
      (t.core p).dtab = [] ∧ next t ∧ SameMem c (t.core p) ∧ SameBut p s t)) ∧
    (ready → o.opc = 3 →
      let hits := (List.range o.n).filterMap (fun i =>
        let k := Mem.readNat c.spad (o.xa + 4 * i) 4
        ((setEntries c.dtab (dtSet k)).find? (fun e => e.2.1 == k)).map (fun e => (i, e.2.2)))
      Completes (.dovetailDone p) s (fun t => lands hits.length t ∧ next t ∧ (t.core p).dtab = c.dtab ∧
        writes o.xb (hits.flatMap (fun h => leBytes 4 h.1 ++ leBytes 4 h.2)) t)) ∧
    (ready → o.opc = 4 ∨ o.opc = 5 ∧ o.mode ≠ 3 → c.dq.length < 16 →
      let k := c.picks o d
      o.prog < k.2.1 → Completes (.dovetailDone p) s (fun t => SameMem c (t.core p) ∧
        (∃ q, (t.core p).dq = c.dq ++ [q] ∧ q.fmt = d.fmt ∧ ∀ i, i < 128 →
          (q.els.getD i 0, q.scs.getD i 0) = ((k.1 (o.prog / o.n) i).map (c.dense d o.xb (o.prog % o.n))).getD (0, 127)) ∧
        (o.prog + 1 < k.2.1 → ∃ x, (t.core p).dtX = some x ∧ x.prog = o.prog + 1 ∧ x.opc = o.opc ∧ (t.core p).dtP = c.dtP) ∧
        (k.2.1 ≤ o.prog + 1 → next t ∧ (o.opc = 5 → o.mode ≠ 0 → lands (ceilDiv k.2.2.length 4) t)))) ∧
    (c.dtX = some o → o.opc = 5 → o.mode = 3 → c.preds.all (fun e => e.isNone) = true → Completes (.dovetailDone p) s (fun t =>
      bit (t.reg (coreReg p 3 0)).toNat 7 = true ∧ next t ∧ SameMem c (t.core p))) ∧
    (ready → o.opc = 6 →
      let recs := (c.scatterRecs o.xa o.n o.a).drop o.prog
      Completes (.dovetailDone p) s (fun t => SameMem c (t.core p) ∧
        ∃ new, (t.core p).scq = c.scq ++ new ∧ new.map (fun r => (r.bank, r.addr, r.val)) = recs.take new.length ∧ (∀ r ∈ new, r.acc = o.acc) ∧
          new.length ≤ 16 ∧ (new.length < 16 → new.length < recs.length →
            8 ≤ ((c.scq ++ new).filter (fun r => r.bank == (recs.getD new.length (0, 0, 0)).1)).length) ∧
          (o.n ≤ o.prog + new.length → next t) ∧
          (o.prog + new.length < o.n → ∃ x, (t.core p).dtX = some x ∧ x.prog = o.prog + new.length ∧ x.opc = 6))) ∧
    (ready → o.opc = 7 →
      let rows := sortRows c o
      let dir := (List.range 16).map (fun b => let r := rows.filter (fun x => x.2.2 == b); (r.length, (r.map (fun x => x.2.1)).sum))
      let first := fun b => ((dir.drop (b + 1)).map (fun e => e.1)).sum
      let head := (List.range 16).flatMap (fun b => let e := dir.getD b (0, 0); leBytes 4 e.1 ++ leBytes 4 (first b) ++ leBytes 8 e.2)
      let body := (List.range 16).reverse.flatMap (fun b => (rows.filter (fun x => x.2.2 == b)).flatMap (fun x =>
        leBytes 8 (x.1 + 2 ^ 32 * x.2.1 + heavyOf dir o.mode x.2.1 b)))
      Completes (.dovetailDone p) s (fun t => writes o.xb (head ++ body) t ∧ next t ∧ (t.core p).sill = c.sill ∧ SameBut p s t)) ∧
    (ready → o.opc = 8 → o.mode = 0 → Completes (.dovetailDone p) s (fun t => next t ∧ (t.core p).sill = c.sill ∧ SameBut p s t ∧
      writes o.xb (compressTile d.fmt w (if isMx d.fmt then Mem.read c.spad d.scA 512 else []) ((c.tileEls o.xa d.pitch w).map (fp6Code d.fmt))) t)) ∧
    (ready → o.opc = 8 → o.mode ≠ 0 → isMx d.fmt = false →
      let live := c.live d.maskA d.kLen
      let ch := ceilDiv live.length 4
      Completes (.dovetailDone p) s (fun t => lands ch t ∧ next t ∧ (t.core p).sill = c.sill ∧
        writes o.xb ((List.range (128 * ch)).flatMap (fun i => match live[i / 32]? with
          | some b => Mem.read c.spad (o.xa + (32 * b + i % 32) * d.pitch) (rowBytes d.fmt)
          | none => List.replicate (rowBytes d.fmt) 0)) t)) ∧
    (ready → 9 ≤ o.opc → Completes (.dovetailDone p) s (fun t => next t ∧ (t.core p).sill = c.sill ∧ SameBut p s t ∧
      (isMx d.fmt = true → ∀ i, i < 512 → Mem.byte (t.core p).spad (d.scA + i) = Mem.byte c.spad (o.xa + 16 + i)) ∧
      (isMx d.fmt = false → 16 * w ≤ d.pitch → ∀ r, r < 128 → Mem.readNat (t.core p).spad (o.xb + r * d.pitch) (16 * w) =
        unlanes w (((((c.expandEls o.xa 0 w).map (fp6Code d.fmt)).drop (128 * r)).take 128)) % 2 ^ (128 * w)))) ∧
    ∀ (r : ScRec), c.scq.find? (fun x => x.bank == r.bank) = some r → r.bank < 128 → c.point = none →
      Completes (.scatterRecordTaken p r.bank) s (fun t =>
        (t.core p).acc r.addr r.bank = (if r.acc then add32 (c.acc r.addr r.bank) r.val else r.val) % 2 ^ 32 ∧
        (t.core p).scq = c.scq.erase r ∧ (t.core p).spad = c.spad ∧
        ∀ x, x < r.addr * 512 + 4 * r.bank ∨ r.addr * 512 + 4 * r.bank + 4 ≤ x → Mem.byte (t.core p).sill x = Mem.byte c.sill x)

/-- MOVE_TRANSFER_DONE of an MCPY, MSRD or MSWR copies its lines, that of an MSLD, MSST or MSEND waits for its last line or target; it
frees its place and the next transfer of the core starts. MSEND_DELIVERY raises the target's receive counter by one modulo 2^32 (R188, R189,
R190; that transfers complete in issue order is the model's choice, log entry 20). -/
def Obligations.moves_complete : Prop :=
  ∀ (s : State) (p : Nat) (x : Xfer) (rest : List Xfer), p < 2880 → s.coreUp p = true → (s.core p).xfers = x :: rest →
    let c := s.core p
    let ends := fun (P : State → Prop) => Completes (.moveTransferDone p) s (fun t => ∃ u, t = u.startXfer p ∧ (rest = [] → t = u) ∧
      SameMem (u.core p) (t.core p) ∧ (u.core p).xfers = rest ∧ (∀ q, q ≠ p → u.core q = s.core q) ∧ u.bays = s.bays ∧ u.stack = s.stack ∧ P u)
    let copied := fun (m : Mem) (u : State) => (∀ i, i < 64 * x.lines → Mem.byte (u.core p).spad (x.dst + i) = Mem.byte m (x.src + i)) ∧
      (∀ a, a < x.dst ∨ x.dst + 64 * x.lines ≤ a → Mem.byte (u.core p).spad a = Mem.byte c.spad a) ∧ (u.core p).sill = c.sill ∧ SameBut p s u
    (x.kind = 1 → c.point = none → ends (copied c.spad)) ∧
    (x.kind = 5 → c.point = none → ends (copied c.sill)) ∧
    (x.kind = 2 ∨ x.kind = 3 → (x.left = 0 → ends (fun u => SameMem c (u.core p) ∧ SameBut p s u)) ∧
      (x.left ≠ 0 → Completes (.moveTransferDone p) s (fun t => t = s))) ∧
    (x.kind = 4 → (x.dsts = [] → ends (fun u => SameMem c (u.core p) ∧ SameBut p s u)) ∧
      (x.dsts ≠ [] → Completes (.moveTransferDone p) s (fun t => t = s))) ∧
    (x.kind = 6 → c.point = none → x.dst % 64 = 0 → ends (fun u => (u.core p).spad = c.spad ∧
      (∀ i, i < 16 * x.lines →
        let a := (x.dst + 4 * i) / 512
        let r := (x.dst + 4 * i) % 512 / 4
        let v := Mem.readNat c.spad (x.src + 4 * i) 4
        (u.core p).acc a r = (if x.acc then add32 (c.acc a r) v else v) % 2 ^ 32) ∧
      ∀ a, a < x.dst ∨ x.dst + 64 * x.lines ≤ a → Mem.byte (u.core p).sill a = Mem.byte c.sill a)) ∧
    (∀ q, x.kind = 4 → (q, 0) ∈ x.dsts → q < 2880 → x.ctr < 16 → Completes (.msendDelivery p q) s (fun t =>
      t.reg (recvReg q x.ctr) = s.reg (recvReg q x.ctr) + 1 ∧ (∀ a, a ≠ recvReg q x.ctr → t.reg a = s.reg a) ∧
      ∃ y, (t.core p).xfers = y :: rest ∧ y.dsts = x.dsts.erase (q, 0)))

/-- RESULT_LANDS writes the oldest result's register or scratchpad bytes; STACK_ACCESS performs the access that its channel comes to: a
write stores its bytes in the stack, a read brings 64 bytes to the core's scratchpad, a host's read its answer, and nothing else changes; in a
guarded block a write waits, and at a bay that holds accesses or for a channel that nothing waits for nothing happens (R150, R401, R403, R412,
R447; that results land oldest first is the model's choice, log entry 20). -/
def Obligations.results_and_lines_land : Prop :=
  (∀ (s : State) (p : Nat) (r : VRes) (rest : List VRes), p < 2880 → s.coreUp p = true → (s.core p).vpipe = r :: rest → (s.core p).point = none →
    (∀ id v, r.regs = [(id, v)] → r.spad = [] → id < 64 → Completes (.resultLands p) s (fun t =>
      (t.core p).vreg id = BitVec.ofNat 2048 v ∧ (∀ q, q < 64 → q ≠ id → (t.core p).vreg q = (s.core p).vreg q) ∧
      (t.core p).s = (s.core p).s ∧ (t.core p).vpipe = rest ∧ SameMem (s.core p) (t.core p))) ∧
    (∀ a bs, r.regs = [] → r.spad = [(a, bs)] → Completes (.resultLands p) s (fun t =>
      (∀ i, i < bs.length → Mem.byte (t.core p).spad (a + i) = bs.getD i 0) ∧
      (∀ x, x < a ∨ a + bs.length ≤ x → Mem.byte (t.core p).spad x = Mem.byte (s.core p).spad x) ∧
      (t.core p).v = (s.core p).v ∧ (t.core p).s = (s.core p).s ∧ (t.core p).vpipe = rest ∧ (t.core p).sill = (s.core p).sill)) ∧
    Completes (.resultLands p) s (fun t => ∀ i, i < 8 → r.fl.getLsbD i = true → bit (t.reg (coreReg p 2 0x80)).toNat i = true)) ∧
  (∀ (s : State) (bay ch : Nat), bay < 60 → ch < 32 →
    (s.bayWaits bay = true ∨ s.bayUp bay = false ∨ s.nextAccess bay ch = none → Completes (.stackAccess bay ⟨ch, 0⟩) s (fun t => t = s)) ∧
    ∀ r : SReq, s.bayUp bay = true → s.bayWaits bay = false → s.nextAccess bay ch = some r →
      let mine := (blocksOf r.addr r.span).any s.job.guard.contains
      (r.kind ≤ 1 → r.wr = true → mine = false → Completes (.stackAccess bay ⟨ch, 0⟩) s (fun t =>
        (∀ i, i < r.data.length → Mem.byte t.stack (r.addr + i) = r.data.getD i 0) ∧
        (∀ a, a < r.addr ∨ r.addr + r.data.length ≤ a → Mem.byte t.stack a = Mem.byte s.stack a) ∧
        (t.bay bay).q = (s.bay bay).q.erase r ∧ ∀ q, (t.core q).spad = (s.core q).spad)) ∧
      (r.wr = true → mine = true → Completes (.stackAccess bay ⟨ch, 0⟩) s (fun t => t = s)) ∧
      (r.kind = 0 → r.wr = false → (s.core r.core).point = none → Completes (.stackAccess bay ⟨ch, 0⟩) s (fun t =>
        (∀ i, i < 64 → Mem.byte (t.core r.core).spad (r.spad + i) = Mem.byte s.stack (r.addr + i)) ∧
        (∀ a, a < r.spad ∨ r.spad + 64 ≤ a → Mem.byte (t.core r.core).spad a = Mem.byte (s.core r.core).spad a) ∧
        t.stack = s.stack ∧ (t.bay bay).q = (s.bay bay).q.erase r)) ∧
      (r.kind = 2 → r.wr = false → Completes (.stackAccess bay ⟨ch, 0⟩) s (fun t => t.back = { data := Mem.read s.stack r.addr r.spad } ∧
        t.stack = s.stack ∧ t.cores = s.cores ∧ (t.bay bay).q = (s.bay bay).q.erase r)))

/-! ## Core events -/

/-- SLOT_RELEASE frees the oldest released slot once it is full and read; ENDSTEP_RESTART clears registers and loop state and starts at
bundle 0; MARK_STALL and SEG_OVERRUN report; SPAD_PROMOTE costs only time (R41, R46, R68, R81, R200, R201; sizes and order of the fields of
the payload by log entry 14, the model's choice). -/
def Obligations.core_events : Prop :=
  ∀ (s : State) (p : Nat), p < 2880 → s.coreUp p = true →
    let c := s.core p
    let k := c.relDone % max 1 c.tapSlots
    (c.relDone < c.relIssued → 256 ≤ (c.slot k).beats → (c.slot k).green = false → c.feet = [] → c.rolling = false → c.stored = none →
      Completes (.slotRelease p) s (fun t => (t.core p).relDone = c.relDone + 1 ∧ (t.core p).relCount = c.relCount + 1 ∧
        (t.core p).slot k = {} ∧ (∀ j, j ≠ k → (t.core p).slot j = c.slot j) ∧ SameMem c (t.core p) ∧ ∀ a, t.reg a = s.reg a)) ∧
    (c.endHold = true → c.restart = true → c.exports = [] → Completes (.endstepRestart p) s (fun t =>
      t.pc p = 0 ∧ t.fld (coreReg p 0 4) 13 13 = 0 ∧ (∀ r, (t.core p).vreg r = 0) ∧ (∀ r, (t.core p).sreg r = 0) ∧ (∀ r, (t.core p).xreg r = 0) ∧
        (t.core p).endHold = false ∧ (t.core p).tile = none ∧ SameMem c (t.core p) ∧ SameBut p s t)) ∧
    (∀ kind m, c.stalled = false → s.fld (coreReg p 0 4) 13 13 = 1 → s.fld (gloReg 0x100) 31 16 ≠ 0 → c.wait = .mark kind m → s.active ≠ none →
      Completes (.markStall p) s (fun t => (t.core p).stalled = true ∧
        ∃ e, t.evPending = s.evPending ++ [e] ∧ e.code = 0x0202 ∧
          e.payload = leBytes 4 (s.logicalOf p) ++ leBytes 2 (physCode p) ++ leBytes 1 kind ++ [0] ++ leBytes 2 m.1 ++ [0, 0] ++ leBytes 4 m.2)) ∧
    (∀ m i len, s.job.loaded = some m → (SMap.get [] m.segs (c.curRole.getD 0xFFFFFFFF)).findIdx? (fun e => e.1 == c.seg) = some i → i < 4096 →
      ((SMap.get [] m.segs (c.curRole.getD 0xFFFFFFFF)).getD i (0, 0, 0)).2.1 + ((SMap.get [] m.segs (c.curRole.getD 0xFFFFFFFF)).getD i (0, 0, 0)).2.2 < len →
      Completes (.segOverrun p len) s (fun t => t.fld (coreReg p 0 0x88) 15 0 = min 65535 (s.fld (coreReg p 0 0x88) 15 0 + 1) ∧
        t.fld (coreReg p 0 0x88) 28 16 = i ∧ t.fld (coreReg p 0 0x88) 29 29 = 1 ∧ ∀ a, a ≠ coreReg p 0 0x88 → t.reg a = s.reg a)) ∧
    ∀ req bank n, Completes (.spadPromote p req bank n) s (fun t => t = s)

/-- CORE_RUN writes RUN of a running bay's core, but sets it at no fenced core; CORE_STEP of an empty bundle moves the PC on;
ISTORE_DATA stores or reads the word ISTORE_ADDR names and moves it on under AUTO_INC (R85, R167, R207, R509). -/
def Obligations.core_run_and_store : Prop :=
  ∀ (s : State) (p : Nat), p < 2880 → s.bayUp (coreBay p) = true →
    let c := s.core p
    let a := coreReg p 0 0x50
    let w := 4 * s.fld a 17 2
    (s.fenced p = false → ∀ v, Completes (.coreRun p v) s (fun t => t.running p = v ∧ t.cores = s.cores ∧ ∀ r, r ≠ coreReg p 0 0 → t.reg r = s.reg r)) ∧
    (s.fenced p = true → Completes (.coreRun p true) s (fun t => t = s)) ∧
    (s.mayIssue p = true → s.running p = false → c.pcEnd = false → c.feet = [] → c.seasoned = true → (s.bundleAt p (s.pc p)).slots p = [] →
      Completes (.coreStep p) s (fun t => BookOnly c (t.core p) ∧ SameBut p s t ∧ NextBundle p s t)) ∧
    (∀ v : W32, Completes (.istoreData p (some v)) s (fun t =>
      (∀ i, i < 4 → Mem.byte (t.core p).istore (w + i) = (leBytes 4 v.toNat).getD i 0) ∧
      (∀ x, x < w ∨ w + 4 ≤ x → Mem.byte (t.core p).istore x = Mem.byte c.istore x) ∧
      t.fld a 17 2 = (s.fld a 17 2 + s.fld a 31 31) % 65536 ∧ (t.core p).spad = c.spad)) ∧
    Completes (.istoreData p none) s (fun t => t.back = { data := Mem.read c.istore w 4 } ∧ t.cores = s.cores ∧
      t.fld a 17 2 = (s.fld a 17 2 + s.fld a 31 31) % 65536)

/-! ## Girts, landings' arrays and the update unit -/

/-- PLANK_ISSUE of the next plank of a working landing that has started the crossing, whose buffer is full and whose halves all hold
credit, puts it on its girts, steps the issue position and sends a mark tick, and a plank that a girt schedule does not expect is a fault of the
landing; STACK_PLANK_READ fills a buffer of every landing whose order
names the plank, or waits while the stack's hub holds accesses; RELEASE_COUNT_UPDATE raises the count the landing has seen. That a plank read
from a stack reaches every landing at once, and not as flits of groups 60 to 63, is the model's choice (log entry 41; R28, R39, R251, R326,
R333, R335, R347, R355, R403, R412). -/
def Obligations.planks_are_issued : Prop :=
  ∀ (s : State) (role : Nat), s.job.crossing = some role →
    (∀ (l : Nat) (m : MEnt) (b : PlankBuf), l < 8 → s.mayIssuePlank l = true → (s.merged l role)[(s.land l).issueIdx]? = some m → m.e.grain = 0 →
      (s.land l).planks.all (fun y => !y.issued) = true → (s.land l).planks.find? (fun y => y.idx == (s.land l).issueIdx && y.role == role) = some b →
      b.full = true → (maskHalves l m.near m.far).all (s.hasCredit l) = true →
      let right := (maskHalves l m.near m.far).all (fun h => s.schedMatch l h role m.e.plank m.e.variant)
      (right = false → Completes (.plankIssue l) s (fun t => (t.land l).faulted = true)) ∧ (right = true → Completes (.plankIssue l) s (fun t =>
        (∃ f, t.flights = s.flights ++ [f] ∧ f.landing = l ∧ f.plank = m.e.plank ∧ f.near = m.near ∧ f.far = m.far ∧ f.green = false ∧ f.data = b.data) ∧
        (t.land l).issueIdx = (s.land l).issueIdx + 1 ∧ t.sn = s.sn ++ [{ typ := 1, head := l, a := role, b := t.issuePos l role }] ∧
        t.cores = s.cores ∧ t.stack = s.stack))) ∧
    (∀ (l plank i : Nat) (m : MEnt), l < 8 → s.landWorks l = true →
      (s.merged l role).findIdx? (fun m => m.e.plank == plank && !s.fromStore m.e) = some i → (s.merged l role)[i]? = some m →
      (s.land l).issueIdx ≤ i → (s.land l).planks.all (fun b => b.idx != i || b.role != role) = true →
      groupRoom (s.merged l role) (s.land l) i = true → (∀ e, s.stackEntry role plank = some e → s.hubHolds (e.stackAddr / 2 ^ 36) = false) →
      Completes (.stackPlankRead role plank) s (fun t =>
        (∃ b, (t.land l).planks = (s.land l).planks ++ [b] ∧ b.idx = i ∧ b.role = role ∧ b.object = m.e.object ∧ b.full = true ∧ b.frames = 256 ∧
          b.data = s.stackPlank m.e) ∧ t.stack = s.stack ∧ t.cores = s.cores)) ∧
    (∀ (plank : Nat) (e : Entry), s.stackEntry role plank = some e →
      let b := e.stackAddr / 2 ^ 36
      s.hubHolds b = true → (∀ r ∈ (s.bay b).q, r.kind ≠ 4) → Completes (.stackPlankRead role plank) s (fun t =>
        (∃ r, (t.bay b).q = (s.bay b).q ++ [r] ∧ r.kind = 4 ∧ r.core = role ∧ r.spad = plank) ∧ t.lands = s.lands ∧ t.stack = s.stack)) ∧
    ∀ l p n, l < 8 → p < 2880 → (s.land l).present = true → s.bayUp (landingBay l) = true → n ≤ (s.core p).releases →
      Completes (.releaseCountUpdate l (coreHalf p) p n) s (fun t =>
        SMap.get 0 (t.land l).relSeen p = max n (SMap.get 0 (s.land l).relSeen p) ∧
        (∀ q, q ≠ p → SMap.get 0 (t.land l).relSeen q = SMap.get 0 (s.land l).relSeen q) ∧ t.cores = s.cores ∧ t.flights = s.flights)

/-- PLANK_START gives a copied plank the next tap slot, or sets OVERRUN and copies nothing more when that slot is still held;
FORWARD_BEAT writes one frame's elements into the slot, and with every fourth frame the side line of the four (R79, R81, R334). -/
def Obligations.taps_copy_planks : Prop :=
  ∀ (s : State) (p : Nat), p < 2880 → s.coreUp p = true →
    let c := s.core p
    (∀ i f, c.passing = none → (s.halfFlights (coreHalf p))[c.seen]? = some (i, f) → c.part = true → c.noCopy = false →
      s.holdsTag p f.variant = true → (∀ k, k < 8 → (c.slot k).denied = false) →
      let k := c.nextFill % max 1 c.tapSlots
      ((c.slot k).used = false → Completes (.plankStart p f.plank) s (fun t =>
        (t.core p).slot k = { used := true, role := f.role, plank := f.plank, fmt := f.fmt, green := f.green } ∧
        (∀ j, j ≠ k → (t.core p).slot j = c.slot j) ∧ (t.core p).nextFill = c.nextFill + 1 ∧ (t.core p).passing = some (i, 0, k) ∧
        SameMem c (t.core p) ∧ t.regs = s.regs)) ∧
      ((c.slot k).used = true → Completes (.plankStart p f.plank) s (fun t =>
        (t.core p).noCopy = true ∧ (t.core p).slots = c.slots ∧ bit (t.reg (coreReg p 7 4)).toNat 12 = true ∧ SameMem c (t.core p) ∧
        ∀ a, a ≠ coreReg p 7 4 → t.reg a = s.reg a))) ∧
    ∀ i b k f, c.passing = some (i, b, k) → k < 8 → s.flights[i]? = some f → b < 255 → b < f.avail →
      Completes (.forwardBeat p f.plank b) s (fun t =>
        let a := c.tapBase + k * slotBytes
        (∀ j, j < 256 → Mem.byte (t.core p).spad (a + 256 * b + j) = Mem.byte f.data (256 * b + j)) ∧
        let side := a + 65536 + 64 * (b / 4)
        (b % 4 = 3 → ∀ j, j < 64 → Mem.byte (t.core p).spad (side + j) = Mem.byte f.data (65536 + 64 * (b / 4) + j)) ∧
        (∀ x, (x < a + 256 * b ∨ a + 256 * b + 256 ≤ x) → (b % 4 ≠ 3 ∨ x < side ∨ side + 64 ≤ x) →
          Mem.byte (t.core p).spad x = Mem.byte c.spad x) ∧
        ((t.core p).slot k).beats = b + 1 ∧ (t.core p).passing = some (i, b + 1, k) ∧ (t.core p).sill = c.sill ∧ (t.core p).v = c.v ∧
        t.stack = s.stack)

/-- A green plank is judged: GREEN_FRAME_LATE denies the oldest unjudged one; CONFIRM closes its source seasoned; DENY empties its slot,
returns its credit and begins a rollback at a core with a point; ROLLBACK restores the registers, the PC and a region's state of the point, and
each logged line from its entry in the log area (R82, R379, R414, R416, R419, R422, R423, R430). -/
def Obligations.green_planks_are_judged : Prop :=
  ∀ (s : State),
    (∀ l f, l < 8 → (s.land l).present = true → s.bayUp (landingBay l) = true →
      s.flights.find? (fun f => f.landing == l && f.green && f.verdict.isNone) = some f →
      Completes (.greenFrameLate l) s (fun t => t = { s with flights := t.flights } ∧ t.flights.length = s.flights.length ∧
        ∀ (i : Nat) (g : Flight), s.flights[i]? = some g → t.flights[i]? = some (if g.landing = l ∧ g.plank = f.plank ∧ g.green = true ∧ g.verdict = none
          then { g with verdict := some false } else g))) ∧
    ∀ p, p < 2880 → s.coreUp p = true →
      let c := s.core p
      (∀ pl k, s.judged p pl true = some k → Completes (.confirm p pl) s (fun t =>
        (t.core p).slot k = { c.slot k with green := false } ∧ (t.core p).openSrc = c.openSrc &&& ~~~(BitVec.ofNat 12 (2 ^ k)) ∧
        (t.core p).v = c.v ∧ SameMem c (t.core p) ∧ t.regs = s.regs)) ∧
      (∀ pl k, s.judged p pl false = some k → c.rolling = false → Completes (.deny p pl) s (fun t =>
        (t.core p).slot k = { c.slot k with green := false, denied := true, beats := 0 } ∧ (t.core p).relCount = c.relCount + 1 ∧
        (t.core p).openSrc = c.openSrc &&& ~~~(BitVec.ofNat 12 (2 ^ k)) ∧ (t.core p).rolling = c.point.isSome ∧ SameMem c (t.core p) ∧
        (c.point = none → t.regs = s.regs))) ∧
      ∀ q, c.point = some q → c.rolling = true → c.rolledOut = true → q.regions.length ≤ 1 → Completes (.rollback p) s (fun t =>
        (t.core p).v = q.v ∧ (t.core p).s = q.s ∧ (t.core p).x = q.x ∧ (t.core p).loops = q.loops ∧ (t.core p).strides = q.strides ∧
        (t.core p).spad = q.log.foldr (fun e m => if e.sill then m else Mem.write m e.addr (Mem.read c.spad e.at_ 64)) c.spad ∧
        (t.core p).sill = q.log.foldr (fun e m => if e.sill then Mem.write m e.addr (Mem.read c.spad e.at_ 64) else m) c.sill ∧
        (∀ n v w, q.regions = [(n, v, w)] → n < 64 → t.reg (regnReg p n) = v ∧ (n ∈ (t.core p).fresh ↔ w = true)) ∧
        t.pc p = q.bundle % 8192 ∧ (t.core p).point = none ∧ (t.core p).rolling = false)

/-- RETURN_BAND_FILL fills a band of a bound export with its sill lines, RETURN_OBJECT_START starts the next object at the far tap, RETURN_BEAT passes a beat
on with the core's own values added when it gives some, the last beat ending the export, LANDING_EXA_ADD adds the beat that has reached the
landing, images beyond 8,192 spilling into the landing bay's stack (R36, R77, R181, R273, R341 to R344; where the spilled images lie is the
model's choice, log entry 24). -/
def Obligations.return_girts_sum : Prop :=
  ∀ (s : State),
    (∀ p e pl, p < 2880 → s.coreUp p = true → s.job.crossing = some 1 → (s.core p).exports = [e] → e.plank = some pl → e.bands < 8 →
      (∀ i, i < e.cnt → (s.core p).regnMask (e.reg + i) = 0) → (s.core p).feet = [] → s.bandsHeld p < 2 →
      Completes (.returnBandFill p) s (fun t => 
        (∃ x, (t.core p).exports = [x] ∧ x = { e with bands := e.bands + 1, bufs := x.bufs } ∧
          SMap.get [] x.bufs e.bands = (s.core p).bandLines e (bandBeats (s.exportFmt p e)) e.bands) ∧ SameMem (s.core p) (t.core p) ∧
        t.regs = s.regs ∧ t.rets = s.rets)) ∧
    (∀ h m p, h < 96 → s.job.crossing = some 1 → (s.ret h).plank = none → (s.lineObjs h)[(s.ret h).idx]? = some m →
      (s.lineCores h).getLast? = some p → (s.gives p m = true → (s.readyExport p m.e.plank 0).isSome = true) →
      Completes (.returnObjectStart h) s (fun t => (t.ret h).plank = some m.e.plank ∧ (t.ret h).next = 0 ∧ (t.ret h).beats = (s.ret h).beats ∧
        t = { s with rets := t.rets })) ∧
    (∀ p k b m, p < 2880 → (s.lineCores (s.lineHalf p)).findIdx? (fun q => q == p) = some k →
      let h := s.lineHalf p
      (s.ret h).beats = [b] → b.at_ = k + 1 → b.supp = none → (s.lineObjs h).find? (fun m => m.e.plank == b.plank) = some m →
      (s.gives p m = false → Completes (.returnBeat p) s (fun t => (t.ret h).beats = [{ b with at_ := k }] ∧
        t = { s with rets := t.rets, bwAcc := t.bwAcc })) ∧
      ∀ e, s.gives p m = true → s.readyExport p b.plank b.b = some e →
        let beats := 8 * bandBeats (s.exportFmt p e)
        Completes (.returnBeat p) s (fun t =>
          (t.ret h).beats = [{ b with at_ := k, vals := (addAll b.vals (s.beatVals p e b.b)).1 }] ∧ SameMem (s.core p) (t.core p) ∧
          (b.b + 1 < beats → (t.core p).exports = (s.core p).exports.map (fun x => if x == e then
            { x with beats := x.beats + 1, bufs := x.bufs.filter (fun k => decide ((x.beats + 1) / bandBeats (s.exportFmt p e) ≤ k.1)) } else x)) ∧
          (beats ≤ b.b + 1 → (t.core p).exports = (s.core p).exports.filter (fun x => x != e) ∧ (t.core p).retM = some (s.crossingNo 1, b.plank) ∧
            ∀ i, i < e.cnt → e.reg + i < 64 → t.exporting p (e.reg + i) = false))) ∧
    ∀ l h b m r, l < 8 → h < 96 → s.landWorks l = true → halfLanding h = l → (s.ret h).beats.find? (fun b => b.at_ == 0) = some b → b.supp = none →
      (s.lineObjs h).find? (fun m => m.e.plank == b.plank) = some m → s.slotFor l m.e = some r →
      let y := { r with own := (addInto r.own (16 * b.b) b.vals).1, beats := SMap.set 0 r.beats h (SMap.get 0 r.beats h + 1) }
      s.bayWaits (landingBay l) = false → Completes (.landingExaAdd l h) s (fun t =>
        (t.land l).rslots.find? (fun y => y.plank == b.plank) = some y ∧
        (t.ret h).beats = (s.ret h).beats.filter (fun x => x != b) ∧ t.cores = s.cores ∧ (y.images.length ≤ 8192 → t.stack = s.stack) ∧
        (8192 < y.images.length → bit (t.reg (landReg l 0x504)).toNat 1 = true ∧
          t.stack = Mem.write s.stack (s.redSpill l (((t.land l).rslots.findIdx? (fun y => y.plank == b.plank)).getD 0))
            (((y.images.drop 8192).flatMap (fun i => leBytes 40 (wrapInt 320 i))).take 33554432)))

/-- RING_GROUP_FORWARD adds a landing's own sum to the group that came round the ring and hands it on, the owner adding its own last, and
waits while an injected delay holds a link of the way;
OWNER_ROUNDING rounds a complete sum once and gives it to the update unit, or ends the object when the step applies nothing or its variant is
frozen (R274, R276, R279, R280, R293, R327, R395). -/
def Obligations.owners_round_once : Prop :=
  ∀ (s : State) (l : Nat), l < 8 → s.landWorks l = true →
    (∀ obj g, s.ringHeld l = true → Completes (.ringGroupForward l obj g) s (fun t => t = s)) ∧
    (∀ obj g e r, s.ringHeld l = false → s.objEntry obj = some e → s.slotFor l e = some r → g < groupsOf e.fmt → r.sentG.contains g = false → s.ownDone l r g = true →
      (s.ringAfter (s.ownerOf e) = l ∨ r.ringG.contains g = true) →
      let a := (addAll (groupVals r.own g) (groupVals r.ring g)).1
      (s.ownerOf e = l → s.bayWaits (landingBay l) = false → Completes (.ringGroupForward l obj g) s (fun t =>
        ∃ q, (t.land l).rslots.find? (fun y => y.plank == e.plank) = some q ∧ q.sentG = insNat r.sentG g ∧
          (∀ i, i < 256 → SMap.get {} q.own (256 * g + i) = a.getD i {}) ∧
          ∀ x, x / 256 ≠ g → SMap.get {} q.own x = SMap.get {} r.own x)) ∧
      ∀ q0, s.ownerOf e ≠ l → s.ringAfter l ≠ l → s.slotFor (s.ringAfter l) e = some q0 →
        s.bayWaits (landingBay (s.ringAfter l)) = false → Completes (.ringGroupForward l obj g) s (fun t =>
          ∃ q, (t.land (s.ringAfter l)).rslots.find? (fun y => y.plank == e.plank) = some q ∧ q.ringG = insNat q0.ringG g ∧ q.own = q0.own ∧
            ∀ i, i < 256 → SMap.get {} q.ring (256 * g + i) = a.getD i {})) ∧
    ∀ r e, (s.land l).rslots.find? (fun r => decide (r.sentG.length = groupsOf r.fmt) && match s.objEntry r.object with
        | some e => s.ownerOf e == l
        | none => false) = some r → s.objEntry r.object = some e → s.ledgerOf r.object = none →
      (s.applies = false → Completes (.ownerRounding l) s (fun t =>
        (t.land l).pendDone = insNat (s.land l).pendDone r.object ∧ (t.land l).rslots = (s.land l).rslots.filter (fun y => y.plank != r.plank) ∧
        t.stack = s.stack ∧ t.regs = s.regs)) ∧
      (s.applies = true → s.manFlag 1 = false → s.frozenEnt e = true → (∀ i, (SMap.get {} r.own i).cls = 0 ∧ (SMap.get {} r.own i).round.2 = false) →
        Completes (.ownerRounding l) s (fun t => (t.land l).pendDone = insNat (s.land l).pendDone r.object ∧ (t.land l).luuQ = (s.land l).luuQ)) ∧
      (s.applies = true → s.manFlag 1 = false → s.frozenEnt e = false → (∀ i, (SMap.get {} r.own i).cls = 0 ∧ (SMap.get {} r.own i).round.2 = false) →
        Completes (.ownerRounding l) s (fun t =>
          (∃ k, (t.land l).luuQ = (s.land l).luuQ ++ [k] ∧ k.object = r.object ∧ k.group = e.tagGroup % 4096 ∧
            ∀ i, i ∈ r.own.map (fun v => v.1) → SMap.get 0 k.grads i = (SMap.get {} r.own i).round.1) ∧
          (t.land l).rslots = (s.land l).rslots.filter (fun y => y.plank != r.plank) ∧ t.stack = s.stack))

/-! ## Update, watch, format selection -/

/-- LUU_UPDATE runs the program of the object at the head of the queue with the step's scalars and sends its new tensors and working plank
as pending frames; WATCH_EVALUATION raises RATIO_BAND for a ratio above its band; FORMAT_SELECTION keeps an entry whose statistics say nothing,
with the next step's number, while no hub holds accesses and no block is guarded (R292, R294, R302, R305, R311, R403, R412). -/
def Obligations.update_unit_results : Prop :=
  ∀ (s : State) (m : Loaded), s.job.loaded = some m → s.mpUndef = false → s.active ≠ none →
    (∀ l u o rest k, l < 8 → (s.land l).present = true → s.bayUp (landingBay l) = true → m.micro = some u → (s.land l).luuQ = o :: rest →
      s.applies = true → s.luuState l o = some k → s.variantOf o.variant = none → s.residentAt o.object = none →
      Completes (.luuUpdate l) s (fun t =>
        let grp := m.groups.getD o.group default
        let x : LuuCtx := { u := u, prog := u.progs.getD grp.program default, grp := grp, lr := luuRate u s.job.step,
                            ni := (fpDiv fFP32 .rne (fFP32.decode 0x3F800000) (fFP32.decode (countFp32 m.man.thinN))).1,
                            p1 := (t.reg (landReg l 0x604)).toNat, p2 := (t.reg (landReg l 0x608)).toNat }
        let out := x.run (plankCols o.fmt) k (fun i => SMap.get 0 o.grads i)
          (fun i => drawSR s.job.seedLo s.job.seedHi o.object o.variant i s.job.step)
        (∃ more, (t.land l).outQ = (s.land l).outQ ++ ((out.tensors x).flatMap (fun e => s.pendingFrames o.object e.1 e.2) ++
          s.pendingFrames o.object 8 (workPlank o.fmt (fun i => (out.els.map (fun e => e.2.1)).getD i 0)).1) ++ more) ∧
        (t.land l).luuQ = rest ∧ (t.land l).pendDone = insNat (s.land l).pendDone o.object ∧ t.stack = s.stack ∧
        ((s.land l).luuStepDone = false → x.p1 = (fpMul fFP32 .rne (fFP32.decode (s.reg (landReg l 0x604)).toNat) (fFP32.decode u.betaP1)).1 % 2 ^ 32))) ∧
    (s.job.watchDone = false → s.applies = true → s.manFlag 1 = false → s.job.crossing = some 1 → s.objectsDone = true →
      Completes .watchEvaluation s (fun t => t.job.watchDone = true ∧ t.job.zeroRunOld = s.job.zeroRun ∧ t.cores = s.cores ∧ t.stack = s.stack ∧
        ∀ g, m.groups = [g] →
          let w := SMap.get noWatch s.job.watch 0
          let rho := ratioOf w.1.round.1 w.2.1.round.1
          bit g.flags 1 = false → cmpNum (fFP32.decode rho) (fFP32.decode g.rhoHi) = .gt →
            (∃ e, e ∈ t.evPending ∧ e.code = 0x0302 ∧
              e.payload = payload [(2, 0), (8, s.job.step), (4, rho), (4, w.1.round.1), (4, w.2.1.round.1)]) ∧
            (bit g.flags 0 = true → t.job.holdStep.isSome = true))) ∧
    (s.stepOver = true → s.job.formatDone = false → (∀ b, b < 60 → s.bayUp b = true → s.hubHolds b = false) → s.job.guard = [] → Completes .formatSelection s (fun t => t.job.formatDone = true ∧ t.cores = s.cores ∧ t.regs = s.regs ∧
      ∀ g, m.groups = [g] → bit g.flags 3 = true → ((s.mergeStats m.statsOff 0).2.2 ≠ 0 ∨ (s.mergeStats m.statsOff 0).1.sum = 0) →
        let v := SMap.get 0 s.job.fmt 0 % 2 ^ 24 + 2 ^ 32 * ((s.job.step + 1) % 2 ^ 32)
        SMap.get 0 t.job.fmt 0 = v ∧
        ∀ b, b < 60 → s.bayUp b = true → m.fmtOff + 16 ≤ 2 ^ 36 → Mem.readNat t.stack (bayBase b + m.fmtOff) 16 = v))

/-! ## Sync network -/

/-- A mark tick reaches the root hubs, which keep the position and, when the lowest position has risen, send the global mark to every
core and landing; GLOBAL_MARK at a core keeps the later mark; FENCE_NOTICE drops the core at every landing; ALARM becomes an event and a stopped
stack stops the watchdogs (R36, R39, R40, R434). -/
def Obligations.marks_and_alarms : Prop :=
  ∀ (s : State),
    (∀ l role pos, l < 8 → role < 2 → s.sn.contains { typ := 1, head := l, a := role, b := pos } = true →
      Completes (.globalMarkUpdate l role pos) s (fun t =>
        let rest := s.sn.erase { typ := 1, head := l, a := role, b := pos }
        SMap.get none t.rootPos (2 * l + role) = some pos ∧ t.cores = s.cores ∧ t.stack = s.stack ∧
        (t.lowestPos role = none → t.sn = rest ∧ t.rootMark = s.rootMark) ∧
        ∀ m, t.lowestPos role = some m → (∀ o, SMap.get none s.rootMark role = some o → o < m) →
          SMap.get none t.rootMark role = some m ∧ (s.bayUp s.rootBay = true →
            t.sn = rest ++ (List.range 2888).map (fun u => { typ := 2, head := u, a := s.crossingNo role, b := m })))) ∧
    (∀ u x n, u < 2888 → s.sn.contains { typ := 2, head := u, a := x, b := n } = true → Completes (.globalMark u x n) s (fun t =>
      t.sn = s.sn.erase { typ := 2, head := u, a := x, b := n } ∧ t.regs = s.regs ∧
      (u < 2880 → s.coreUp u = true → (t.core u).gloM = maxMark (s.core u).gloM (x, n) ∧ SameMem (s.core u) (t.core u)))) ∧
    (∀ bay idx, bay < 60 → idx < 48 → s.sn.contains { typ := 5, head := bay, a := idx, b := 0 } = true → Completes (.fenceNotice bay idx) s (fun t =>
      (∀ l, l < 8 → (t.land l).fencedHere = insNat (s.land l).fencedHere (bay * 48 + idx)) ∧ t.cores = s.cores ∧ t.regs = s.regs)) ∧
    ∀ bay code d, bay < 60 → 1 ≤ code → code ≤ 9 → s.active ≠ none → s.sn.contains { typ := 6, head := bay, a := code, b := d } = true →
      Completes (.alarm bay code d) s (fun t =>
        (∃ e, t.evPending = s.evPending ++ [e] ∧ e.code = 0x0607 ∧ e.unit = bay ∧ e.payload = payload [(1, bay), (1, code), (2, d)]) ∧
        (code = 1 → t.stackStops = insNat s.stackStops bay) ∧ (code = 2 → t.stackStops.contains bay = false) ∧ t.cores = s.cores ∧ t.regs = s.regs)

/-- BAR_ARRIVE counts an arrival, and the arrival that completes a counter raises its completion count and sends BAR_DONE to every unit
of the hub; BAR_DONE brings a core the later completion count, and at a crossing's start counter it starts the crossing (R36, R42, R335, R361;
that the first BAR_DONE of the start counter starts it on the whole wafer is the model's choice, log entry 21). -/
def Obligations.barriers_complete : Prop :=
  ∀ (s : State),
    (∀ hub ctr who, hub ≤ 60 → ctr < 64 → s.sn.contains { typ := 3, head := hub, a := ctr, b := who } = true → (hub < 60 → s.bayUp hub = true) →
      (hub = 60 → s.bayUp s.rootBay = true) → (who < 2880 → s.fenced who = false) →
      let b := s.bar hub ctr
      let rest := s.sn.erase { typ := 3, head := hub, a := ctr, b := who }
      (b.arr.length + 1 < b.p → Completes (.barArrive hub ctr who) s (fun t =>
        t.bar hub ctr = { b with arr := b.arr ++ [who] } ∧ t.sn = rest ∧ t.cores = s.cores ∧ t.regs = s.regs)) ∧
      (b.arr.length + 1 = b.p → Completes (.barArrive hub ctr who) s (fun t =>
        t.bar hub ctr = { p := b.p, arr := [], d := (b.d + 1) % 65536 } ∧ t.cores = s.cores ∧ t.regs = s.regs ∧
        t.sn = rest ++ (barUnits hub).map (fun u => { typ := 4, head := u, a := if hub = 60 then 1 else 0, b := ctr, c := (b.d + 1) % 65536 })))) ∧
    (∀ p scope ctr n, p < 2880 → ctr < 64 → s.sn.contains { typ := 4, head := p, a := if scope then 1 else 0, b := ctr, c := n } = true →
      s.coreUp p = true → (scope = true → s.startsRole ctr n = none) → Completes (.barDone p scope ctr n) s (fun t =>
        SMap.get 0 (t.core p).doneB (barKey scope ctr) = max n (SMap.get 0 (s.core p).doneB (barKey scope ctr)) ∧
        SameMem (s.core p) (t.core p) ∧ (∀ q, q ≠ p → t.core q = s.core q) ∧ t.regs = s.regs ∧ t.job = s.job)) ∧
    ∀ p ctr n role, p < 2880 → ctr < 64 → s.sn.contains { typ := 4, head := p, a := 1, b := ctr, c := n } = true → s.startsRole ctr n = some role →
      Completes (.barDone p true ctr n) s (fun t => t.job.crossing = some role ∧ t.job.startCount = (ctr, n) ∧ t.flights = [] ∧
        (∀ q, q < 2880 → (t.core q).arrM = none ∧ (t.core q).seaM = none ∧ (t.core q).relCount = 0 ∧ (t.core q).seen = 0) ∧
        ∀ l, l < 8 → (t.land l).issueIdx = 0 ∧ (t.land l).planks = [] ∧ (t.land l).started = false)

/-- ROOT_FAILOVER makes the standby the active root when the active root's bay is dark and resends its completion counts, and only an active
MP designates a new standby; CROSSING_END records the slip of a crossing whose planks are all issued and raises SLIP_EXCEEDED above the
threshold (R44, R45, R363, R364, Table 19.16; the planned crossing time that the threshold scales is the model's choice, log entry 21). -/
def Obligations.roots_and_slip : Prop :=
  ∀ (s : State),
    ((s.bay s.rootBay).dark = true → bit (s.reg (gloReg 0x30C)).toNat 14 = true → (s.bay s.standbyBay).dark = false → s.standbyBay < 60 → Completes .rootFailover s (fun t =>
      t.rootBay = s.standbyBay ∧ t.bars = s.bars ∧ t.cores = s.cores ∧
      ∀ e u, e ∈ s.barsSb → e.2.d ≠ 0 → u < 2888 → ({ typ := 4, head := u, a := 1, b := e.1, c := e.2.d } : Token) ∈ t.sn)) ∧
    ((s.bay s.rootBay).dark = false → bit (s.reg (gloReg 0x30C)).toNat 14 = true → (s.bay s.standbyBay).dark = false →
      Completes .rootFailover s (fun t => t = s)) ∧
    ((s.bay s.rootBay).dark = false → bit (s.reg (gloReg 0x30C)).toNat 14 = false ∨ (s.bay s.standbyBay).dark = true → s.rootBay < 60 →
      Completes .rootFailover s (fun t => t.rootBay = s.rootBay ∧ t.bars = s.bars ∧ t.cores = s.cores ∧ t.sn = s.sn ∧
        (s.active ≠ none → t.rootPosSb = s.rootPos) ∧ (s.active = none → bit (t.reg (gloReg 0x30C)).toNat 14 = false))) ∧
    ∀ role, s.job.crossing = some role → s.job.slipped = false → s.allIssued = true → s.active ≠ none → s.job.slipLanding < 8 →
      Completes .crossingEnd s (fun t => t.job.slipped = true ∧ t.cores = s.cores ∧ t.stack = s.stack ∧
        t.fld (gloReg 0x104) 27 0 = min 0x0FFFFFFF s.job.slipMax ∧ t.fld (gloReg 0x104) 30 28 = s.job.slipLanding ∧
        (s.fld (gloReg 0x100) 15 0 = 0 → t.evPending = s.evPending) ∧
        let plan := ((List.range 8).map (fun l => ((s.merged l role).getLast?.map (fun m => m.e.offset / 11)).getD 0)).foldl max 0
        (0 < s.fld (gloReg 0x100) 15 0 → plan * s.fld (gloReg 0x100) 15 0 < s.job.slipMax * 1024 →
          ∃ e, t.evPending = s.evPending ++ [e] ∧ e.code = 0x0107))

/-! ## Failures of cores -/

/-- Each detected failure fences the core for its cause: WATCHDOG_EXPIRY 4, a wrong BIST_PASS 1, an uncorrectable CORE_MEMORY_ERROR 3,
ECC_LIMIT 2, SYNC_LINK_TIMEOUT 5, CORE_SUPPLY_FAULT 6; a corrected error is counted and claims the core's timer, a right self-test changes no
result (R431 to R435, R521, Table 17.4; the sizes of the payload's fields are the model's choice, log entry 14). -/
def Obligations.detected_failures_fence : Prop :=
  ∀ (s : State) (p : Nat), p < 2880 → s.coreUp p = true → s.active ≠ none →
    let done (cause : Nat) (t : State) : Prop :=
      t.fenced p = true ∧ t.running p = false ∧ SMap.get 0 t.rep.fence p = cause ∧ ({ typ := 5, head := coreBay p, a := coreIdx p, b := 0 } : Token) ∈ t.sn ∧
      (∃ e, e ∈ t.evPending ∧ e.code = 0x0205 ∧ e.payload = payload [(2, physCode p), (1, cause)]) ∧ (2 ≤ s.job.st → s.job.st < 6 → 2 ≤ t.job.need)
    (s.fld (hubReg (coreBay p) 0x500) 15 0 ≠ 0 → s.running p = true → s.fld (coreReg p 0 4) 13 13 = 0 → (s.core p).endHold = false →
      s.stackStops = [] → s.job.st < 3 → Completes (.watchdogExpiry p) s (done 4)) ∧
    (bit (s.reg (hubReg (coreBay p) 0x500)).toNat 24 = true → (s.core p).mulX = none → (s.core p).mulP = none →
      Completes (.bistPassStart p) s (fun t => t = s.setCore p { s.core p with bist := true })) ∧
    ((s.core p).bist = true → Completes (.bistPass p true false) s (fun t => t = s.setCore p { s.core p with bist := false })) ∧
    ((s.core p).bist = true → Completes (.bistPass p false false) s (done 1)) ∧
    (∀ k, k < 3 → Completes (.coreMemoryError p k true) s (done 3)) ∧
    (∀ k, k < 3 → Completes (.coreMemoryError p k false) s (fun t =>
      t.fld (coreReg p 0 0x48) (8 * k + 7) (8 * k) = min 255 (s.fld (coreReg p 0 0x48) (8 * k + 7) (8 * k) + 1) ∧ t.fenced p = false ∧
      bit (t.reg (timerStat p)).toNat 3 = true ∧ SameMem (s.core p) (t.core p) ∧
      ∀ a, a ≠ coreReg p 0 0x48 → a ≠ timerStat p → t.reg a = s.reg a)) ∧
    (max 1 (s.fld (hubReg (coreBay p) 0x500) 23 16) < ((s.core p).ceTimes.filter (fun t => decide (s.time ≤ t + 100000000))).length →
      Completes (.eccLimit p) s (done 2)) ∧
    Completes (.syncLinkTimeout p) s (done 5) ∧ Completes (.coreSupplyFault p) s (done 6)

/-- SISTERING gives the role of a fenced core to an eligible spare of its bay and asks for a restore; ROLE_SWITCH of a double sister
exchanges the running role with the stored one (R436, R437, R439). -/
def Obligations.sisters_take_over : Prop :=
  ∀ (s : State) (p : Nat), p < 2880 →
    (∀ m n q, s.job.loaded = some m → s.fenced p = true → 2 ≤ s.job.st → s.active ≠ none → s.mpUndef = false → (s.core p).roles = [n] → n < 2880 →
      s.sisterOf m p = some q → q < 2880 → q ≠ p → Completes (.sistering p) s (fun t =>
        (t.core p).roles = [] ∧ (t.core q).roles = [n] ∧ (t.core q).curRole = some n ∧ (t.core q).sill = [] ∧ 2 ≤ t.job.need ∧
        t.reg (coreReg q 0 0x40) = s.reg (coreReg p 0 0x40) ∧ t.evPending = s.evPending)) ∧
    ∀ k, s.coreUp p = true → (s.core p).stored = some k → s.fld (coreReg p 0 4) 13 13 = 1 → (s.core p).point = none → (s.core p).feet = [] →
      (s.core p).exports = [] → s.ctxReady p k = true → s.fld (coreReg p 0 4) 16 14 ≤ 4 → Completes (.roleSwitch p) s (fun t =>
        (t.core p).curRole = k.role ∧ (t.core p).v = k.v ∧ (t.core p).s = k.s ∧ (t.core p).x = k.x ∧ (t.core p).sill = k.sill ∧
        (t.core p).istore = k.istore ∧ t.reg (coreReg p 0 4) = k.pcReg ∧
        (∃ y, (t.core p).stored = some y ∧ y.role = (s.core p).curRole ∧ y.v = (s.core p).v ∧ y.sill = (s.core p).sill ∧ y.pcReg = s.reg (coreReg p 0 4)) ∧
        t.fld (coreReg p 0 0x80) 1 1 = 1 - s.fld (coreReg p 0 0x80) 1 1)

/-! ## Frames and links -/

/-- Frames of data and credit: a PLANK frame joins the plank that was asked for first, an input FREIGHT frame is written to its stack
address, or waits at a hub that holds accesses or guards the block or behind earlier input of its landing, CREDIT adds its increments, HOLD_FRAME replaces the mask, PROBE is answered, and HAIL acknowledges frames and shows the partner,
a changed one of which halts issue (R331, R371 to R374, R376, R380, R386 to R388, R403, R412, R447, R522; the payload of PARTNER_CHANGED is the
model's choice, log entry 14). -/
def Obligations.data_frames_act : Prop :=
  ∀ (s : State) (l : Nat) (f : Frame), s.takes l f = true →
    let x := s.land l
    (∀ role b, f.typ = 1 → f.vc = 0 → s.job.crossing = some role → x.swallow = false → x.planks.find? (fun b => !b.full) = some b →
      b.issued = false → f.object = b.object → f.version = (if f.index = 0 then s.landV l else b.version) → f.backward = decide (b.role = 1) →
      f.index = b.frames → f.index < 255 →
      f.last = false → Completes (.plankFrame l f) s (fun t => Accepted s t l ∧ t.stack = s.stack ∧ t.cores = s.cores ∧
        (t.land l).planks = x.planks.map (fun y => if y == b then { b with
          frames := b.frames + 1, version := if f.index = 0 then f.version else b.version, data := Mem.write (Mem.write b.data (256 * f.index) f.payload) (65536 + 16 * f.index) (leBytes 16 f.side.toNat) } else y))) ∧
    (f.typ = 2 → f.vc = 1 → f.sideNat 0 1 = 0 → (f.sideNat 1 1 = 0 ∨ (s.variantOf (f.sideNat 1 1)).isSome = true) →
      f.sideNat 8 8 % 2 ^ 42 % 256 = 0 → s.stackOk (f.sideNat 8 8 % 2 ^ 42) 256 = true →
      let a := f.sideNat 8 8 % 2 ^ 42
      let waits := (s.inputWaits l).isSome || s.hubHolds (a / 2 ^ 36) || (blocksOf a f.payload.length).any s.job.guard.contains
      Completes (.freight l f) s (fun t => Accepted s t l ∧ t.cores = s.cores ∧ (waits = false → t.stack = Mem.write s.stack a f.payload) ∧
        (waits = true → t.stack = s.stack ∧ ∃ r, (t.bay (a / 2 ^ 36)).q = (s.bay (a / 2 ^ 36)).q ++ [r] ∧ r.kind = 6 ∧ r.core = l ∧ r.wr = true ∧ r.addr = a ∧
          r.data = f.payload))) ∧
    (f.typ = 5 → f.vc = 4 → Completes (.credit l f) s (fun t => Accepted s t l ∧ t.regs = s.regs ∧ t.cores = s.cores ∧
      ∀ i, 1 ≤ i → i < 32 → SMap.get 0 (t.land l).credit i = SMap.get 0 x.credit i + f.payNat (4 * i) 4)) ∧
    (f.typ = 6 → f.vc = 4 → Completes (.holdFrame l f) s (fun t => Accepted s t l ∧ t.reg (landReg l 0xC) = BitVec.ofNat 32 (f.sideNat 0 4) ∧
      (∀ a, a ≠ landReg l 0xC → t.reg a = s.reg a) ∧ t.cores = s.cores)) ∧
    (f.typ = 8 → f.vc = 4 → f.response = false → Completes (.probe l f) s (fun t =>
      (t.land l).probeQ = x.probeQ ++ [s.probeAnswer l (f.sideNat 0 8)] ∧ t.regs = s.regs ∧ (t.land l).rxExpect = x.rxExpect)) ∧
    (f.typ = 7 → f.vc = 4 → x.partnerSeen = false ∨ s.reg64 (landReg l 0x20) = f.sideNat 8 8 → Completes (.hail l f) s (fun t =>
      t.reg64 (landReg l 0x20) = f.sideNat 8 8 ∧ (t.land l).partnerSeen = true ∧ (t.land l).halted = x.halted ∧
      ∀ g rest, x.replay = g :: rest → f.sideNat 0 3 = g.seq → f.sideNat 3 1 = 0 → (t.land l).replay = rest)) ∧
    (f.typ = 7 → f.vc = 4 → x.partnerSeen = true → s.reg64 (landReg l 0x20) ≠ f.sideNat 8 8 → s.active ≠ none → Completes (.hail l f) s (fun t =>
      (t.land l).halted = true ∧ bit (t.reg (landReg l 4)).toNat 20 = true ∧ t.reg64 (landReg l 0x20) = f.sideNat 8 8 ∧
      ∃ e, e ∈ t.evPending ∧ e.code = 0x0405 ∧ e.payload = payload [(1, l)]))

/-- Frames of control: BARRIER_FRAME sends the partner's arrival to the root hubs, REGWRITE and REGREAD reach the stack and are answered,
COMMIT_READY, COMMIT_DONE, REVERTED and SNAP_FRAME are taken for the open attempt, restore and snapshot, BAD_FRAME is counted, FRAME_LOSS counts a failed CRC or an uncorrectable codeword and asks
for the frame again (R314, R369, R370, R380, R392, R393, R403, R446, R447, R453, R454). -/
def Obligations.control_frames_act : Prop :=
  ∀ (s : State) (l : Nat) (f : Frame), s.takes l f = true →
    let x := s.land l
    let r := fun (i : Nat) => leBytes 16 (f.payNat (16 * i) 16)
    (f.typ = 10 → f.vc = 4 → f.sideNat 1 1 = 0 → f.sideNat 0 1 < 64 → s.inputWaits l = none → Completes (.barrierFrame l f) s (fun t => Accepted s t l ∧
      t.sn = s.sn ++ [{ typ := 3, head := 60, a := f.sideNat 0 1, b := 2880 + l }] ∧ t.regs = s.regs)) ∧
    (∀ b, f.typ = 10 → f.vc = 4 → f.sideNat 1 1 = 0 → f.sideNat 0 1 < 64 → s.inputWaits l = some b → Completes (.barrierFrame l f) s (fun t =>
      Accepted s t l ∧ t.sn = s.sn ∧ ∃ r, (t.bay b).q = (s.bay b).q ++ [r] ∧ r.kind = 5 ∧ r.core = l ∧ r.spad = f.sideNat 0 1)) ∧
    let a := num (r 0) 0 6 % 2 ^ 42
    let one := num (r 0) 0 6 / 2 ^ 46 = 1 ∧ (∀ i, 1 ≤ i → i < 16 → num (r i) 6 1 = 0) ∧ s.stackOk a 4 = true
    (f.typ = 11 → f.vc = 5 → f.response = false → one → num (r 0) 6 1 = 2 → s.hubHolds (a / 2 ^ 36) = false →
      (blocksOf a 4).any s.job.guard.contains = false → Completes (.regwrite l f) s (fun t => Accepted s t l ∧ t.cores = s.cores ∧
        t.stack = Mem.write s.stack a (((r 0).drop 8).take 4) ∧
        ∃ g, (t.land l).outQ = x.outQ ++ [g] ∧ g.typ = 11 ∧ g.response = true ∧ num g.payload 7 1 = 0)) ∧
    (f.typ = 12 → f.vc = 5 → f.response = false → one → num (r 0) 6 1 = 1 → s.hubHolds (a / 2 ^ 36) = false → Completes (.regread l f) s (fun t => Accepted s t l ∧ t.stack = s.stack ∧
        ∃ g, (t.land l).outQ = x.outQ ++ [g] ∧ g.typ = 12 ∧ g.response = true ∧ num g.payload 7 1 = 0 ∧
          (g.payload.drop 8).take 4 = Mem.read s.stack a 4)) ∧
    (∀ i, i = Instr.regwrite l f ∧ f.typ = 11 ∧ num (r 0) 6 1 = 2 ∨ i = Instr.regread l f ∧ f.typ = 12 ∧ num (r 0) 6 1 = 1 → f.vc = 5 →
      f.response = false → one → s.hubHolds (a / 2 ^ 36) = true ∨ f.typ = 11 ∧ (blocksOf a 4).any s.job.guard.contains = true → Completes i s (fun t => Accepted s t l ∧ t.stack = s.stack ∧
        (t.land l).outQ = x.outQ ∧ ∃ q, (t.bay (a / 2 ^ 36)).q = (s.bay (a / 2 ^ 36)).q ++ [q] ∧ q.kind = 3 ∧ q.core = l ∧
          q.data = f.payload ++ List.replicate (256 - f.payload.length) 0)) ∧
    (∀ n, f.typ = 9 → f.vc = 4 → f.sideNat 0 1 = 1 → SMap.get none s.job.prepared l = some n → s.namesAttempt f = true → s.job.committed = false →
      s.job.aborted = false → f.sideNat 8 4 = n → Completes (.commitReady l f) s (fun t => Accepted s t l ∧
        SMap.get none t.job.readyCnt l = some n ∧ t.job.aborted = false)) ∧
    (∀ c, f.typ = 9 → f.vc = 4 → f.sideNat 0 1 = 3 → x.commitRep = some c → f.version = c.version → f.sideNat 4 4 = c.sideNat 4 4 →
      f.sideNat 1 1 = c.sideNat 1 1 → Completes (.commitDone l f) s (fun t => Accepted s t l ∧ (t.land l).commitRep = none ∧ l ∈ t.job.doneL)) ∧
    (∀ c n k, f.typ = 9 → f.vc = 4 → f.sideNat 0 1 = 6 → x.revertRep = some c → s.job.restoring = some n →
      s.job.snaps.find? (fun k => k.number == n) = some k → f.version = c.version → f.sideNat 4 4 = c.sideNat 4 4 →
      (∃ m, m ∈ s.landsUp ∧ m ≠ l ∧ s.job.reverted.contains m = false) ∨ s.job.st ≠ 2 ∨ s.job.need ≠ 0 ∨ s.job.nextLoad.isSome = true →
      Completes (.reverted l f) s (fun t => Accepted s t l ∧ (t.land l).revertRep = none ∧ l ∈ t.job.reverted ∧ t.job.version = s.job.version)) ∧
    (∀ c n k, f.typ = 9 → f.vc = 4 → f.sideNat 0 1 = 6 → x.revertRep = some c → s.job.restoring = some n →
      s.job.snaps.find? (fun k => k.number == n) = some k → f.version = c.version → f.sideNat 4 4 = c.sideNat 4 4 →
      (∀ m, m ∈ s.landsUp → m ≠ l → s.job.reverted.contains m = true) → s.job.restVia = [] → s.job.restIn = [] → 0 < k.len →
      s.job.st = 2 → s.job.need = 0 → s.job.nextLoad = none →
      (∀ i, i < min 4 k.stripes → (s.pairLanding i).isSome = true) →
      Completes (.reverted l f) s (fun t => Accepted s t l ∧ (t.land l).revertRep = none ∧ t.job.version = k.version ∧ t.job.restoring = some n)) ∧
    (∀ k, f.typ = 4 → f.vc = 3 → f.response = true → s.job.restoring = none → f.sideNat 0 4 ≠ 0xFFFFFFFF → s.job.snaps = [k] →
      k.number = f.sideNat 0 4 → k.taken = false → k.sent < k.stripes → Completes (.snapFrame l f) s (fun t => Accepted s t l ∧
        t.job.snaps = [{ k with answered := insNat k.answered (l % 4) }])) ∧
    (f.typ ≠ 7 → f.typ ≠ 8 → inboundOk f = false → Completes (.badFrame l f) s (fun t => Accepted s t l ∧
      t.fld (landReg l 0x18) 15 0 = min 65535 (s.fld (landReg l 0x18) 15 0 + 1) ∧ t.stack = s.stack ∧ t.cores = s.cores ∧
      (t.land l).outQ = x.outQ)) ∧
    (∀ unc, x.nakWanted = false → Completes (.frameLoss ⟨l, unc⟩) s (fun t =>
      (unc = false → t.fld (landReg l 0x10) 31 16 = min 65535 (s.fld (landReg l 0x10) 31 16 + 1) ∧ t.reg (landReg l 0x14) = s.reg (landReg l 0x14)) ∧
      (unc = true → t.fld (landReg l 0x14) 31 24 = min 255 (s.fld (landReg l 0x14) 31 24 + 1) ∧ t.reg (landReg l 0x10) = s.reg (landReg l 0x10)) ∧
      (t.land l).nakWanted = true ∧
      (t.land l).probeQ = x.probeQ ++ [s.hailFrame l true] ∧ (t.land l).rxExpect = x.rxExpect))

/-- FRAME_SEND puts the next frame on the wire: a resend first, then a due HAIL or PROBE response, then a new frame with the next sequence
number and one frame of credit, each with its CRC; a HOLD that the landing sent for that VC ends first; INJECTED_DELAY_END lets held frames go
on in order. That the fields of a HAIL are those of the moment it is sent is the model's choice (log entry 26; R369, R371, R380, R382, R383,
R387, R388, R394). -/
def Obligations.frames_are_sent : Prop :=
  ∀ (s : State) (l : Nat), l < 8 →
    let x := s.land l
    (∀ i f, s.sends l = true → x.resendIdx = some i → x.replay[i]? = some f → Completes (.frameSend l) s (fun t =>
      (t.land l).wire = [(crcOf { f with resend := true }, { f with resend := true })] ∧ (t.land l).replay = x.replay ∧
      (t.land l).resendIdx = if i + 1 < x.replay.length then some (i + 1) else none)) ∧
    (∀ f rest, s.sends l = true → x.resendIdx = none → x.probeQ = f :: rest → Completes (.frameSend l) s (fun t =>
      let g := if f.typ = 7 then s.hailFrame l (bit (f.sideNat 3 1) 0 && x.nakWanted) else f
      (t.land l).wire = [(crcOf g, g)] ∧ (t.land l).probeQ = rest ∧ (t.land l).replay = x.replay)) ∧
    (∀ f, s.sends l = true → x.resendIdx = none → x.probeQ = [] → x.grantIn = [] → s.nextFrame l = some f → f.typ ≠ 5 →
      (bit (s.reg (landReg l 8)).toNat f.vc && !s.holdStays l f.vc) = false ∨ f.typ = 6 →
      let g := { f with seq := x.txSeq }
      Completes (.frameSend l) s (fun t => (t.land l).wire = [(crcOf g, g)] ∧ (t.land l).replay = x.replay ++ [g] ∧
        (t.land l).txSeq = (x.txSeq + 1) % 2 ^ 24 ∧ SMap.get 0 (t.land l).credit f.vc = SMap.get 0 x.credit f.vc - 1 ∧ t.cores = s.cores)) ∧
    (∀ f, s.sends l = true → x.resendIdx = none → x.probeQ = [] → x.grantIn = [] → s.nextFrame l = some f → f.vc < 32 → f.typ ≠ 6 →
      bit (s.reg (landReg l 8)).toNat f.vc = true → s.holdStays l f.vc = false → Completes (.frameSend l) s (fun t =>
        (t.reg (landReg l 8)).toNat = (s.reg (landReg l 8)).toNat - 2 ^ f.vc ∧ t.cores = s.cores)) ∧
    (x.present = true → s.bayUp (landingBay l) = true → x.injHeldIn = [] → Completes (.injectedDelayEnd l) s (fun t =>
      (t.land l).wire = x.injHeldOut.map (fun f => (crcOf f, f)) ∧ (t.land l).injHeldOut = [] ∧ t.regs = s.regs ∧ t.cores = s.cores))

/-- The link's timers and lane groups: NAK_REPEAT, HAIL_ACK_DUE and HAIL_IDLE queue a HAIL, REPLAY_TIMEOUT resends from the oldest frame,
HOLD adds its VC to the mask, PARTNER_LOST and a link with fewer than 4 lane groups stop the landing, whether the group was in service or failed its training, LINK_TRAINED brings it back (R367,
R371, R380 to R382, R385, R387, R390; the payload of PARTNER_LOST is the model's choice, log entry 14). -/
def Obligations.links_are_kept : Prop :=
  ∀ (s : State) (l : Nat), l < 8 →
    let x := s.land l
    let up := fun (t : State) => bit (t.reg (landReg l 4)).toNat
    (s.linkLive l = true → x.nakWanted = true → Completes (.nakRepeat l) s (fun t =>
      (t.land l).probeQ = x.probeQ ++ [s.hailFrame l true] ∧ t.regs = s.regs ∧ (t.land l).outQ = x.outQ)) ∧
    (s.linkLive l = true → x.ackDue = true → Completes (.hailAckDue l) s (fun t =>
      (t.land l).probeQ = x.probeQ ++ [s.hailFrame l false] ∧ (t.land l).ackDue = false ∧ t.regs = s.regs)) ∧
    (s.linkUp l = true → Completes (.hailIdle l) s (fun t => (t.land l).probeQ = x.probeQ ++ [s.hailFrame l false] ∧ t.regs = s.regs)) ∧
    (s.linkLive l = true → x.replay ≠ [] → x.resendIdx = none → Completes (.replayTimeout l) s (fun t =>
      (t.land l).resendIdx = some 0 ∧ (t.land l).replay = x.replay ∧ t.fld (landReg l 0x10) 15 0 = min 65535 (s.fld (landReg l 0x10) 15 0 + 1))) ∧
    (∀ vc cause bay, s.linkLive l = true → s.fld (landReg l 0) 15 7 ≠ 0 → vc < 32 → s.holdCause l cause bay = true →
      bit (s.reg (landReg l 8)).toNat vc = false → Completes (.hold l vc cause bay) s (fun t =>
        (t.reg (landReg l 8)).toNat = (s.reg (landReg l 8)).toNat + 2 ^ vc ∧ (∀ a, a ≠ landReg l 8 → t.reg a = s.reg a) ∧
        ∃ f, (t.land l).outQ = x.outQ ++ [f] ∧ f.typ = 6 ∧ f.sideNat 0 4 = (s.reg (landReg l 8)).toNat + 2 ^ vc)) ∧
    (s.linkLive l = true → s.active ≠ none → Completes (.partnerLost l) s (fun t => up t 17 = true ∧ t.linkLive l = false ∧
      ∃ e, e ∈ t.evPending ∧ e.code = 0x0403 ∧ e.payload = payload [(1, l)])) ∧
    (∀ g, g < 16 → x.present = true → s.bayUp (landingBay l) = true → s.active ≠ none → Completes (.laneGroupDown l g) s (fun t =>
      up t g = false ∧ (∀ h, h < 16 → h ≠ g → up t h = up s h) ∧ up t 16 = (up s 16 && decide (4 ≤ t.groupsUp l)) ∧
      ∃ e, e ∈ t.evPending ∧ e.code = 0x0401)) ∧
    ∀ g, g < 16 → x.present = true → s.bayUp (landingBay l) = true → Completes (.linkTrained l g) s (fun t =>
      up t g = true ∧ (∀ h, h < 16 → h ≠ g → up t h = up s h) ∧ up t 16 = (up s 16 || decide (4 ≤ t.groupsUp l)) ∧
      (up s 16 = false → 4 ≤ t.groupsUp l → (t.land l).credit = []))

/-! ## Bulk network -/

/-- FLIT_FORWARD moves a lone best-effort flit by dimension order to the next router, or delivers it to its core; MULTICAST_ESCAPE moves a
held copy to the escape class; LINK_RETRY sends the flit that failed its CRC again (R190, R348, R349, R352, R355, R395). -/
def Obligations.routers_move_flits : Prop :=
  ∀ (s : State) (p : Nat), p < 2880 → (s.bay (coreBay p)).dark = false →
    let x := s.rtr p
    (∀ i f, i < 5 → (∀ j, SMap.get [] x.inb j = if j = i then [f] else []) → x.held = [] → x.wait = [] → f.cls = 1 →
      let o := dimRoute f.src p f.dst
      SMap.get [] x.retry o = [] → SMap.get 0 x.delayed o ≤ s.time →
      (∀ q, o ≠ 0 → meshNbr p o = some q → q ≠ p → s.outFenced p o = false → s.roomAt p o 1 = true → bit (s.reg (linkInj p o)).toNat 0 = false →
        Completes (.flitForward p o) s (fun t => SMap.get [] (t.rtr p).inb i = [] ∧
          SMap.get [] (t.rtr q).inb (farPort o) = SMap.get [] (s.rtr q).inb (farPort o) ++ [f] ∧ t.cores = s.cores)) ∧
      (o = 0 → bit (s.reg (coreReg p 8 0)).toNat 0 = false → Completes (.flitForward p 0) s (fun t => SMap.get [] (t.rtr p).inb i = [] ∧
        (t.core p).spad = Mem.write (s.core p).spad f.addr f.data ∧ (t.core p).v = (s.core p).v))) ∧
    (∀ o h, o < 5 → x.held.find? (fun h => h.1 == o && h.2.cls == 2) = some h → Completes (.multicastEscape p o) s (fun t =>
      (t.rtr p).held = x.held.map (fun y => if y == h then (y.1, { y.2 with cls := 4 }) else y) ∧ t.cores = s.cores ∧
      t.fld (coreReg p 8 4) 15 0 = min 65535 (s.fld (coreReg p 8 4) 15 0 + 1))) ∧
    ∀ o q f fs, o < 5 → o ≠ 0 → meshNbr p o = some q → q ≠ p → SMap.get [] x.retry o = f :: fs → s.roomAt p o f.cls = true →
      Completes (.linkRetry p o) s (fun t => SMap.get [] (t.rtr p).retry o = fs ∧ t.cores = s.cores ∧
        SMap.get [] (t.rtr q).inb (farPort o) = SMap.get [] (s.rtr q).inb (farPort o) ++ [f])

/-! ## Stacks -/

/-- Stack events: STACK_CHANNEL_LOST holds the bay and asks for a restore, STACK_REPAIR substitutes a row, STACK_UE loses exactly its row,
PATROL_SCRUB and STACK_ACCESS count a corrected error against the row, which is repaired beyond the limit within a pass, STACK_REFRESH loses nothing, STACK_THERMAL follows the hottest sensor. That the row reads as zero
at the event (log entry 13), the sizes of payloads (14), the end of a scrub pass and the reading master 128 + bay (28) are the model's choice
(R402, R406, R407, R409, R410, R411). -/
def Obligations.stack_events : Prop :=
  ∀ (s : State) (b ch : Nat), b < 60 → ch < 32 → s.bayUp b = true → s.active ≠ none → bit (s.reg (hubReg b 0x404)).toNat ch = true →
    let y := s.bay b
    (y.failedCh.contains ch = false → s.attemptOpen = true → Completes (.stackChannelLost b ch) s (fun t =>
      (t.bay b).held = true ∧ (t.bay b).failedCh = y.failedCh ++ [ch] ∧ 2 ≤ t.job.need ∧ t.stack = s.stack ∧
      ∃ e, e ∈ t.evPending ∧ e.code = 0x0501 ∧ e.payload = payload [(1, b), (1, ch)])) ∧
    (∀ row, y.softRows.contains (ch, row) = false → (y.softRows.filter (fun r => r.1 == ch)).length < 64 → Completes (.stackRepair b ch row) s (fun t =>
      (t.bay b).softRows = y.softRows ++ [(ch, row)] ∧ t.stack = s.stack ∧ t.cores = s.cores ∧
      ∃ e, t.evPending = s.evPending ++ [e] ∧ e.code = 0x0502 ∧ e.payload = payload [(1, b), (1, ch), (4, row)])) ∧
    (∀ a who, a / 2 ^ 36 = b → s.stackOk a 1 = true → s.channelOf a = ch → y.ueRecent = [] →
      (y.softRows.filter (fun r => r.1 == ch)).length < 64 → Completes (.stackUe b ch a who) s (fun t =>
        (∀ x, Mem.byte t.stack x = if s.inRow b ch (s.rowOf a) x then 0 else Mem.byte s.stack x) ∧
        t.fld (hubReg b 0x410) 23 16 = min 255 (s.fld (hubReg b 0x410) 23 16 + 1) ∧ (s.attemptOpen = true → 1 ≤ t.job.need) ∧
        ∃ e, e ∈ t.evPending ∧ e.code = 0x0503 ∧ e.payload = payload [(1, b), (1, ch), (8, a), (1, who)])) ∧
    (∀ row, s.fld (hubReg b 0x418) 4 4 = 1 →
      let had := if y.scrubbed.contains (rowKey ch row) then 0 else SMap.get 0 y.rowCe (rowKey ch row)
      let full := (y.softRows.filter (fun r => r.1 == ch)).length
      (had < max 1 (s.fld (hubReg b 0x418) 3 0) → Completes (.patrolScrub b ch row 1) s (fun t =>
        SMap.get 0 (t.bay b).rowCe (rowKey ch row) = had + 1 ∧ rowKey ch row ∈ (t.bay b).scrubbed ∧
        t.fld (hubReg b 0x410) 15 0 = min 65535 (s.fld (hubReg b 0x410) 15 0 + 1) ∧ t.stack = s.stack)) ∧
      (max 1 (s.fld (hubReg b 0x418) 3 0) ≤ had → y.softRows.contains (ch, row) = false → full < 64 → Completes (.patrolScrub b ch row 1) s (fun t =>
        (t.bay b).softRows = y.softRows ++ [(ch, row)] ∧ t.stack = s.stack)) ∧
      (∀ k, full < 64 → Completes (.patrolScrub b ch row (2 + k)) s (fun t => ∃ e, e ∈ t.evPending ∧ e.code = 0x0503 ∧
        e.payload = payload [(1, b), (1, ch), (8, s.rowAddr b ch row (16 * k)), (1, 128 + b)]))) ∧
    (∀ row, s.bayWaits b = false → s.nextAccess b ch = none →
      SMap.get 0 y.rowCe (rowKey ch row) < max 1 (s.fld (hubReg b 0x418) 3 0) → Completes (.stackAccess b ⟨ch, (row + 1)⟩) s (fun t =>
        SMap.get 0 (t.bay b).rowCe (rowKey ch row) = SMap.get 0 y.rowCe (rowKey ch row) + 1 ∧
        t.fld (hubReg b 0x410) 15 0 = min 65535 (s.fld (hubReg b 0x410) 15 0 + 1) ∧ t.stack = s.stack)) ∧
    Completes (.stackRefresh b ch) s (fun t => t = s) ∧
    ∀ deg, Completes (.stackThermal b deg) s (fun t =>
      let st := s.fld (hubReg b 0x40C) 9 8
      let nx := thermalNext st deg
      t.fld (hubReg b 0x40C) 7 0 = min 255 deg.toNat ∧ (nx ≠ 3 → t.fld (hubReg b 0x40C) 9 8 = nx ∧ t.stack = s.stack) ∧
      (nx = st → t.evPending = s.evPending) ∧ (nx ≠ st → ∃ e, t.evPending = s.evPending ++ [e] ∧ e.code = 0x0504) ∧
      (nx = 3 → st ≠ 3 → (t.bay b).dark = true) ∧
      (nx = 2 → st ≠ 2 → t.sn = s.sn ++ [{ typ := 6, head := b, a := 1, b := min 255 deg.toNat }]))

/-! ## Power, clock and temperature -/

/-- BAY_LOSS darkens its bay: every core of it is fenced, its stack is gone and the rest of memory stays; SUPPLY_TRIP opens the disconnect and
marks the repair record; PHASE_LOST, BUS_CONVERTER_LOST and CRACK_SUSPECT record what was lost and send their alarm. The sizes of payloads (log
entry 14), the phase numbers and the split of PHASE_LOST between alarm and event (15) are the model's choice (R434, R442, R461, R462, R466, R469,
R530). -/
def Obligations.bays_lose_power : Prop :=
  ∀ (s : State) (b : Nat), b < 60 → s.bayUp b = true → s.active ≠ none →
    (Completes (.bayLoss b) s (fun t => (t.bay b).dark = true ∧ (∀ i, i < 48 → t.fenced (b * 48 + i) = true) ∧
      (∀ a, Mem.byte t.stack a = if a / 2 ^ 36 = b then 0 else Mem.byte s.stack a) ∧ ({ typ := 5, head := b, a := 48, b := 0 } : Token) ∈ t.sn)) ∧
    (∀ rail, rail ≤ 6 → (rail = 5 → (bayLanding b).isSome = true) → Completes (.supplyTrip b rail) s (fun t =>
      (t.bay b).dark = true ∧ b ∈ t.rep.darkBays ∧ t.sn = s.sn ++ [{ typ := 6, head := b, a := 3, b := rail }] ∧ t.regs = s.regs ∧ t.cores = s.cores)) ∧
    (∀ n, n < 20 → s.phaseOff b n = false → Completes (.phaseLost b n) s (fun t => t.phaseOff b n = true ∧
      (∀ k, k ≠ n → t.phaseOff b k = s.phaseOff b k) ∧ ({ typ := 6, head := b, a := 4, b := n } : Token) ∈ t.sn ∧
      (phaseCeil (t.vcoreW b) (t.vsramW b) = none → (t.bay b).dark = true) ∧
      ∀ c, phaseCeil (t.vcoreW b) (t.vsramW b) = some c → t.fld (paceStat b) 5 4 = c)) ∧
    (∀ n d, domains12.find? (fun d => decide (d.1 ≤ n ∧ n < d.1 + d.2.1)) = some d → s.phaseOff b n = false →
      (d.2.2.2.2 = true → (bayLanding b).isSome = true) →
      let up := ((List.range d.2.1).filter (fun i => !s.phaseOff b (d.1 + i) && d.1 + i != n)).length
      Completes (.phaseLost b n) s (fun t => t.phaseOff b n = true ∧ t.bayUp b = decide (d.2.2.1 ≤ up) ∧ (up < d.2.2.1 → b ∈ t.rep.darkBays) ∧
        ∃ e, t.evPending = s.evPending ++ [e] ∧ e.code = 0x0704 ∧ e.payload = payload [(1, b)])) ∧
    (∀ k, k < 2 → (s.bay b).convLost = [] → Completes (.busConverterLost b k) s (fun t => (t.bay b).convLost = [k] ∧ t.bayUp b = true ∧
      t.fld (phaseReg b) 28 28 = 1 ∧ ∃ e, t.evPending = s.evPending ++ [e] ∧ e.code = 0x0705)) ∧
    ∀ g, g < 20 → bit (s.reg (hubReg b 0x60C)).toNat g = false → Completes (.crackSuspect b g) s (fun t =>
      bit (t.reg (hubReg b 0x60C)).toNat g = true ∧ ({ typ := 6, head := b, a := 8, b := g } : Token) ∈ t.sn)

/-- Samples and changes of a bay: CURRENT_GUARD shows the sample, engages above I_lim and releases 10 A below it, DROOP counts beyond its limit,
PACE_CHANGE takes the target, JUNCTION_SAMPLE shows the temperature and falls to P3 at 105 °C, CLOCK_FAILOVER moves to the next source or to
holdover, and the loss of both references puts their bays in holdover. The code of a ceiling is a free value (log entry 5); the sizes of payloads
(14), readings that stand for times (16) and what a sample carries (29) are the model's choice (R463, R464, R467, R468, R475 to R477). -/
def Obligations.bay_samples : Prop :=
  ∀ (s : State) (b : Nat), b < 60 → s.bayUp b = true → s.active ≠ none →
    (∀ ma, Completes (.currentGuard b ma) s (fun t =>
      let y := s.bay b
      let lim := 1000 * iLim (s.vcoreW b)
      let on := if lim < ma then true
        else if ma + 10000 < lim ∧ (y.guardFail = false ∨ s.fld (paceStat b) 10 10 = 0) then false else y.guardCur
      t.fld (hubReg b 0x610) 9 0 = min 1023 ((ma + 999) / 1000) ∧
      t.fld (paceStat b) 11 11 = (if on ∨ y.guardHdr ≠ [] then 1 else 0) ∧ t.cores = s.cores ∧ t.stack = s.stack)) ∧
    (∀ mv, max 1 (s.fld (hubReg b 0x614) 23 16) < mv → (s.bay b).droopAt = none → Completes (.droop b mv) s (fun t =>
      t.fld (hubReg b 0x61C) 31 16 = min 65535 (s.fld (hubReg b 0x61C) 31 16 + 1) ∧ t.sn = s.sn ++ [{ typ := 6, head := b, a := 5, b := mv }] ∧
      (t.bay b).droopAt = some s.time)) ∧
    (s.fld (paceStat b) 10 10 = 1 → (s.bay b).target < 4 → (s.bay b).paceBy ≠ 0 → Completes (.paceChange b) s (fun t =>
      t.fld (paceStat b) 1 0 = (s.bay b).target ∧
      ∃ e, t.evPending = s.evPending ++ [e] ∧ e.code = 0x0703 ∧ e.payload = payload [(1, b), (1, (s.bay b).target), (1, (Config.ceilingCode (s.bay b).paceBy).toNat)])) ∧
    (∀ (deg : Int) hot, 105 ≤ deg → deg < 112 → hot ≤ 48 → (s.bay b).highAt = none → Completes (.junctionSample b deg hot) s (fun t =>
      t.fld (hubReg b 0x620) 7 0 = min 255 deg.toNat ∧ t.fld (hubReg b 0x620) 13 8 = hot ∧ t.fld (paceStat b) 7 6 = 3 ∧
      t.sn = s.sn ++ [{ typ := 6, head := b, a := 7, b := min 255 deg.toNat }] ∧ t.bayUp b = true)) ∧
    (∀ (deg : Int) hot, 112 ≤ deg → 99 ≤ (s.bay b).hot112 → Completes (.junctionSample b deg hot) s (fun t =>
      (t.bay b).dark = true ∧ t.sn = s.sn ++ [{ typ := 6, head := b, a := 3, b := 0 }])) ∧
    (s.fld (clkStat b) 4 4 = 0 → Completes (.clockFailover b) s (fun t =>
      let old := s.fld (clkStat b) 2 0
      let next := (s.clkList b).find? (fun k => s.clkSource b k && k != old && !(s.bay b).lostSrc.contains k)
      let both := old = 4 ∧ (b = 25 ∨ 4 ∈ (s.bay 25).lostSrc) ∧ (b = 34 ∨ 4 ∈ (s.bay 34).lostSrc)
      old ∈ (t.bay b).lostSrc ∧
      (both → ∀ x, x = 25 ∨ x = 34 → s.bayUp x = true → t.fld (clkStat x) 4 4 = 1) ∧
      (∀ k, ¬both → next = some k → k < 8 → t.fld (clkStat b) 2 0 = k ∧ t.fld (clkStat b) 4 4 = 0 ∧
        t.sn = s.sn ++ [{ typ := 6, head := b, a := 6, b := k }]) ∧
      (¬both → next = none → t.fld (clkStat b) 3 3 = 0 ∧ t.fld (clkStat b) 4 4 = 1 ∧ ∃ e, e ∈ t.evPending ∧ e.code = 0x0706)))

/-- Header switches: HDR_STAGE tries the lowest core due, and grants its stage within the current margin or defers it; HDR_DEFER goes over to
quarter stages and then engages the guard; a cold spare is switched off after its SPARE_DAILY_TEST, and one that fails is fenced (R470, R471, R473). -/
def Obligations.header_switches : Prop :=
  ∀ (s : State) (p : Nat), p < 2880 → s.coreUp p = true →
    let b := coreBay p
    let i := coreIdx p
    let y := s.bay b
    let lim := 1000 * (iLim (s.vcoreW b) - s.fld (hubReg b 0x614) 7 0)
    (i ∉ y.powered → i ∉ y.hdrQuarter → y.hdr = [] → y.hdrDue = [] → s.phase = 0 →
      (y.sample + 500 * (y.hdrSince + 4) ≤ lim →
        Completes (.hdrStage p) s (fun t => (t.bay b).hdr = [(i, 4)] ∧ (t.bay b).hdrSince = y.hdrSince + 4 ∧ (t.bay b).hdrDue = [] ∧ t.cores = s.cores)) ∧
      (lim < y.sample + 500 * (y.hdrSince + 4) →
        Completes (.hdrStage p) s (fun t => (t.bay b).hdr = [(i, 0)] ∧ (t.bay b).hdrDue = [i] ∧ (t.bay b).hdrSince = y.hdrSince ∧
          t.fld (hubReg b 0x618) 23 8 = min 65535 (s.fld (hubReg b 0x618) 23 8 + 1)))) ∧
    (i ∉ y.powered → i ∉ y.hdrQuarter → y.hdr = [(i, 28)] → y.hdrDue = [] → s.phase = 0 → y.sample + 500 * (y.hdrSince + 4) ≤ lim →
      Completes (.hdrStage p) s (fun t => (t.bay b).hdr = [] ∧ i ∈ (t.bay b).powered)) ∧
    (∀ j n, j < i → i ∉ y.powered → j ∉ y.hdrQuarter → y.hdr = [(j, n)] → y.hdrDue = [j] → n < 28 → s.phase = 0 → y.sample + 500 * (y.hdrSince + 4) ≤ lim →
      Completes (.hdrStage p) s (fun t => (t.bay b).hdr = [(j, n + 4), (i, 0)] ∧ (t.bay b).hdrDue = [i] ∧ t.cores = s.cores)) ∧
    (y.hdr.any (fun e => e.1 == i) = true → i ∉ y.hdrQuarter → Completes (.hdrDefer p) s (fun t =>
      (t.bay b).hdrQuarter = y.hdrQuarter ++ [i] ∧ (t.bay b).hdr = y.hdr ∧ t.cores = s.cores)) ∧
    (i ∈ y.hdrQuarter → y.hdr.any (fun e => e.1 == i) = true → Completes (.hdrDefer p) s (fun t =>
      i ∈ (t.bay b).guardHdr ∧ t.fld (paceStat b) 11 11 = 1 ∧ t.cores = s.cores)) ∧
    (bit (s.reg (hubReg b 0x614)).toNat 24 = false ∨ p ∉ s.sparesOf b → ∀ ok, Completes (.spareDailyTest p ok) s (fun t => t = s)) ∧
    (bit (s.reg (hubReg b 0x614)).toNat 24 = true → p ∈ s.sparesOf b →
      Completes (.spareDailyTest p true) s (fun t => i ∉ (t.bay b).powered ∧ (∀ e, e ∈ (t.bay b).hdr → e.1 ≠ i) ∧ t.rep = s.rep ∧ t.cores = s.cores ∧
        t.fenced p = false) ∧
      Completes (.spareDailyTest p false) s (fun t => t.fenced p = true ∧ SMap.get 0 t.rep.fence p = 1))

/-- Module power: POWER_GUARD shows the averages and lowers the bay with the highest current above a limit, COOLANT_MONITOR gives every bay the
ceiling of Table 18.10 at once and stops the module after 5 s of low flow, inputs are lost and restored, RISK_SAMPLE shows the score. Empty
payloads (log entry 14) and what the samples and times of these commands are (29) are the model's choice (R450, R457 to R459, R479, R548, R550). -/
def Obligations.module_power : Prop :=
  ∀ (s : State), s.mpUndef = false → s.active ≠ none →
    (∀ w54 w12 b, w54 < 65536 → w12 < 65536 → (21500 < w54 ∨ min 25000 (s.fld (gloReg 0x604) 15 0) < w54 + w12) →
      bestBay (fun b => (s.bay b).sample) (((List.range 60).filter s.bayUp).filter (fun b => decide (max (s.bay b).modCeilPow (s.bay b).modCeilCool < 3))) = some b →
      b < 60 → Completes (.powerGuard w54 w12) s (fun t => (t.reg (gloReg 0x600)).toNat = w54 + 65536 * w12 ∧
        (t.bay b).modCeilPow = max (s.bay b).modCeilPow (s.bay b).modCeilCool + 1 ∧
        t.fld (paceStat b) 9 8 = max (s.bay b).modCeilPow (s.bay b).modCeilCool + 1 ∧ (∀ c, c ≠ b → (t.bay c).modCeilPow = (s.bay c).modCeilPow) ∧ t.cores = s.cores)) ∧
    (∀ wf pf wi pi,
      let next := if coolRow3 wf pf wi pi ∨ 1 < s.inp.cool3 then 3 else if coolRow1 wf wi pi ∨ 1 < s.inp.cool1 then 1 else 0
      next ≠ s.inp.coolant → s.inp.coolLow < 49 → Completes (.coolantMonitor wf pf wi pi) s (fun t =>
      t.inp.coolant = next ∧ (∀ b, b < 60 → (t.bay b).modCeilCool = next) ∧ t.inp.stopped = s.inp.stopped ∧
      t.inp.cool1 = (if coolRow1 wf wi pi then 100 else s.inp.cool1 - 1) ∧ t.inp.cool3 = (if coolRow3 wf pf wi pi then 100 else s.inp.cool3 - 1) ∧
      ∃ e, t.evPending = s.evPending ++ [e] ∧ e.code = 0x0708 ∧ e.payload = [])) ∧
    (∀ wf pf wi pi, wf < 32 → 49 ≤ s.inp.coolLow → Completes (.coolantMonitor wf pf wi pi) s (fun t =>
      t.inp.stopped = true ∧ ∀ b, b < 60 → t.bayUp b = false)) ∧
    Completes .riskSample s (fun t => t.fld (gloReg 0x500) 7 0 = s.riskScore ∧ t.riskBand = s.riskScore / 64 ∧ t.cores = s.cores ∧ t.stack = s.stack ∧
      (s.riskBand = s.riskScore / 64 → t.evPending = s.evPending)) ∧
    (∀ n, n < 2 → s.inp.lost54.contains n = false → Completes (.inputLost 0 n) s (fun t => n ∈ t.inp.lost54 ∧ t.regs = s.regs ∧
      ∃ e, t.evPending = s.evPending ++ [e] ∧ e.code = 0x0701 ∧ e.payload = [])) ∧
    (∀ n, n < 4 → s.inp.lost12.contains n = false → Completes (.inputLost 1 n) s (fun t => n ∈ t.inp.lost12 ∧ t.regs = s.regs ∧
      ∃ e, t.evPending = s.evPending ++ [e] ∧ e.code = 0x0701 ∧ e.payload = [])) ∧
    (s.readyUp = false → s.phase < 5 → Completes (.inputLost 2 0) s (fun t => t.inp.ok54 = false ∧ t.inp.stopped = s.inp.stopped ∧ t.bays = s.bays)) ∧
    (s.readyUp = true ∨ 5 ≤ s.phase → Completes (.inputLost 2 0) s (fun t => t.inp.stopped = true ∧ t.inp.ok54 = false ∧ ∀ b, b < 60 → t.bayUp b = false)) ∧
    (s.inp.on12 = true → Completes (.inputLost 3 0) s (fun t => t.inp.stopped = true ∧ t.inp.on12 = false ∧ t.active = none ∧ ∀ b, b < 60 → t.bayUp b = false)) ∧
    (∀ n, Completes (.inputRestored 0 n) s (fun t => n ∉ t.inp.lost54 ∧ t.inp.lost12 = s.inp.lost12 ∧ t = { s with inp := t.inp })) ∧
    (∀ n, Completes (.inputRestored 1 n) s (fun t => n ∉ t.inp.lost12 ∧ t.inp.lost54 = s.inp.lost54 ∧ t = { s with inp := t.inp })) ∧
    ∀ k out, k < 2 → Completes (.inputOutOfRange k out) s (fun t => t.inp.outRange.contains k = out ∧ (k = 0 → t.inp.ok54 = !out) ∧
      t = { s with inp := t.inp })

/-! ## Start-up and boards -/

/-- A start: POWER_ON and MODULE_RESET keep only flash, fuses and the repair record; PLL_LOCK locks a bay to its first source; BAY_ENABLE enables
the next four bays at P3; the self-test fences what fails and leaves alone a core disabled at shipment; stacks and landings train; READY reports.
Which times of a start a command stands for (log entry 16) and which orders each command carries out (30) are the model's choice (R364, R475,
R512, R527 to R535, R545). -/
def Obligations.module_starts : Prop :=
  ∀ (s : State),
    let cold (t : State) : Prop := t.inp.on12 = true ∧ t.cores = [] ∧ t.stack = [] ∧ t.lands = [] ∧ t.job.st = 0 ∧ t.readyUp = false ∧
      t.rep = { s.rep with fence := t.rep.fence } ∧ (∀ p, SMap.get 0 s.rep.fence p ≠ 0 → SMap.get 0 t.rep.fence p = SMap.get 0 s.rep.fence p) ∧
      (∀ b, b < 2 → (t.board b).flash = (s.board b).flash ∧ (t.board b).secCtr = (s.board b).secCtr ∧
        (t.board b).fuseKeys = (s.board b).fuseKeys ∧ (t.board b).revoked = (s.board b).revoked) ∧ (∀ b, (t.bay b).enabled = false) ∧
      ∀ a, aBlk a = 6 → t.reg a = s.reg a
    (s.inp.on12 = false → Completes .powerOn s cold) ∧ (s.inp.on12 = true → Completes .powerOn s (fun t => t = s)) ∧
    (s.inp.on12 = true ∨ s.inp.stopped = true → Completes .moduleReset s cold) ∧
    (∀ b k, b < 60 → s.phase = 3 → s.inp.stopped = false → (s.bay b).dark = false →
      (s.clkList b).find? (fun k => s.clkSource b k && !(s.bay b).lostSrc.contains k) = some k → k < 8 → Completes (.pllLock b) s (fun t =>
        t.fld (clkStat b) 2 0 = k ∧ t.fld (clkStat b) 3 3 = 1 ∧ t.fld (clkStat b) 4 4 = 0 ∧ t.bays = s.bays)) ∧
    (∀ g gs, s.mpUndef = false → s.phase = 4 → s.active ≠ none → s.inp.no54 = false → s.inp.stopped = false → s.inp.ok54 = true → s.bayGroups = g :: gs →
      Completes .bayEnable s (fun t => ∀ i, i < 4 → (s.bay (4 * g + i)).dark = false →
        t.bayUp (4 * g + i) = true ∧ t.fld (paceStat (4 * g + i)) 1 0 = 3)) ∧
    (s.mpUndef = false → s.inp.no54 = true → s.inp.ok54 = true → Completes .no54vResume s (fun t => t.inp.no54 = false ∧ t = { s with inp := t.inp })) ∧
    (∀ p c, p < 2880 → c ∈ [1, 3, 5] → s.phase = 6 → s.inp.stopped = false → s.bayUp (coreBay p) = true → s.shipGood p = true →
      s.startFenced.contains p = false → SMap.get 0 s.rep.fence p = 0 →
      Completes (.startUpTest [(p, c)]) s (fun t => t.phase = (if t.trainingOver then 8 else 7) ∧ t.fenced p = true ∧ SMap.get 0 t.rep.fence p = c)) ∧
    (∀ p fails, p < 2880 → s.phase = 6 → s.inp.stopped = false → s.shipGood p = false → s.fenced p = true → fails.all (fun f => decide (f.1 < 2880) && [1, 3, 5].contains f.2) = true →
      Completes (.startUpTest fails) s (fun t => t.phase = (if t.trainingOver then 8 else 7) ∧ t.fenced p = true ∧ SMap.get 0 t.rep.fence p = SMap.get 0 s.rep.fence p)) ∧
    (∀ b ch, b < 60 → ch < 32 → s.phase = 7 → s.bayUp b = true → bit (s.reg (hubReg b 0x404)).toNat ch = true → (s.bay b).trainedCh.contains ch = false →
      Completes (.stackTraining b ch true) s (fun t => ch ∈ (t.bay b).trainedCh ∧
        t.phase = (if t.trainingOver then 8 else 7) ∧
        ∀ a, Mem.byte t.stack a = if a / 2 ^ 36 = b ∧ s.channelOf a = ch then 0 else Mem.byte s.stack a) ∧
      Completes (.stackTraining b ch false) s (fun t => bit (t.reg (hubReg b 0x404)).toNat ch = false)) ∧
    (∀ l, l < 8 → 7 ≤ s.phase → (s.land l).present = true → s.bayUp (landingBay l) = true → bit (s.reg (landReg l 4)).toNat 16 = false → s.job.st = 0 →
      Completes (.landingTraining l 0xFFFF) s (fun t => t.fld (landReg l 4) 15 0 = 0xFFFF ∧ t.linkUp l = true)) ∧
    (s.mpUndef = false → 7 ≤ s.phase → s.inp.stopped = false → s.active ≠ none → s.trainingOver = true → Completes .ready s (fun t =>
      t.readyUp = true ∧ t.phase = 0 ∧ t.cores = s.cores ∧ ∃ e, e ∈ t.evPending ∧ e.code = 0x0003))

/-- Boards: the standby takes over when the heartbeat is lost, a booted board takes its role, RESET_L leaves a board only its flash and fuses, a
board that is inserted boots, and one that is pulled while it stands by is gone. The code of a cause is a free value (log entry 5); the sizes of
payloads (14) and the order of a takeover and of board events (31) are the model's choice (R481 to R483, R528, R549). -/
def Obligations.boards_take_roles : Prop :=
  ∀ (s : State) (b : Nat), b < 2 →
    (∀ x, x < 2 → s.active = some (1 - b) → s.standsBy b = true → (s.board b).beat = none → Completes (.boardFailover ⟨0, x⟩) s (fun t =>
      t.active = some b ∧ (t.board (1 - b)).ready = false ∧ t.readyUp = s.readyUp ∧
      ∃ e, e ∈ t.evPending ∧ e.code = 0x0801 ∧ e.payload = payload [(1, 1 - b), (1, (Config.failoverCause 0).toNat)])) ∧
    (s.active = some (1 - b) → s.standsBy b = true → Completes (.boardFailover ⟨1, b⟩) s (fun t =>
      t.active = s.active ∧ (t.board b).present = false ∧ (t.board (1 - b)) = s.board (1 - b) ∧ t.regs = s.regs ∧ t.cores = s.cores ∧
      t.evPending = s.evPending)) ∧
    (s.active = some (1 - b) → s.standsBy b = true → Completes (.boardFailover ⟨1, 1 - b⟩) s (fun t =>
      t.active = some b ∧ (t.board (1 - b)).present = false ∧ t.readyUp = s.readyUp ∧
      ∃ e, e ∈ t.evPending ∧ e.code = 0x0801 ∧ e.payload = payload [(1, 1 - b), (1, (Config.failoverCause 1).toNat)])) ∧
    ((s.board b).present = true → (s.board b).booted = true → (s.board b).ready = false → s.active = none → s.mpUndef = false →
      Completes (.boardReady b) s (fun t => t.active = some b ∧ (t.board b).ready = true ∧ ∃ e, e ∈ t.evPending ∧ e.code = 0x0802)) ∧
    ((s.board b).present = true → s.inp.on12 = true → Completes (.boardReset b) s (fun t =>
      (t.board b).flash = (s.board b).flash ∧ (t.board b).secCtr = (s.board b).secCtr ∧ (t.board b).fuseKeys = (s.board b).fuseKeys ∧
      (t.board b).revoked = (s.board b).revoked ∧ (t.board b).mbx = [] ∧ (t.board b).ready = false ∧ (∀ o, t.breg b o = bReset b o) ∧
      t.active = (if s.active = some b then none else s.active) ∧ t.cores = s.cores ∧ t.regs = s.regs)) ∧
    (s.inp.on12 = true → Completes (.boardInserted b true) s (fun t => (t.board b).present = true ∧ (t.board b).booted = true ∧
      (t.board b).ready = false ∧ (t.board b).mbx = [] ∧ t.cores = s.cores ∧ t.regs = s.regs)) ∧
    ((s.board b).booted = true → Completes (.heartbeat b) s (fun t => (t.board b).beat = some s.time ∧ t.regs = s.regs ∧ t.cores = s.cores))

/-! ## Commits, snapshots, boundaries -/

/-- COMMIT_DECISION of a step whose landings are all ready raises the version and sends COMMIT on every working landing; that of a step that
a landing, lost input or a group holds keeps the version, aborts the attempt, raises one STEP_HELD and waits with VC0 to VC3 held; COMMIT_REPEAT
sends COMMIT again, COMMIT_STALLED reports a missing READY, and STEP_BOUNDARY replays an aborted step as its next attempt. The sizes of payloads (log
entry 14), what restarts at a boundary (21), who is named and the events before STEP_HELD (22) are the model's choice (R282, R305, R314 to R317,
R331, R455). -/
def Obligations.steps_commit : Prop :=
  ∀ (s : State), s.mpUndef = false → s.active ≠ none →
    (s.job.st = 2 → s.job.committed = false → s.job.aborted = false → s.job.crossing = some 1 → s.applies = true → s.copyWaits = false → s.stepHeld = false →
      s.allReady = true → s.job.watchDone = true → s.job.fencedSince = false → Completes .commitDecision s (fun t =>
        t.job.committed = true ∧ t.job.version = (s.job.version + 1) % 65536 ∧ t.job.lastCommit = some s.job.step ∧ t.job.step = s.job.step ∧
        (∀ l, l < 8 → t.landV l = (s.job.version + 1) % 65536) ∧ t.cores = s.cores ∧
        (∀ l, l < 8 → s.landWorks l = true → ∃ f, (t.land l).commitRep = some f ∧ f ∈ (t.land l).outQ ∧ f.typ = 9 ∧ f.sideNat 0 1 = 2 ∧
          f.version = (s.job.version + 1) % 65536) ∧
        ∃ e, t.evPending = s.evPending ++ [e] ∧ e.code = 0x0102)) ∧
    (s.copyWaits = true → Completes .commitDecision s (fun t => t = s)) ∧
    (s.job.st = 2 → s.job.committed = false → s.job.aborted = false → s.job.crossing = some 1 → s.applies = true → s.copyWaits = false → s.stepHeld = true →
      s.objectsDone = true → s.backwardIssued = true → s.job.watchDone = true → Completes .commitDecision s (fun t =>
        t.job.st = 4 ∧ t.job.committed = false ∧ t.job.aborted = true ∧ t.job.version = s.job.version ∧ t.job.step = s.job.step ∧
        t.job.attempt = s.job.attempt ∧ t.cores = s.cores ∧ t.stack = s.stack ∧
        (∀ l, l < 8 → (s.land l).present = true → t.reg (landReg l 8) = BitVec.ofNat 32 ((s.reg (landReg l 8)).toNat ||| 15)) ∧
        (∀ l, l < 8 → s.landWorks l = true → ∃ f, f ∈ (t.land l).outQ ∧ f.typ = 9 ∧ f.sideNat 0 1 = 4 ∧ f.version = (s.job.version + 1) % 65536) ∧
        ∃ a e, t.evPending = s.evPending ++ [a, e] ∧ a.code = 0x0104 ∧ e.code = 0x0103 ∧ e.payload = payload s.holderFields ∧
          (∀ l, (s.land l).heldStep = true → (∀ k, k < l → (s.land k).heldStep = false) → l < 8 → e.payload = payload [(8, s.job.step), (1, l)]))) ∧
    (∀ l f, l < 8 → (s.land l).present = true → s.bayUp (landingBay l) = true → (s.land l).commitRep = some f → Completes (.commitRepeat l) s (fun t =>
      (t.land l).outQ = (s.land l).outQ ++ [f] ∧ t.job = s.job ∧ t.regs = s.regs)) ∧
    (∀ l, s.landsUp.find? (fun l => (SMap.get none s.job.prepared l).isSome && (SMap.get none s.job.readyCnt l).isNone) = some l →
      s.fld (gloReg 0x204) 15 0 ≠ 0 → s.job.stalledRaised = false → s.job.committed = false → Completes .commitStalled s (fun t =>
        t.job.stalledRaised = true ∧ t.regs = s.regs ∧
        ∃ e, t.evPending = s.evPending ++ [e] ∧ e.code = 0x0105 ∧ e.payload = payload [(1, l)])) ∧
    (s.job.st = 2 → s.job.between = false → s.job.need = 1 → s.job.restoring = none → s.job.nextLoad = none →
      s.bays.all (fun e => e.2.failedCh.isEmpty) = true → Completes .stepBoundary s (fun t =>
        t.job.attempt = SMap.get 0 s.job.attemptTop s.job.step ∧ SMap.get 0 t.job.attemptTop s.job.step = SMap.get 0 s.job.attemptTop s.job.step + 1 ∧
        t.job.step = s.job.step ∧ t.job.version = s.job.version ∧ t.job.crossing = none ∧ t.job.need = 0 ∧ t.job.committed = false ∧
        ∀ p, p < 2880 → (s.core p).roles ≠ [] → s.coreUp p = true → t.pc p = 0 ∧ t.running p = true ∧ (t.core p).mulX = none ∧
          (t.core p).spad = (s.core p).spad)) ∧
    (s.job.st = 2 → s.job.between = false → s.job.need = 0 → s.ledgerHeld = false → s.attemptOver = true →
      s.job.atBoundary = [] → s.snapIsDue = false → s.job.lastSnapStep + s.snapEvery ≠ s.job.step + 1 → s.handover = none → s.liveOrder = 0 → s.mapRequests = [] →
      s.job.nextLoad = none → Completes .stepBoundary s (fun t => t.job.step = s.job.step + 1 ∧ t.job.version = s.job.version ∧
        t.job.committed = false ∧ t.job.crossing = none ∧
        ∀ p, p < 2880 → (s.core p).roles ≠ [] → s.coreUp p = true → (s.core p).endHold = true → (t.core p).restart = true ∧ SameMem (s.core p) (t.core p)))

/-- SNAPSHOT sends the next stripe on its pair, or again one whose landing has stopped working, and waits while a hub holds its reads;
SNAP_GUARD_WRITE reads a guarded block first; LOSS_COMPARE accepts a first execution and one that equals the log; RESTORE begins with REVERT on every
working landing, and REVERT_REPEAT sends it again (R403, R446, R447, R453, R455). -/
def Obligations.snapshots_and_restores : Prop :=
  ∀ (s : State), s.mpUndef = false → s.active ≠ none →
    (∀ k0 l, s.job.snaps.find? (fun k => !k.taken) = some k0 →
      let k := s.snapReroute k0
      let i := (k.again.head?).getD k.sent
      s.guardHeld = false → i < k.stripes → s.pairLanding (i % 4) = some l → Completes .snapshot s (fun t =>
        (∃ fs, (t.land l).outQ = (s.land l).outQ ++ fs ∧ fs.length = ceilDiv ((k.image.drop (1048576 * i)).take 1048576).length 256 ∧
          ∀ f, f ∈ fs → f.typ = 4 ∧ f.vc = 3) ∧
        t.job.snaps = s.job.snaps.map (fun x => if x.number = k.number then
          { k with via := SMap.set 0 k.via (i % 4) (l + 1), again := k.again.drop 1, sent := if k.again.isEmpty then i + 1 else k.sent } else x) ∧
        t.stack = s.stack)) ∧
    (s.guardHeld = true → Completes .snapshot s (fun t => t = s)) ∧
    (∀ b r x rest, s.bays = [(b, { s.bay b with q := [r] })] → r.wr = true → s.bayWaits b = false →
      (blocksOf r.addr r.span).filter s.job.guard.contains = x :: rest → Completes .snapGuardWrite s (fun t =>
        t.job.guard.contains x = false ∧ (∀ y, y ≠ x → t.job.guard.contains y = s.job.guard.contains y) ∧ t.bays = s.bays ∧ t.stack = s.stack)) ∧
    (s.job.st = 2 → s.job.lossOk = false → s.stepOver = true →
      (s.lossesOf s.job.step = [] ∧ (SMap.get 0 s.job.lossAtt s.job.step ≠ 0 ∨ (s.job.replayEnd ≤ s.job.step ∧ s.job.askLog = false)) ∨
       s.lossesOf s.job.step ≠ [] ∧ lossBlock (s.lossesOf s.job.step) = lossBlock s.job.attLosses) →
      Completes .lossCompare s (fun t => t.job.lossOk = true ∧ t.job.mismatched = (s.job.mismatched && decide (s.job.step + 1 < s.job.replayEnd)) ∧
        t = { s with job := t.job })) ∧
    (∀ k, s.job.restoring = none → s.job.need = 2 → s.job.st = 2 → s.bays.all (fun e => e.2.failedCh.isEmpty) = true → s.job.nextLoad = none →
      s.rolesPlaced = true → s.rowsServed = true → s.restorable = some k → Completes .restore s (fun t => t.job.restoring = some k.number ∧ t.job.need = 0 ∧ t.cores = s.cores ∧ t.stack = s.stack ∧
        ∀ l, l < 8 → s.landWorks l = true → (t.land l).outQ = (s.land l).outQ ++ [revertFrame k] ∧ (t.land l).revertRep = some (revertFrame k))) ∧
    ∀ l f, l < 8 → (s.land l).present = true → s.bayUp (landingBay l) = true → (s.land l).revertRep = some f → Completes (.revertRepeat l) s (fun t =>
      (t.land l).outQ = (s.land l).outQ ++ [f] ∧ t.job = s.job ∧ t.regs = s.regs)

/-! ## Registers, windows, the timer -/

/-- REGISTER_WRITE changes exactly the RW and W1C bits of a plain register of a core, a bay hub, a landing or the global block, RC_READ returns it and
clears its RC bits; TAP_CTRL, GREEN_CTRL and STACK_MAPOUT_REQUEST write theirs; MEMORY_WINDOW reaches the core's scratchpad page (R17, R80, R359,
R403, R423, R506, R509, R510). -/
def Obligations.registers_and_windows : Prop :=
  ∀ (s : State),
    (∀ b o d v master, b < 60 → o ∈ [0x40C, 0x410, 0x418, 0x500, 0x50C, 0x614, 0x61C] → s.bayUp b = true → regDef (hubReg b o) = some d →
      Completes (.registerWrite (hubReg b o) v master) s (fun t =>
        t.reg (hubReg b o) = (s.reg (hubReg b o) &&& ~~~(BitVec.ofNat 32 d.rw) &&& ~~~(v &&& BitVec.ofNat 32 d.w1c)) ||| (v &&& BitVec.ofNat 32 d.rw) ∧
        (∀ a, a ≠ hubReg b o → t.reg a = s.reg a) ∧ t.back = {} ∧ t.cores = s.cores) ∧
      Completes (.rcRead (hubReg b o)) s (fun t => t.back = { data := leBytes 4 (s.reg (hubReg b o)).toNat } ∧
        t.reg (hubReg b o) = s.reg (hubReg b o) &&& ~~~(BitVec.ofNat 32 d.rc) ∧ ∀ a, a ≠ hubReg b o → t.reg a = s.reg a)) ∧
    (∀ a d v master,
      ((∃ p k, p < 2880 ∧ s.bayUp (coreBay p) = true ∧ k ∈ [(0, 0x48), (0, 0x60), (0, 0x80), (1, 0), (1, 0x14), (2, 0x80), (2, 0x84), (3, 0), (3, 8), (5, 0xC),
          (5, 0x84), (7, 4), (7, 8), (8, 4)] ∧ a = coreReg p k.1 k.2) ∨
       (∃ l o, l < 8 ∧ (s.land l).present = true ∧ s.bayUp (landingBay l) = true ∧
          o ∈ [0x400, 0x404, 0x500, 0x504, 0x508, 0x600, 0x604, 0x700, 0x710, 0x900, 0x914] ∧ a = landReg l o) ∨
       ∃ o, o ∈ [0x100, 0x104, 0x204, 0x208, 0x504, 0x604] ∧ a = gloReg o) → regDef a = some d →
      Completes (.registerWrite a v master) s (fun t =>
        t.reg a = (s.reg a &&& ~~~(BitVec.ofNat 32 d.rw) &&& ~~~(v &&& BitVec.ofNat 32 d.w1c)) ||| (v &&& BitVec.ofNat 32 d.rw) ∧
        (∀ x, x ≠ a → t.reg x = s.reg x) ∧ t.back = {} ∧ t.cores = s.cores) ∧
      Completes (.rcRead a) s (fun t => t.back = { data := leBytes 4 (s.regShown a).toNat } ∧
        t.reg a = s.reg a &&& ~~~(BitVec.ofNat 32 d.rc) ∧ (∀ x, x ≠ a → t.reg x = s.reg x) ∧ t.cores = s.cores)) ∧
    (∀ b v, b < 60 → s.bayUp b = true → Completes (.stackMapoutRequest b v) s (fun t =>
      t.reg (hubReg b 0x408) = v ∧ (∀ a, a ≠ hubReg b 0x408 → t.reg a = s.reg a) ∧ t.stack = s.stack)) ∧
    ∀ p, p < 2880 → s.bayUp (coreBay p) = true →
      (∀ v, 2 ≤ field v 15 12 → field v 15 12 ≤ 8 → field v 11 0 * 4096 + field v 15 12 * slotBytes ≤ spadTop → Completes (.tapCtrl p v) s (fun t =>
        t.fld (coreReg p 7 0) 11 0 = field v 11 0 ∧ t.fld (coreReg p 7 0) 15 12 = field v 15 12 ∧ t.cores = s.cores)) ∧
      (∀ v, spadTop < field v 11 0 * 4096 + field v 15 12 * slotBytes → 2 ≤ field v 15 12 → field v 15 12 ≤ 8 → Completes (.tapCtrl p v) s (fun t => t = s)) ∧
      (∀ v, field v 11 0 * 4096 + min 32 (field v 17 12) * 65536 ≤ spadTop → Completes (.greenCtrl p v) s (fun t =>
        t.reg (coreReg p 0 0x70) = (s.reg (coreReg p 0 0x70) &&& ~~~0x3FFFF#32) ||| (v &&& 0x3FFFF#32) ∧ t.cores = s.cores)) ∧
      (∀ master off n v, master ≤ 73 → 0x8000 ≤ off → (n = 4 ∨ n = 8) → off + n ≤ 0x10000 → off % n = 0 →
        let o := SMap.get 0 s.memPage (pageKey p master) * 32768 + (off - 0x8000)
        o + n ≤ spadTop →
        Completes (.memoryWindow master p off n none) s (fun t => t.back = { data := Mem.read (s.core p).spad o n } ∧ t.cores = s.cores ∧ t.regs = s.regs) ∧
        Completes (.memoryWindow master p off n (some v)) s (fun t => (t.core p).spad = Mem.write (s.core p).spad o (leBytes n v) ∧
          (t.core p).sill = (s.core p).sill ∧ (t.core p).v = (s.core p).v ∧ t.regs = s.regs))

/-- The core timer and the bandwidth windows: TIMER_START opens a window, WINDOW_END closes it, TIMER_CLAIM cuts it where the hub may claim the timer,
TIMER_CLAIM_END gives the timer back; BW_CTRL restarts the series, BW_WINDOW_END shows the count (R520 to R522). -/
def Obligations.timers_and_windows : Prop :=
  ∀ (s : State) (p : Nat), p < 2880 →
    (s.bayUp (coreBay p) = true → s.fld (timerCtrl p) 0 0 = 1 → s.fld (timerStat p) 3 3 = 0 → s.fld (timerStat p) 0 0 = 0 → Completes (.timerStart p) s (fun t =>
      t.fld (timerStat p) 1 0 = 1 ∧ (∀ a, a ≠ timerStat p → t.reg a = s.reg a) ∧ t.cores = s.cores)) ∧
    (s.bayUp (coreBay p) = true → s.fld (timerCtrl p) 0 0 = 1 → s.fld (timerStat p) 3 3 = 1 → Completes (.timerStart p) s (fun t =>
      t.fld (timerStat p) 2 2 = 1 ∧ t.fld (timerStat p) 1 0 = s.fld (timerStat p) 1 0)) ∧
    (s.fld (timerStat p) 0 0 = 1 → Completes (.windowEnd p) s (fun t => t.fld (timerStat p) 1 0 = 2 ∧ ∀ a, a ≠ timerStat p → t.reg a = s.reg a)) ∧
    (s.bayUp (coreBay p) = false ∨ s.mayClaim p = false → Completes (.timerClaim p) s (fun t => t = s)) ∧
    (s.bayUp (coreBay p) = true → s.mayClaim p = true → Completes (.timerClaim p) s (fun t => t.fld (timerStat p) 3 3 = 1 ∧ t.fld (timerStat p) 0 0 = 0 ∧
      (s.fld (timerStat p) 0 0 = 1 → t.fld (timerStat p) 2 2 = 1) ∧ ∀ a, a ≠ timerStat p → t.reg a = s.reg a)) ∧
    Completes (.timerClaimEnd p) s (fun t => t.fld (timerStat p) 3 3 = 0 ∧ t.fld (timerStat p) 2 0 = s.fld (timerStat p) 2 0 ∧ t.cores = s.cores) ∧
    let a := coreReg p 5 0xC0
    (s.bayUp (coreBay p) = true → ∀ v, Completes (.bwCtrl a v) s (fun t =>
      t.reg a = (s.reg a &&& ~~~0x3F3F#32) ||| (v &&& 0x3F3F#32) ∧ (∀ k, k ∈ [8, 16, 24, 32] → t.reg64 (a + k) = 0) ∧
      SMap.get 0 t.bwAcc (a + 8) = 0 ∧ SMap.get 0 t.bwAcc (a + 24) = 0)) ∧
    (s.fld a 5 5 = 1 → Completes (.bwWindowEnd a) s (fun t => ∀ k, k ∈ [8, 24] →
      t.reg64 (a + k) = SMap.get 0 s.bwAcc (a + k) % 2 ^ 48 ∧
      t.reg64 (a + k + 8) = max (SMap.get 0 s.bwAcc (a + k) % 2 ^ 48) (s.reg64 (a + k + 8)) ∧ SMap.get 0 t.bwAcc (a + k) = 0))

/-! ## Host accesses, mailboxes, events -/

/-- MAILBOX_WRITE stores bytes that are not frozen, DOORBELL posts a slot in the order of R487 and the active MP accepts a known command, BAR_ACCESS
reads and writes bay stacks through BAR4, or waits at a hub that holds accesses or guards the block, SMBUS_READ and TIME_IN_EDGE answer. How a
waiting read shows its data, and a doorbell's clk as its command's time, are the model's choice (log entry 41) (R403, R412, R447, R484 to R487, R526,
R551). -/
def Obligations.host_accesses : Prop :=
  ∀ (s : State) (b : Nat), b < 2 → s.boardOn b = true →
    (∀ off v, off < 0x4000 → s.frozen b off = false → Completes (.mailboxWrite b off [v]) s (fun t =>
      Mem.byte (t.board b).mbx off = v ∧ (∀ x, x ≠ off → Mem.byte (t.board b).mbx x = Mem.byte (s.board b).mbx x) ∧ t.regs = s.regs)) ∧
    (∀ off v, off < 0x4000 → s.frozen b off = true → Completes (.mailboxWrite b off [v]) s (fun t => (t.board b).mbx = (s.board b).mbx ∧
      t.bfld b 0x6008 31 16 = min 65535 (s.bfld b 0x6008 31 16 + 1))) ∧
    (∀ k, k < 64 → s.mpUndef = false → s.slotState b k ≠ 1 → s.slotState b k ≠ 2 → s.active = none →
      (s.posted = [] → Completes (.doorbell b k) s (fun t => t.slotState b k = 1 ∧ t.posted = [(s.time, b, k)])) ∧
      ∀ c j, s.posted = [(s.time, c, j)] → Completes (.doorbell b k) s (fun t => t.slotState b k = 1 ∧
        t.posted = if 64 * c + j < 64 * b + k then [(s.time, c, j), (s.time, b, k)] else [(s.time, b, k), (s.time, c, j)])) ∧
    (∀ k, k < 64 → s.mpUndef = false → s.slotState b k ≠ 1 → s.slotState b k ≠ 2 → s.active ≠ none → s.liveOrder = 0 → s.handover = none →
      s.posted = [] → s.slotNum b k 0 2 ∈ queryCodes → Completes (.doorbell b k) s (fun t => t.slotState b k = 2 ∧ t.posted = [] ∧
        t.slotNum b k 0xC 4 = s.time / 100000 % 2 ^ 32)) ∧
    (∀ off n, n = 4 ∨ n = 8 → off % n = 0 → off + n ≤ 4 * 2 ^ 40 → s.stackOk off n = true →
      let y := off / 2 ^ 36
      (s.hubHolds y = false → Completes (.barAccess b 4 off false n []) s (fun t =>
        t.back = { data := Mem.read s.stack off n } ∧ t.stack = s.stack ∧ t.regs = s.regs)) ∧
      (s.hubHolds y = true → Completes (.barAccess b 4 off false n []) s (fun t => t.back = {} ∧ t.stack = s.stack ∧
        ∃ r, (t.bay y).q = (s.bay y).q ++ [r] ∧ r.kind = 2 ∧ r.wr = false ∧ r.addr = off ∧ r.spad = n)) ∧
      ∀ d, d.length = n →
        let waits := s.hubHolds y || (blocksOf off n).any s.job.guard.contains
        Completes (.barAccess b 4 off true n d) s (fun t => t.back = {} ∧ t.regs = s.regs ∧ (waits = false → t.stack = Mem.write s.stack off d) ∧
          (waits = true → t.stack = s.stack ∧ ∃ r, (t.bay y).q = (s.bay y).q ++ [r] ∧ r.kind = 1 ∧ r.wr = true ∧ r.addr = off ∧ r.data = d ∧
            r.core = 8 + s.bfld b 0x6004 5 0))) ∧
    (s.inp.on12 = true → 200000000 ≤ s.inp.smbAge + s.time → ∀ off, Completes (.smbusRead b off) s (fun t => t.back = { data := leBytes 1 (s.smbByte b off) } ∧
      t = { s with back := t.back })) ∧
    (s.fld (gloReg 0x700) (2 * b) (2 * b) = 1 → Completes (.timeInEdge b) s (fun t =>
      t.reg64 (gloReg (0x708 + 8 * b)) = s.time % 2 ^ 63 + 2 ^ 63 ∧ t.cores = s.cores ∧ t.boards = s.boards))

/-- EVENT_DELIVERY writes the oldest event into every enabled ring that has room and advances its producer index; EVQ_CONS and EVQ_CTRL
write their registers, clearing ENABLE resets both indices, EVQ_COALESCE_TIMER signals what is unsignalled. The places of the MSI-X table and its
reset masks are presumed (log entry 17) (R495 to R497, Table 19.9). -/
def Obligations.events_are_delivered : Prop :=
  ∀ (s : State) (b : Nat), b < 2 → s.boardOn b = true →
    (∀ e rest, s.mpUndef = false → s.active ≠ none → s.evPending = e :: rest → s.ringOn b = true → s.ringFull b = false → (s.board b).held = [] →
      (s.board b).lost = 0 → Completes .eventDelivery s (fun t => t.evPending = rest ∧
        SMap.get [] (t.board b).ring ((s.breg b 0x500C).toNat % s.ringSize b) = eventRecord e ∧
        (t.breg b 0x500C).toNat = ((s.breg b 0x500C).toNat % s.ringSize b + 1) % s.ringSize b)) ∧
    (∀ v, (s.board b).held = [] → (s.board b).lost = 0 → Completes (.evqCons b v) s (fun t => t.breg b 0x5010 = v ∧ t.regs = s.regs ∧ t.cores = s.cores)) ∧
    (∀ v, bit v.toNat 8 = false → bit (s.breg b 0x5008).toNat 8 = true → Completes (.evqCtrl b v) s (fun t =>
      t.breg b 0x5008 = v &&& 0x31F ∧ t.breg b 0x500C = 0 ∧ t.breg b 0x5010 = 0 ∧ t.regs = s.regs)) ∧
    ((s.board b).unsig ≠ 0 → bit (s.breg b 0x5008).toNat 9 = true → bit (s.breg b 0x800C).toNat 0 = false → Completes (.evqCoalesceTimer b) s (fun t =>
      (t.board b).unsig = 0 ∧ (t.board b).msix0 = (s.board b).msix0 + 1 ∧ t.regs = s.regs))

/-! ## Commands -/

/-- The JOB commands: a good manifest is loaded, JOB_START begins the named step and version, JOB_HOLD holds at a boundary and waits for one
otherwise, JOB_RELEASE and JOB_DIRECT go on, JOB_STOP ends the job. Which settings an argument admits, and when a command waits, rest on log entry 32
where the spec is silent (R58, R61, R488, R490 to R492). -/
def Obligations.job_commands : Prop :=
  ∀ (s : State) (b k : Nat),
    let a := s.arg b k
    (∀ d m, s.serves b k 0x101 = true → s.job.st = 0 → a 0x18 8 ≤ 8 * 2 ^ 30 → d.length = a 0x18 8 → s.checkLoad b k 0x101 d = .ok m →
      Completes (.jobLoad b k (some d)) s (fun t => t.job.st = 1 ∧ t.job.loaded = some m ∧ Finished b k 0 (loadResult m) t)) ∧
    (∀ d m, s.serves b k 0x107 = true → s.job.st = 1 → a 0x18 8 ≤ 8 * 2 ^ 30 → d.length = a 0x18 8 → s.checkLoad b k 0x107 d = .ok m →
      Completes (.jobAlternate b k (some d)) s (fun t => t.job.st = 1 ∧ t.job.loaded = some m ∧ Finished b k 0 (loadResult m) t)) ∧
    (∀ m data d, s.serves b k 0x102 = true → s.job.st = 1 → s.job.loaded = some m → a 0x32 1 ≤ 3 → a 0x33 1 ≤ 15 → a 0x34 1 ≤ 3 →
      a 0x40 4 ≤ 4096 → (if a 0x40 4 = 0 then some [] else hostBytes data (16 * a 0x40 4)) = some d → s.carryOk m (carryOf (a 0x40 4) d) = true →
      s.servesRows m = true → s.cores.all (fun e => e.2.roles.isEmpty || !s.fenced e.1) = true →
      Completes (.jobStart b k data) s (fun t => t.job.st = 2 ∧ t.job.step = a 0x20 8 ∧ t.job.version = a 0x30 2 ∧
        t.job.carry = carryOf (a 0x40 4) d ∧ t.job.inputPos = a 0x28 8 ∧ t.job.seedLo = a 0x10 8 ∧ t.job.seedHi = a 0x18 8 ∧ t.job.loaded = some m ∧
        (∀ l, l < 8 → t.landV l = a 0x30 2 ∧ t.fld (landReg l 0x500) 1 0 = a 0x32 1) ∧ Finished b k 0 [] t)) ∧
    (s.serves b k 0x103 = true → s.job.st = 2 → s.job.between = true → Completes (.jobHold b k) s (fun t => t.job.st = 3 ∧ t.job.holding = true ∧
      t.job.step = s.job.step ∧ t.cores = s.cores ∧ Finished b k 0 (leBytes 8 s.job.step) t)) ∧
    (s.serves b k 0x103 = true → s.job.st = 2 → s.job.between = false → Completes (.jobHold b k) s (fun t => t.slotState b k = 2 ∧
      t.job.atBoundary = s.job.atBoundary ++ [{ board := b, slot := k, code := 0x103 }] ∧ t.cores = s.cores)) ∧
    (s.serves b k 0x104 = true → s.job.st = 3 → s.job.between = true → s.job.need = 0 → s.job.restoring = none → s.liveOrder = 0 → s.handover = none →
      s.mapRequests = [] → s.job.atBoundary = [] → s.job.nextLoad = none → Completes (.jobRelease b k) s (fun t => t.job.st = 2 ∧
        t.job.between = false ∧ t.job.step = s.job.step ∧ t.job.attempt = SMap.get 0 s.job.attemptTop s.job.step ∧ Finished b k 0 [] t)) ∧
    (s.serves b k 0x105 = true → a 0x10 1 ≤ 1 → a 0x11 1 ≤ 3 → s.job.st = 4 → s.applies = true → s.job.need ≠ 2 → s.job.nextLoad = none →
      Completes (.jobDirect b k) s (fun t => t.job.st = 2 ∧ t.job.step = s.job.step ∧ t.job.attempt = SMap.get 0 s.job.attemptTop s.job.step ∧
        (∀ l, l < 8 → t.fld (landReg l 0x500) 1 0 = if a 0x10 1 = 1 then a 0x11 1 else s.fld (landReg l 0x500) 1 0) ∧
        Finished b k 0 (leBytes 4 (SMap.get 0 s.job.attemptTop s.job.step)) t)) ∧
    (∀ m, s.serves b k 0x105 = true → a 0x10 1 ≤ 1 → a 0x11 1 ≤ 3 → s.job.st = 4 → s.applies = true → s.job.need ≠ 2 → s.job.nextLoad = some m →
      Completes (.jobDirect b k) s (fun t => t.job.st = 2 ∧ t.job.step = s.job.step ∧ 1 ≤ t.job.need ∧ t.job.nextLoad = some m ∧
        Finished b k 0 (leBytes 4 (SMap.get 0 s.job.attemptTop s.job.step)) t)) ∧
    (s.serves b k 0x105 = true → a 0x10 1 = 2 ∨ a 0x10 1 ≤ 1 ∧ (s.applies = false ∨ s.job.need = 2) → a 0x11 1 ≤ 3 →
      s.job.st = 4 ∨ s.job.st = 6 ∧ a 0x10 1 = 2 →
      Completes (.jobDirect b k) s (fun t => t.job.st = 2 ∧ t.job.need = 2 ∧ t.job.restoreNo = 0 ∧
        (∀ l, l < 8 → t.fld (landReg l 0x500) 1 0 = if a 0x10 1 = 1 then a 0x11 1 else s.fld (landReg l 0x500) 1 0) ∧
        Finished b k 0 (leBytes 4 (SMap.get 0 s.job.attemptTop s.job.step)) t)) ∧
    (s.serves b k 0x106 = true → a 0x10 1 = 1 → 2 ≤ s.job.st → s.job.atBoundary = [] → Completes (.jobStop b k) s (fun t => t.job.st = 0 ∧
      t.job.loaded = none ∧ (∀ p, p < 2880 → t.running p = false ∧ (t.core p).roles = []) ∧ Finished b k 0 s.stopResult t))

/-- The commands on cores, bays, stacks, landings and power act on the unit they name and complete with status OK; one whose unit a continuity
sequence is changing waits. The events before STEP_HELD and of an aborted attempt (log entry 22), and what is refused or counted where the spec is
silent (32), are the model's choice (R11, R367, R388, R391, R403, R436, R459, R463, R488, R490, R494). -/
def Obligations.unit_commands : Prop :=
  ∀ (s : State) (b k : Nat),
    let a := s.arg b k
    (s.serves b k 0x201 = true → a 0x10 2 < 3840 → a 0x10 2 % 64 < 48 → (s.bay (a 0x10 2 / 64)).dark = false → (s.bay (a 0x10 2 / 64)).lossDue = false →
      s.fenced (coreArg (a 0x10 2)) = false → Completes (.coreFence b k) s (fun t => t.fenced (coreArg (a 0x10 2)) = true ∧ SMap.get 0 t.rep.fence (coreArg (a 0x10 2)) = 8 ∧ Finished b k 0 [] t)) ∧
    (s.serves b k 0x201 = true → a 0x10 2 < 3840 → a 0x10 2 % 64 < 48 → s.coreBusy (coreArg (a 0x10 2)) = true → Completes (.coreFence b k) s (fun t => t = s)) ∧
    (s.serves b k 0x301 = true → a 0x10 1 < 60 → a 0x11 1 ≤ 16 → s.bayBusy (a 0x10 1) = true → Completes (.baySpares b k) s (fun t => t = s)) ∧
    (s.serves b k 0x401 = true → a 0x10 1 < 60 → a 0x11 1 < 32 → s.stackBusy (a 0x10 1) = true → Completes (.stackMapout b k) s (fun t => t = s)) ∧
    (s.serves b k 0x602 = true → a 0x10 1 < 60 → a 0x11 1 ≤ 3 → s.bayBusy (a 0x10 1) = true → Completes (.powerCeiling b k) s (fun t => t = s)) ∧
    (s.serves b k 0x301 = true → a 0x10 1 < 60 → a 0x11 1 ≤ 16 → s.bayBusy (a 0x10 1) = false → Completes (.baySpares b k) s (fun t =>
      t.fld (hubReg (a 0x10 1) 0x500) 29 25 = a 0x11 1 ∧ (∀ r, r ≠ hubReg (a 0x10 1) 0x500 → t.reg r = s.reg r) ∧ Finished b k 0 [] t)) ∧
    (s.serves b k 0x401 = true → a 0x10 1 < 60 → a 0x11 1 < 32 → s.bayUp (a 0x10 1) = true → bit (s.reg (hubReg (a 0x10 1) 0x404)).toNat (a 0x11 1) = true →
      s.stackBusy (a 0x10 1) = false → s.job.st < 2 → Completes (.stackMapout b k) s (fun t => bit (t.reg (hubReg (a 0x10 1) 0x404)).toNat (a 0x11 1) = false ∧
        (∀ x, x / 2 ^ 36 = a 0x10 1 → Mem.byte t.stack x = 0) ∧ Finished b k 0 [] t)) ∧
    (s.serves b k 0x501 = true → a 0x10 1 < 8 → (s.land (a 0x10 1)).halted = true → Completes (.landingAccept b k) s (fun t =>
      (t.land (a 0x10 1)).halted = false ∧ bit (t.reg (landReg (a 0x10 1) 4)).toNat 20 = false ∧ Finished b k 0 [] t)) ∧
    (s.serves b k 0x502 = true → a 0x10 1 < 8 → bit (s.reg (landReg (a 0x10 1) 4)).toNat 17 = true → s.job.st = 0 → Completes (.landingRetake b k) s (fun t =>
      bit (t.reg (landReg (a 0x10 1) 4)).toNat 17 = false ∧ (t.land (a 0x10 1)).txSeq = 0 ∧ (t.land (a 0x10 1)).rxExpect = 0 ∧
      (t.land (a 0x10 1)).credit = [] ∧ Finished b k 0 [] t)) ∧
    (s.serves b k 0x503 = true → a 0x10 1 < 8 → Completes (.landingHold b k) s (fun t =>
      (t.reg (landReg (a 0x10 1) 8)).toNat = (s.reg (landReg (a 0x10 1) 8)).toNat ||| a 0x14 4 ∧
      (t.land (a 0x10 1)).hostHold = (s.land (a 0x10 1)).hostHold ||| BitVec.ofNat 32 (a 0x14 4) ∧ Finished b k 0 [] t)) ∧
    (s.serves b k 0x504 = true → a 0x10 1 < 8 → (s.land (a 0x10 1)).hostHold &&& BitVec.ofNat 32 (a 0x14 4) ≠ 0 → s.job.st < 3 →
      Completes (.landingRelease b k) s (fun t =>
        (t.land (a 0x10 1)).hostHold = (s.land (a 0x10 1)).hostHold &&& ~~~(BitVec.ofNat 32 (a 0x14 4)) ∧
        t.reg (landReg (a 0x10 1) 8) = (s.reg (landReg (a 0x10 1) 8) &&& ~~~(BitVec.ofNat 32 (a 0x14 4))) ||| (t.land (a 0x10 1)).hostHold ∧
        Finished b k 0 [] t)) ∧
    (s.serves b k 0x505 = true → a 0x10 1 < 8 → Completes (.landingRetrain b k) s (fun t =>
      (∀ g, g < 16 → bit (t.reg (landReg (a 0x10 1) 4)).toNat g = (bit (s.reg (landReg (a 0x10 1) 4)).toNat g && !bit (a 0x12 2) g)) ∧
      bit (t.reg (landReg (a 0x10 1) 4)).toNat 16 = (bit (s.reg (landReg (a 0x10 1) 4)).toNat 16 && decide (4 ≤ t.groupsUp (a 0x10 1))) ∧
      Finished b k 0 [] t)) ∧
    (s.serves b k 0x601 = true → a 0x10 1 ≤ 3 → Completes (.powerPace b k) s (fun t => (∀ y, y < 60 → t.fld (paceStat y) 3 2 = a 0x10 1) ∧
      t.cores = s.cores ∧ Finished b k 0 [] t)) ∧
    (s.serves b k 0x602 = true → a 0x10 1 < 60 → a 0x11 1 ≤ 3 → s.bayBusy (a 0x10 1) = false → Completes (.powerCeiling b k) s (fun t =>
      t.fld (paceCtrl (a 0x10 1)) 1 0 = a 0x11 1 ∧ t.cores = s.cores ∧ Finished b k 0 [] t)) ∧
    (s.serves b k 0x603 = true → a 0x10 2 ≤ 25000 → Completes (.powerLimit b k) s (fun t => t.fld (gloReg 0x604) 15 0 = a 0x10 2 ∧
      (∀ r, r ≠ gloReg 0x604 → t.reg r = s.reg r) ∧ Finished b k 0 [] t))

/-- SNAP_NOW starts a snapshot and SNAP_RESTORE orders a restore at a boundary; queries change nothing but their slot, and wait while a continuity
sequence changes their unit; an admitted image is staged, FW_ACTIVATE and FW_HANDOVER begin, injection commands arm their rule or fail the unit. The
forms of injection arguments (log entry 27), the order of a live change (31) and what counts in a query (32) are the model's choice (R394, R395, R449,
R454, R482, R488, R494, R503, R504, R538). -/
def Obligations.service_commands : Prop :=
  ∀ (s : State) (b k : Nat),
    let a := s.arg b k
    let quiet (t : State) : Prop := t.cores = s.cores ∧ t.regs = s.regs ∧ t.stack = s.stack ∧ t.job = s.job ∧ t.lands = s.lands ∧ t.bays = s.bays
    (∀ m, s.serves b k 0x701 = true → s.job.st = 3 → s.job.loaded = some m → s.job.snaps.all (fun x => x.taken) = true → Completes (.snapNow b k) s (fun t =>
      t.job.snapNext = s.job.snapNext + 1 ∧ t.job.snaps.length = s.job.snaps.length + 1 ∧ t.stack = s.stack ∧
      Finished b k 0 (leBytes 4 s.job.snapNext) t)) ∧
    (∀ x, s.serves b k 0x702 = true → s.job.st = 3 → a 0x10 4 = 0 → (s.job.snaps.filter (fun x => x.taken)).getLast? = some x →
      Completes (.snapRestore b k) s (fun t => t.job.st = 2 ∧ 2 ≤ t.job.need ∧ t.job.restoreNo = 0 ∧ Finished b k 0 (leBytes 8 x.step) t)) ∧
    (s.serves b k 0x202 = true → a 0x10 2 < 3840 → a 0x10 2 % 64 < 48 → (s.bay (a 0x10 2 / 64)).dark = false → (s.bay (a 0x10 2 / 64)).lossDue = false →
      s.coreBusy (coreArg (a 0x10 2)) = false → Completes (.coreQuery b k) s (fun t => quiet t ∧
      let r := fun (i : Nat) => ((s.core (coreArg (a 0x10 2))).roles[i]?).getD 0xFFFFFFFF
      Finished b k 0 (leBytes 4 (r 0) ++ leBytes 4 (r 1) ++ leBytes 1 (SMap.get 0 s.rep.fence (coreArg (a 0x10 2)))) t)) ∧
    (s.serves b k 0x202 = true → a 0x10 2 < 3840 → a 0x10 2 % 64 < 48 → s.coreBusy (coreArg (a 0x10 2)) = true → Completes (.coreQuery b k) s (fun t => t = s)) ∧
    (s.serves b k 0x302 = true → a 0x10 1 < 60 → s.bayBusy (a 0x10 1) = true → Completes (.bayQuery b k) s (fun t => t = s)) ∧
    (s.serves b k 0x402 = true → a 0x10 1 < 60 → s.stackBusy (a 0x10 1) = true → Completes (.stackQuery b k) s (fun t => t = s)) ∧
    (s.serves b k 0x302 = true → a 0x10 1 < 60 → s.bayBusy (a 0x10 1) = false → Completes (.bayQuery b k) s (fun t => quiet t ∧
      Finished b k 0 (leBytes 1 (s.fld (hubReg (a 0x10 1) 0x400) 6 0) ++ leBytes 1 (s.fld (paceStat (a 0x10 1)) 1 0) ++
        leBytes 1 (48 - s.goodCores (a 0x10 1)) ++ leBytes 1 (s.spareCount (a 0x10 1)) ++ leBytes 1 (b2n (s.bay (a 0x10 1)).dark)) t)) ∧
    (s.serves b k 0x402 = true → a 0x10 1 < 60 → s.bayUp (a 0x10 1) = true → s.stackBusy (a 0x10 1) = false → Completes (.stackQuery b k) s (fun t => quiet t ∧
      Finished b k 0 (leBytes 4 (s.reg (hubReg (a 0x10 1) 0x404)).toNat ++ leBytes 4 (s.reg (hubReg (a 0x10 1) 0x414)).toNat) t)) ∧
    (s.serves b k 0x801 = true → Completes (.queryStatus b k) s (fun t => quiet t ∧ t.slotNum b k 0x80 1 = s.job.st % 256 ∧
      t.slotNum b k 0x88 8 = s.job.step % 2 ^ 64 ∧ t.slotNum b k 0x90 2 = s.job.version % 2 ^ 16 ∧ Finished b k 0 [] t)) ∧
    (s.serves b k 0x802 = true → Completes (.queryIdentity b k) s (fun t => quiet t ∧ t.slotNum b k 0x80 4 = s.fld (mkAddr 63 0 6 0) 29 0 ∧
      t.slotNum b k 0x84 1 = s.fld (mkAddr 63 0 6 4) 4 0 ∧ t.slotNum b k 0x85 1 = s.fld (mkAddr 63 0 6 4) 6 5 ∧ t.slotNum b k 0x86 1 = s.stepping ∧
      t.slotNum b k 0x88 2 = s.fld (mkAddr 63 0 6 4) 22 11 ∧ Finished b k 0 [] t)) ∧
    (s.serves b k 0x803 = true → Completes (.queryCapacity b k) s (fun t => quiet t ∧ t.slotNum b k 0x80 2 = s.usableCores % 2 ^ 16 ∧
      t.slotNum b k 0x82 2 = s.usableStack % 2 ^ 16 ∧ t.slotNum b k 0x84 1 = s.workingLandings ∧ Finished b k 0 [] t)) ∧
    (∀ d, s.serves b k 0x901 = true → a 0x10 1 ≤ 2 → (boardsOf (a 0x10 1)).all (fun i => (s.board i).present) = true → a 0x20 8 ≤ d.length →
      (∀ i, i < 2 → (s.board i).preferred < 2) →
      Completes (.fwStage b k (some d)) s (fun t => t.cores = s.cores ∧ t.regs = s.regs ∧ match s.admitImage (boardsOf (a 0x10 1)) (d.take (a 0x20 8)) with
        | .error e => Finished b k e [] t
        | .ok f => Finished b k 0 (leBytes 4 f.version) t ∧ ∀ i, i ∈ boardsOf (a 0x10 1) → some f ∈ (t.board i).flash)) ∧
    (∀ x w, s.serves b k 0x902 = true → s.active = some x → w < 2 → s.standsBy w = true → a 0x10 1 = w → s.liveOrder = 0 → s.handover = none →
      (s.board w).stagedImage.isSome = true → acceptsMirror (s.board (1 - w)).image (s.board w).stagedImage = true → w ≠ x → x < 2 →
      Completes (.fwActivate b k) s (fun t => t.liveOrder = 1 ∧ t.liveBoard = w ∧ t.liveCmd = some (b, k) ∧ (t.board w).slotRun = 1 - (s.board w).slotRun ∧
        t.slotState b k = 2)) ∧
    (∀ w, s.serves b k 0x903 = true → w < 2 → s.standsBy w = true → s.liveOrder = 0 → s.handover = none → s.job.st ≠ 2 → Completes (.fwHandover b k) s (fun t =>
      t.handover = some s.time ∧ t.handCmd = some (b, k) ∧ t.slotState b k = 2 ∧ t.cores = s.cores)) ∧
    (s.serves b k 0xA01 = true → a 0x10 1 < 8 → Completes (.injectLanding b k) s (fun t => t.fld (landReg (a 0x10 1) 0x900) 0 0 = 1 ∧
      t.fld (landReg (a 0x10 1) 0x904) 15 0 = a 0x18 4 % 65536 ∧ t.fld (landReg (a 0x10 1) 0x908) 16 0 = a 0x1C 4 % 2 ^ 17 ∧ Finished b k 0 [] t)) ∧
    (s.serves b k 0xA02 = true → a 0x10 2 < 3840 → a 0x10 2 % 64 < 48 → 1 ≤ a 0x12 1 → a 0x12 1 ≤ 4 → s.coreBusy (coreArg (a 0x10 2)) = false →
      (s.bay (a 0x10 2 / 64)).lossDue = false → Completes (.injectLink b k) s (fun t =>
      (t.reg (linkInj (coreArg (a 0x10 2)) (a 0x12 1))).toNat = a 0x14 4 ||| 1 ∧ t.cores = s.cores ∧ Finished b k 0 [] t)) ∧
    (s.serves b k 0xA03 = true → a 0x10 1 = 0 → a 0x12 2 < 3840 → a 0x12 2 % 64 < 48 → s.coreUp (coreArg (a 0x12 2)) = true →
      (s.bay (a 0x12 2 / 64)).lossDue = false →
      Completes (.injectFailure b k) s (fun t => t.fenced (coreArg (a 0x12 2)) = true ∧ SMap.get 0 t.rep.fence (coreArg (a 0x12 2)) = 1 ∧ Finished b k 0 [] t)) ∧
    (s.serves b k 0xA03 = true → a 0x10 1 = 1 → a 0x12 2 < 60 → s.bayUp (a 0x12 2) = true → s.bayBusy (a 0x12 2) = false → Completes (.injectFailure b k) s (fun t =>
      (t.bay (a 0x12 2)).dark = true ∧ Finished b k 0 [] t))

/-! ## The machine as a whole -/

/-- A step runs the command at the front of the queue on the state with the queue's rest; on an empty queue 10 ns pass and nothing is
taken (a reading of the model: log entry 7). -/
def Obligations.step_runs_the_front_command : Prop :=
  (∀ (s : State) (i : Instr) (rest : List Instr), s.pending = i :: rest → step s = exec i { s with pending := rest }) ∧
  ∀ (s : State), s.pending = [] → ∃ t, step s = .next t ∧ t.time = s.time + 1 ∧ t.pending = []

/-- After reset the queue is empty, no core runs, every PC is 0, no job is loaded, memories hold nothing listed and are canonical, and
registers hold the values of the spec's tables, bay hubs, landings and global block among them. Unlisted bytes that read 0 (log entry 1), the registers
and queues that the spec gives no reset value (2), the fuses (3) and the clock lists (4) are the model's choice (R17, R505, R527). -/
def Obligations.reset_state : Prop :=
  let s := State.reset
  s.pending = [] ∧ s.job.st = 0 ∧ s.stack = [] ∧ s.sn = [] ∧ s.flights = [] ∧ s.active = none ∧ s.inp.on12 = false ∧ s.wf = true ∧
  (∀ a, s.reg a = resetOf a) ∧
  (∀ p, p < 2880 → s.running p = false ∧ s.pc p = 0 ∧ s.reg (coreReg p 0 0x40) = 16 ∧ s.reg (coreReg p 1 0x10) = 4 ∧
    s.reg (coreReg p 0 8) = 0 ∧ (s.core p).spad = [] ∧ (s.core p).sill = [] ∧ ∀ n, n < 64 → s.reg (regnReg p n) = 0) ∧
  (∀ b, b < 60 → s.reg (hubReg b 0x404) = 0xFFFFFFFF ∧ s.reg (hubReg b 0x418) = 0x13 ∧ s.reg (hubReg b 0x500) = 0x051003E8 ∧ s.bayUp b = false) ∧
  (∀ l, l < 8 → s.reg (landReg l 0) = 0x19143220 ∧ s.reg (landReg l 0x604) = 0x3F800000 ∧ s.linkUp l = false) ∧
  s.reg (gloReg 0x100) = 0x01F4000A ∧ s.reg (gloReg 0x204) = 100 ∧ s.reg (gloReg 0x604) = 25000

/-- Decoding undoes encoding: every operation a bundle can hold decodes from its slot and slot value to itself with every operand;
headers and whole bundles of 32 bytes round trip; an operation decoded from any slot value has an encoding; opcodes beyond each slot's
table decode to nothing, and no word spells a command, since the rows of the opcode table give no bits (log entry 8) (R166, R167, Tables 7.1 to 7.14). -/
def Obligations.decoding_undoes_encoding : Prop :=
  (∀ i k w, encodeSlot i = some (k, w) → k < 5 ∧ w.op ≠ 0 ∧ ∃ p h, decodeSlot k p h w = some i) ∧
  (∀ k p h w i, decodeSlot k p h w = some i → k < 5 → ∃ v, encodeSlot i = some (k, v) ∧ v.op = w.op ∧ decodeSlot k p h v = some i) ∧
  (∀ (v : BitVec 5) (h : Hdr), decodeHdr (encodeHdr v h) = h ∧ ∀ i, i < 5 → (encodeHdr v h).getLsbD i = v.getLsbD i) ∧
  (∀ b : Bundle, bundleOf b.toNat = b ∧ b.toNat < 2 ^ 256) ∧ (∀ n, n < 2 ^ 256 → (bundleOf n).toNat = n) ∧
  (∀ p h (w : Slot), (w.op = 0 ∨ 7 < w.op → decodeAr p h w = none) ∧ (w.op = 0 ∨ 26 < w.op → decodeVx p h w = none) ∧
    (w.op = 0 ∨ 9 < w.op → decodeDt p h w = none) ∧ (w.op = 0 ∨ 6 < w.op → decodeMv p h w = none) ∧
    (w.op = 0 ∨ 32 < w.op ∨ (11 < w.op ∧ w.op < 16) → decodeCt p h w = none)) ∧
  ∀ nbits w, decodeTableWord nbits w = none

/-- Every step keeps every memory canonical: the bay stacks, the memories of the cores and of their stored roles, the mailboxes and the LPDDR
hold rising addresses and no listed zero, so that equal memories are equal data (an invariant of the model, log entry 1). -/
def Obligations.steps_keep_memories_canonical : Prop := ∀ s t : State, s.wf = true → step s = .next t → t.wf = true

/-- A command stops by name only: a refusal is of a unit no module has, a fault is that of an active MP whose LPDDR a master has written,
and every well-formed command, on a bandwidth register where it names one, completes when the active MP is defined. That a command at a unit which does
not answer is answered with the state unchanged (log entry 9), and that an undefined MP faults (35), are the model's choice (Table 19.17). -/
def Obligations.stops_are_named : Prop :=
  ∀ (i : Instr) (s : State),
    (∀ r, exec i s = .refused r → r = .noSuchUnit) ∧ (∀ f, exec i s = .fault f → f = .mpUndefined ∧ s.mpUndef = true) ∧
    (i.wf = true → s.mpUndef = false → (∀ a v, i ≠ .bwCtrl a v) → (∀ a, i ≠ .bwWindowEnd a) → ∃ t, exec i s = .next t) ∧
    (∀ a v, isBw a = true → (∃ t, exec (.bwCtrl a v) s = .next t) ∧ ∃ t, exec (.bwWindowEnd a) s = .next t) ∧
    (∀ p h f, 2880 ≤ p → exec (.sadd p h f) s = .refused .noSuchUnit) ∧ (∀ b, 60 ≤ b → exec (.bayLoss b) s = .refused .noSuchUnit) ∧
    (s.mpUndef = true → exec .commitDecision s = .fault .mpUndefined ∧ ∀ b k, b < 2 → k < 64 → exec (.doorbell b k) s = .fault .mpUndefined)
end

