-- ==== Sys2Proof/Laws/Maps.lean ====
section
/-! SUPPORT. The laws of the two sparse containers: a read after a write, the canonical form, and what bytes a write leaves alone. -/

namespace Sys2Proof

namespace SMap
variable {α : Type} (d : α)

@[simp] theorem get_nil (k : Nat) : get d [] k = d := rfl

theorem get_ins (m : SMap α) (k j : Nat) (v : α) : get d (ins m k v) j = if j = k then v else get d m j := by
  induction m with
  | nil => simp [ins, get]
  | cons e m ih =>
    obtain ⟨i, w⟩ := e
    by_cases h1 : k < i
    · simp [ins, h1, get]
    · by_cases h2 : k = i
      · subst h2; by_cases h3 : j = k <;> simp [ins, get, h3]
      · by_cases h3 : j = i
        · subst h3; simp [ins, get, h1, h2, Ne.symm h2]
        · simp [ins, get, h1, h2, h3, ih]

theorem get_del (m : SMap α) (k j : Nat) : get d (del m k) j = if j = k then d else get d m j := by
  induction m with
  | nil => simp [del, get]
  | cons e m ih =>
    obtain ⟨i, w⟩ := e
    simp only [del] at ih ⊢
    by_cases h1 : i = k
    · subst h1
      by_cases h3 : j = i
      · subst h3; simp [List.filter, ih]
      · simp [List.filter, ih, get, h3]
    · have h2 : (i != k) = true := by simpa using h1
      by_cases h3 : j = i
      · subst h3; simp [List.filter, h2, get, h1]
      · simp [List.filter, h2, get, h3, ih]

variable [DecidableEq α]

/-- A read after a write: the value written at its own key, every other key as before. -/
theorem get_set (m : SMap α) (k j : Nat) (v : α) : get d (set d m k v) j = if j = k then v else get d m j := by
  unfold set
  split
  · next h => rw [get_del, h]
  · rw [get_ins]

@[simp] theorem get_set_same (m : SMap α) (k : Nat) (v : α) : get d (set d m k v) k = v := by simp [get_set]

theorem get_set_ne (m : SMap α) {k j : Nat} (v : α) (h : j ≠ k) : get d (set d m k v) j = get d m j := by simp [get_set, h]

/-- The canonical form says that no value is the default and that every key lies below all that follow. -/
theorem wf_cons (k : Nat) (v : α) (m : SMap α) :
    wf d ((k, v) :: m) = true ↔ v ≠ d ∧ (∀ e ∈ m, k < e.1) ∧ wf d m = true := by
  induction m generalizing k v with
  | nil => simp [wf]
  | cons e m ih =>
    obtain ⟨j, w⟩ := e
    simp only [wf, Bool.and_eq_true, decide_eq_true_eq, List.mem_cons, forall_eq_or_imp]
    constructor
    · rintro ⟨⟨hv, hk⟩, hm⟩
      exact ⟨hv, ⟨hk, fun e he => Nat.lt_trans hk (((ih j w).1 hm).2.1 e he)⟩, hm⟩
    · rintro ⟨hv, ⟨hk, -⟩, hm⟩
      exact ⟨⟨hv, hk⟩, hm⟩

theorem wf_del (m : SMap α) (k : Nat) (h : wf d m = true) : wf d (del m k) = true := by
  induction m with
  | nil => simpa [del] using h
  | cons e m ih =>
    obtain ⟨i, w⟩ := e
    obtain ⟨hv, hk, hm⟩ := (wf_cons d i w m).1 h
    have ih' := ih hm
    simp only [del] at ih' ⊢
    rw [List.filter_cons]
    split
    · exact (wf_cons d _ _ _).2 ⟨hv, fun e he => hk e (List.mem_filter.1 he).1, ih'⟩
    · exact ih'

omit [DecidableEq α] in
theorem mem_ins (m : SMap α) (k : Nat) (v : α) (e : Nat × α) (h : e ∈ ins m k v) : e = (k, v) ∨ e ∈ m := by
  induction m with
  | nil => simpa [ins] using h
  | cons f m ih =>
    obtain ⟨i, w⟩ := f
    simp only [ins] at h
    split at h
    · simpa using h
    · split at h
      · rcases List.mem_cons.1 h with h | h
        · exact .inl h
        · exact .inr (List.mem_cons_of_mem _ h)
      · rcases List.mem_cons.1 h with h | h
        · exact .inr (h ▸ List.mem_cons_self)
        · exact (ih h).imp id (List.mem_cons_of_mem _)

theorem wf_ins (m : SMap α) (k : Nat) (v : α) (hv : v ≠ d) (h : wf d m = true) : wf d (ins m k v) = true := by
  induction m with
  | nil => simpa [ins, wf] using hv
  | cons e m ih =>
    obtain ⟨i, w⟩ := e
    have h' := (wf_cons d i w m).1 h
    obtain ⟨hw, hi, hm⟩ := h'
    simp only [ins]
    split
    · next hlt =>
      refine (wf_cons d _ _ _).2 ⟨hv, ?_, h⟩
      intro e he
      rcases List.mem_cons.1 he with rfl | he
      · exact hlt
      · exact Nat.lt_trans hlt (hi e he)
    · split
      · next _ heq => subst heq; exact (wf_cons d _ _ _).2 ⟨hv, hi, hm⟩
      · next hnl hne =>
        refine (wf_cons d _ _ _).2 ⟨hw, ?_, ih hm⟩
        intro e he
        rcases mem_ins m k v e he with rfl | he
        · simp only at *; omega
        · exact hi e he

/-- A write keeps the canonical form. -/
theorem wf_set (m : SMap α) (k : Nat) (v : α) (h : wf d m = true) : wf d (set d m k v) = true := by
  unfold set
  split
  · exact wf_del d m k h
  · next hv => exact wf_ins d m k v hv h

end SMap

namespace Mem

theorem wf_filter (m : Mem) (f : Host.Cell → Bool) (h : wf m = true) : wf (m.filter f) = true := by
  unfold wf at *
  induction m with
  | nil => simpa using h
  | cons e m ih =>
    obtain ⟨i, w⟩ := e
    obtain ⟨hv, hk, hm⟩ := (SMap.wf_cons (0 : Byte) i w m).1 h
    rw [List.filter_cons]
    split
    · exact (SMap.wf_cons _ _ _ _).2 ⟨hv, fun e he => hk e (List.mem_filter.1 he).1, ih hm⟩
    · exact ih hm

theorem mem_cells (bs : List Byte) (a : Nat) (e : Host.Cell) (h : e ∈ cells a bs) : a ≤ e.1 ∧ e.1 < a + bs.length := by
  induction bs generalizing a with
  | nil => simp [cells] at h
  | cons b bs ih =>
    simp only [cells] at h
    have grow : e ∈ cells (a + 1) bs → a ≤ e.1 ∧ e.1 < a + (b :: bs).length := by
      intro h; have := ih (a + 1) h; simp only [List.length_cons]; omega
    split at h
    · exact grow h
    · rcases List.mem_cons.1 h with rfl | h
      · simp only [List.length_cons]; omega
      · exact grow h

theorem wf_cells (bs : List Byte) (a : Nat) : wf (cells a bs) = true := by
  induction bs generalizing a with
  | nil => rfl
  | cons b bs ih =>
    simp only [cells]
    split
    · exact ih (a + 1)
    · next hb => exact (SMap.wf_cons _ _ _ _).2 ⟨hb, fun e he => by have := mem_cells bs (a + 1) e he; omega, ih (a + 1)⟩

theorem wf_append (m n : Mem) (hm : wf m = true) (hn : wf n = true) (h : ∀ e ∈ m, ∀ f ∈ n, e.1 < f.1) : wf (m ++ n) = true := by
  unfold wf at *
  induction m with
  | nil => simpa using hn
  | cons e m ih =>
    obtain ⟨i, w⟩ := e
    obtain ⟨hv, hk, hm'⟩ := (SMap.wf_cons (0 : Byte) i w m).1 hm
    refine (SMap.wf_cons _ _ _ _).2 ⟨hv, ?_, ih hm' (fun e he => h e (List.mem_cons_of_mem _ he))⟩
    intro e he
    rcases List.mem_append.1 he with he | he
    · exact hk e he
    · exact h (i, w) List.mem_cons_self e he

/-- A write keeps the canonical form of a memory. -/
theorem wf_write (m : Mem) (a : Nat) (bs : List Byte) (h : wf m = true) : wf (write m a bs) = true := by
  unfold write
  refine wf_append _ _ (wf_append _ _ (wf_filter _ _ h) (wf_cells bs a) ?_) (wf_filter _ _ h) ?_
  · intro e he f hf
    have h1 := (List.mem_filter.1 he).2
    have h2 := mem_cells bs a f hf
    simp only [decide_eq_true_eq] at h1; omega
  · intro e he f hf
    have h2 := (List.mem_filter.1 hf).2
    simp only [decide_eq_true_eq] at h2
    rcases List.mem_append.1 he with he | he
    · have h1 := (List.mem_filter.1 he).2
      simp only [decide_eq_true_eq] at h1; omega
    · have h1 := mem_cells bs a e he; omega

/-- Zeroing keeps the canonical form. -/
theorem wf_zero (m : Mem) (a n : Nat) (h : wf m = true) : wf (zero m a n) = true := wf_filter _ _ h

theorem byte_append (m n : Mem) (x : Nat) (h : ∀ e ∈ m, e.1 ≠ x) : byte (m ++ n) x = byte n x := by
  induction m with
  | nil => rfl
  | cons e m ih =>
    obtain ⟨i, w⟩ := e
    have hi : x ≠ i := fun hx => h (i, w) List.mem_cons_self hx.symm
    have := ih (fun e he => h e (List.mem_cons_of_mem _ he))
    simpa [byte, SMap.get, hi] using this

theorem byte_append_left (m n : Mem) (x : Nat) (h : ∀ e ∈ n, e.1 ≠ x) : byte (m ++ n) x = byte m x := by
  induction m with
  | nil =>
    induction n with
    | nil => rfl
    | cons e n ih =>
      obtain ⟨i, w⟩ := e
      have hi : x ≠ i := fun hx => h (i, w) List.mem_cons_self hx.symm
      have := ih (fun e he => h e (List.mem_cons_of_mem _ he))
      simpa [byte, SMap.get, hi] using this
  | cons e m ih =>
    obtain ⟨i, w⟩ := e
    simp only [byte, SMap.get, List.cons_append] at ih ⊢
    split
    · rfl
    · exact ih

theorem byte_filter (m : Mem) (f : Host.Cell → Bool) (x : Nat) (h : ∀ b, f (x, b) = true) : byte (m.filter f) x = byte m x := by
  induction m with
  | nil => rfl
  | cons e m ih =>
    obtain ⟨i, w⟩ := e
    rw [List.filter_cons]
    by_cases hx : x = i
    · subst hx; simp [h, byte, SMap.get]
    · split
      · simpa [byte, SMap.get, hx] using ih
      · simpa [byte, SMap.get, hx] using ih

theorem byte_none (m : Mem) (x : Nat) (h : ∀ e ∈ m, e.1 ≠ x) : byte m x = 0 := by
  simpa [byte, SMap.get] using byte_append m [] x h

/-- A write leaves every byte outside the written bytes alone. -/
theorem byte_write_outside (m : Mem) (a : Nat) (bs : List Byte) (x : Nat) (h : x < a ∨ a + bs.length ≤ x) :
    byte (write m a bs) x = byte m x := by
  unfold write
  rcases h with h | h
  · rw [byte_append_left, byte_append_left, byte_filter]
    · intro b; simpa using h
    · intro e he; have := mem_cells bs a e he; omega
    · intro e he
      have := (List.mem_filter.1 he).2
      simp only [decide_eq_true_eq] at this; omega
  · rw [byte_append, byte_filter]
    · intro b; simpa using h
    · intro e he
      rcases List.mem_append.1 he with he | he
      · have := (List.mem_filter.1 he).2
        simp only [decide_eq_true_eq] at this; omega
      · have := mem_cells bs a e he; omega

theorem byte_cells (bs : List Byte) (a i : Nat) : byte (cells a bs) (a + i) = bs.getD i 0 := by
  induction bs generalizing a i with
  | nil => simp [cells, byte]
  | cons b bs ih =>
    simp only [cells]
    cases i with
    | zero =>
      split
      · next hb =>
        simp only [List.getD_cons_zero, Nat.add_zero, hb]
        exact byte_none _ _ (fun e he => by have := mem_cells bs (a + 1) e he; omega)
      · simp [byte, SMap.get]
    | succ i =>
      have e : a + (i + 1) = a + 1 + i := by omega
      rw [List.getD_cons_succ, e]
      split
      · exact ih (a + 1) i
      · have : ¬ a + 1 + i = a := by omega
        simpa [byte, SMap.get, this] using ih (a + 1) i

/-- A write puts its i-th byte at address a + i. -/
theorem byte_write_inside (m : Mem) (a : Nat) (bs : List Byte) (i : Nat) (h : i < bs.length) :
    byte (write m a bs) (a + i) = bs.getD i 0 := by
  unfold write
  rw [byte_append_left, byte_append, byte_cells]
  · intro e he
    have := (List.mem_filter.1 he).2
    simp only [decide_eq_true_eq] at this; omega
  · intro e he
    have := (List.mem_filter.1 he).2
    simp only [decide_eq_true_eq] at this; omega

/-- The i-th byte of a read is the byte at address a + i. -/
@[simp] theorem read_length (m : Mem) (a n : Nat) : (read m a n).length = n := by simp [read]

theorem read_getD (m : Mem) (a n i : Nat) (h : i < n) : (read m a n).getD i 0 = byte m (a + i) := by
  simp only [read, List.getD_eq_getElem?_getD, List.getElem?_map, List.getElem?_range h, Option.map_some, Option.getD_some]
  exact byte_filter m _ _ (fun b => by simp [h])

end Mem

end Sys2Proof
end

