-- ==== Sys2Proof/Laws/State.lean ====
section
/-! SUPPORT. What each update of State leaves alone, field by field, and what a unit or a register reads as after it. -/

namespace Sys2Proof.Machine

namespace State

variable (s : State)

/-! ## setReg -/

@[simp] theorem pending_setReg (a : Nat) (v : W32) : (s.setReg a v).pending = s.pending := (rfl)
@[simp] theorem freeCtr_setReg (a : Nat) (v : W32) : (s.setReg a v).freeCtr = s.freeCtr := (rfl)
@[simp] theorem time_setReg (a : Nat) (v : W32) : (s.setReg a v).time = s.time := (rfl)
@[simp] theorem memPage_setReg (a : Nat) (v : W32) : (s.setReg a v).memPage = s.memPage := (rfl)
@[simp] theorem cores_setReg (a : Nat) (v : W32) : (s.setReg a v).cores = s.cores := (rfl)
@[simp] theorem routers_setReg (a : Nat) (v : W32) : (s.setReg a v).routers = s.routers := (rfl)
@[simp] theorem bays_setReg (a : Nat) (v : W32) : (s.setReg a v).bays = s.bays := (rfl)
@[simp] theorem lands_setReg (a : Nat) (v : W32) : (s.setReg a v).lands = s.lands := (rfl)
@[simp] theorem bars_setReg (a : Nat) (v : W32) : (s.setReg a v).bars = s.bars := (rfl)
@[simp] theorem barsSb_setReg (a : Nat) (v : W32) : (s.setReg a v).barsSb = s.barsSb := (rfl)
@[simp] theorem rootPos_setReg (a : Nat) (v : W32) : (s.setReg a v).rootPos = s.rootPos := (rfl)
@[simp] theorem rootPosSb_setReg (a : Nat) (v : W32) : (s.setReg a v).rootPosSb = s.rootPosSb := (rfl)
@[simp] theorem rootMark_setReg (a : Nat) (v : W32) : (s.setReg a v).rootMark = s.rootMark := (rfl)
@[simp] theorem sn_setReg (a : Nat) (v : W32) : (s.setReg a v).sn = s.sn := (rfl)
@[simp] theorem flights_setReg (a : Nat) (v : W32) : (s.setReg a v).flights = s.flights := (rfl)
@[simp] theorem rets_setReg (a : Nat) (v : W32) : (s.setReg a v).rets = s.rets := (rfl)
@[simp] theorem stack_setReg (a : Nat) (v : W32) : (s.setReg a v).stack = s.stack := (rfl)
@[simp] theorem ledEsc_setReg (a : Nat) (v : W32) : (s.setReg a v).ledEsc = s.ledEsc := (rfl)
@[simp] theorem joins_setReg (a : Nat) (v : W32) : (s.setReg a v).joins = s.joins := (rfl)
@[simp] theorem joinSet_setReg (a : Nat) (v : W32) : (s.setReg a v).joinSet = s.joinSet := (rfl)
@[simp] theorem job_setReg (a : Nat) (v : W32) : (s.setReg a v).job = s.job := (rfl)
@[simp] theorem boards_setReg (a : Nat) (v : W32) : (s.setReg a v).boards = s.boards := (rfl)
@[simp] theorem active_setReg (a : Nat) (v : W32) : (s.setReg a v).active = s.active := (rfl)
@[simp] theorem posted_setReg (a : Nat) (v : W32) : (s.setReg a v).posted = s.posted := (rfl)
@[simp] theorem epochObjs_setReg (a : Nat) (v : W32) : (s.setReg a v).epochObjs = s.epochObjs := (rfl)
@[simp] theorem epochOf_setReg (a : Nat) (v : W32) : (s.setReg a v).epochOf = s.epochOf := (rfl)
@[simp] theorem evPending_setReg (a : Nat) (v : W32) : (s.setReg a v).evPending = s.evPending := (rfl)
@[simp] theorem evSeq_setReg (a : Nat) (v : W32) : (s.setReg a v).evSeq = s.evSeq := (rfl)
@[simp] theorem evLost_setReg (a : Nat) (v : W32) : (s.setReg a v).evLost = s.evLost := (rfl)
@[simp] theorem rep_setReg (a : Nat) (v : W32) : (s.setReg a v).rep = s.rep := (rfl)
@[simp] theorem inp_setReg (a : Nat) (v : W32) : (s.setReg a v).inp = s.inp := (rfl)
@[simp] theorem phase_setReg (a : Nat) (v : W32) : (s.setReg a v).phase = s.phase := (rfl)
@[simp] theorem readyUp_setReg (a : Nat) (v : W32) : (s.setReg a v).readyUp = s.readyUp := (rfl)
@[simp] theorem startFenced_setReg (a : Nat) (v : W32) : (s.setReg a v).startFenced = s.startFenced := (rfl)
@[simp] theorem startOuts_setReg (a : Nat) (v : W32) : (s.setReg a v).startOuts = s.startOuts := (rfl)
@[simp] theorem mpEsc_setReg (a : Nat) (v : W32) : (s.setReg a v).mpEsc = s.mpEsc := (rfl)
@[simp] theorem mpSeek_setReg (a : Nat) (v : W32) : (s.setReg a v).mpSeek = s.mpSeek := (rfl)
@[simp] theorem back_setReg (a : Nat) (v : W32) : (s.setReg a v).back = s.back := (rfl)
@[simp] theorem cn_setReg (a : Nat) (v : W32) : (s.setReg a v).cn = s.cn := (rfl)
@[simp] theorem cnBack_setReg (a : Nat) (v : W32) : (s.setReg a v).cnBack = s.cnBack := (rfl)
@[simp] theorem liveOrder_setReg (a : Nat) (v : W32) : (s.setReg a v).liveOrder = s.liveOrder := (rfl)
@[simp] theorem liveBoard_setReg (a : Nat) (v : W32) : (s.setReg a v).liveBoard = s.liveBoard := (rfl)
@[simp] theorem liveWhich_setReg (a : Nat) (v : W32) : (s.setReg a v).liveWhich = s.liveWhich := (rfl)
@[simp] theorem liveCmd_setReg (a : Nat) (v : W32) : (s.setReg a v).liveCmd = s.liveCmd := (rfl)
@[simp] theorem stackStops_setReg (a : Nat) (v : W32) : (s.setReg a v).stackStops = s.stackStops := (rfl)
@[simp] theorem handover_setReg (a : Nat) (v : W32) : (s.setReg a v).handover = s.handover := (rfl)
@[simp] theorem handCmd_setReg (a : Nat) (v : W32) : (s.setReg a v).handCmd = s.handCmd := (rfl)
@[simp] theorem riskLog_setReg (a : Nat) (v : W32) : (s.setReg a v).riskLog = s.riskLog := (rfl)
@[simp] theorem riskBand_setReg (a : Nat) (v : W32) : (s.setReg a v).riskBand = s.riskBand := (rfl)
@[simp] theorem escParent_setReg (a : Nat) (v : W32) : (s.setReg a v).escParent = s.escParent := (rfl)
@[simp] theorem escW_setReg (a : Nat) (v : W32) : (s.setReg a v).escW = s.escW := (rfl)
@[simp] theorem pathLong_setReg (a : Nat) (v : W32) : (s.setReg a v).pathLong = s.pathLong := (rfl)
@[simp] theorem snFenced_setReg (a : Nat) (v : W32) : (s.setReg a v).snFenced = s.snFenced := (rfl)
@[simp] theorem bwAcc_setReg (a : Nat) (v : W32) : (s.setReg a v).bwAcc = s.bwAcc := (rfl)
@[simp] theorem core_setReg (a : Nat) (v : W32) (j : Nat) : (s.setReg a v).core j = s.core j := (rfl)
@[simp] theorem land_setReg (a : Nat) (v : W32) (j : Nat) : (s.setReg a v).land j = s.land j := (rfl)
@[simp] theorem bay_setReg (a : Nat) (v : W32) (j : Nat) : (s.setReg a v).bay j = s.bay j := (rfl)
@[simp] theorem rtr_setReg (a : Nat) (v : W32) (j : Nat) : (s.setReg a v).rtr j = s.rtr j := (rfl)
@[simp] theorem board_setReg (a : Nat) (v : W32) (j : Nat) : (s.setReg a v).board j = s.board j := (rfl)
@[simp] theorem ret_setReg (a : Nat) (v : W32) (j : Nat) : (s.setReg a v).ret j = s.ret j := (rfl)

/-! ## setCore -/

@[simp] theorem pending_setCore (p : Nat) (x : Core) : (s.setCore p x).pending = s.pending := (rfl)
@[simp] theorem freeCtr_setCore (p : Nat) (x : Core) : (s.setCore p x).freeCtr = s.freeCtr := (rfl)
@[simp] theorem time_setCore (p : Nat) (x : Core) : (s.setCore p x).time = s.time := (rfl)
@[simp] theorem regs_setCore (p : Nat) (x : Core) : (s.setCore p x).regs = s.regs := (rfl)
@[simp] theorem memPage_setCore (p : Nat) (x : Core) : (s.setCore p x).memPage = s.memPage := (rfl)
@[simp] theorem routers_setCore (p : Nat) (x : Core) : (s.setCore p x).routers = s.routers := (rfl)
@[simp] theorem bays_setCore (p : Nat) (x : Core) : (s.setCore p x).bays = s.bays := (rfl)
@[simp] theorem lands_setCore (p : Nat) (x : Core) : (s.setCore p x).lands = s.lands := (rfl)
@[simp] theorem bars_setCore (p : Nat) (x : Core) : (s.setCore p x).bars = s.bars := (rfl)
@[simp] theorem barsSb_setCore (p : Nat) (x : Core) : (s.setCore p x).barsSb = s.barsSb := (rfl)
@[simp] theorem rootPos_setCore (p : Nat) (x : Core) : (s.setCore p x).rootPos = s.rootPos := (rfl)
@[simp] theorem rootPosSb_setCore (p : Nat) (x : Core) : (s.setCore p x).rootPosSb = s.rootPosSb := (rfl)
@[simp] theorem rootMark_setCore (p : Nat) (x : Core) : (s.setCore p x).rootMark = s.rootMark := (rfl)
@[simp] theorem sn_setCore (p : Nat) (x : Core) : (s.setCore p x).sn = s.sn := (rfl)
@[simp] theorem flights_setCore (p : Nat) (x : Core) : (s.setCore p x).flights = s.flights := (rfl)
@[simp] theorem rets_setCore (p : Nat) (x : Core) : (s.setCore p x).rets = s.rets := (rfl)
@[simp] theorem stack_setCore (p : Nat) (x : Core) : (s.setCore p x).stack = s.stack := (rfl)
@[simp] theorem ledEsc_setCore (p : Nat) (x : Core) : (s.setCore p x).ledEsc = s.ledEsc := (rfl)
@[simp] theorem joins_setCore (p : Nat) (x : Core) : (s.setCore p x).joins = s.joins := (rfl)
@[simp] theorem joinSet_setCore (p : Nat) (x : Core) : (s.setCore p x).joinSet = s.joinSet := (rfl)
@[simp] theorem job_setCore (p : Nat) (x : Core) : (s.setCore p x).job = s.job := (rfl)
@[simp] theorem boards_setCore (p : Nat) (x : Core) : (s.setCore p x).boards = s.boards := (rfl)
@[simp] theorem active_setCore (p : Nat) (x : Core) : (s.setCore p x).active = s.active := (rfl)
@[simp] theorem posted_setCore (p : Nat) (x : Core) : (s.setCore p x).posted = s.posted := (rfl)
@[simp] theorem epochObjs_setCore (p : Nat) (x : Core) : (s.setCore p x).epochObjs = s.epochObjs := (rfl)
@[simp] theorem epochOf_setCore (p : Nat) (x : Core) : (s.setCore p x).epochOf = s.epochOf := (rfl)
@[simp] theorem evPending_setCore (p : Nat) (x : Core) : (s.setCore p x).evPending = s.evPending := (rfl)
@[simp] theorem evSeq_setCore (p : Nat) (x : Core) : (s.setCore p x).evSeq = s.evSeq := (rfl)
@[simp] theorem evLost_setCore (p : Nat) (x : Core) : (s.setCore p x).evLost = s.evLost := (rfl)
@[simp] theorem rep_setCore (p : Nat) (x : Core) : (s.setCore p x).rep = s.rep := (rfl)
@[simp] theorem inp_setCore (p : Nat) (x : Core) : (s.setCore p x).inp = s.inp := (rfl)
@[simp] theorem phase_setCore (p : Nat) (x : Core) : (s.setCore p x).phase = s.phase := (rfl)
@[simp] theorem readyUp_setCore (p : Nat) (x : Core) : (s.setCore p x).readyUp = s.readyUp := (rfl)
@[simp] theorem startFenced_setCore (p : Nat) (x : Core) : (s.setCore p x).startFenced = s.startFenced := (rfl)
@[simp] theorem startOuts_setCore (p : Nat) (x : Core) : (s.setCore p x).startOuts = s.startOuts := (rfl)
@[simp] theorem mpEsc_setCore (p : Nat) (x : Core) : (s.setCore p x).mpEsc = s.mpEsc := (rfl)
@[simp] theorem mpSeek_setCore (p : Nat) (x : Core) : (s.setCore p x).mpSeek = s.mpSeek := (rfl)
@[simp] theorem back_setCore (p : Nat) (x : Core) : (s.setCore p x).back = s.back := (rfl)
@[simp] theorem cn_setCore (p : Nat) (x : Core) : (s.setCore p x).cn = s.cn := (rfl)
@[simp] theorem cnBack_setCore (p : Nat) (x : Core) : (s.setCore p x).cnBack = s.cnBack := (rfl)
@[simp] theorem liveOrder_setCore (p : Nat) (x : Core) : (s.setCore p x).liveOrder = s.liveOrder := (rfl)
@[simp] theorem liveBoard_setCore (p : Nat) (x : Core) : (s.setCore p x).liveBoard = s.liveBoard := (rfl)
@[simp] theorem liveWhich_setCore (p : Nat) (x : Core) : (s.setCore p x).liveWhich = s.liveWhich := (rfl)
@[simp] theorem liveCmd_setCore (p : Nat) (x : Core) : (s.setCore p x).liveCmd = s.liveCmd := (rfl)
@[simp] theorem stackStops_setCore (p : Nat) (x : Core) : (s.setCore p x).stackStops = s.stackStops := (rfl)
@[simp] theorem handover_setCore (p : Nat) (x : Core) : (s.setCore p x).handover = s.handover := (rfl)
@[simp] theorem handCmd_setCore (p : Nat) (x : Core) : (s.setCore p x).handCmd = s.handCmd := (rfl)
@[simp] theorem riskLog_setCore (p : Nat) (x : Core) : (s.setCore p x).riskLog = s.riskLog := (rfl)
@[simp] theorem riskBand_setCore (p : Nat) (x : Core) : (s.setCore p x).riskBand = s.riskBand := (rfl)
@[simp] theorem escParent_setCore (p : Nat) (x : Core) : (s.setCore p x).escParent = s.escParent := (rfl)
@[simp] theorem escW_setCore (p : Nat) (x : Core) : (s.setCore p x).escW = s.escW := (rfl)
@[simp] theorem pathLong_setCore (p : Nat) (x : Core) : (s.setCore p x).pathLong = s.pathLong := (rfl)
@[simp] theorem snFenced_setCore (p : Nat) (x : Core) : (s.setCore p x).snFenced = s.snFenced := (rfl)
@[simp] theorem bwAcc_setCore (p : Nat) (x : Core) : (s.setCore p x).bwAcc = s.bwAcc := (rfl)
@[simp] theorem reg_setCore (p : Nat) (x : Core) (j : Nat) : (s.setCore p x).reg j = s.reg j := (rfl)
@[simp] theorem land_setCore (p : Nat) (x : Core) (j : Nat) : (s.setCore p x).land j = s.land j := (rfl)
@[simp] theorem bay_setCore (p : Nat) (x : Core) (j : Nat) : (s.setCore p x).bay j = s.bay j := (rfl)
@[simp] theorem rtr_setCore (p : Nat) (x : Core) (j : Nat) : (s.setCore p x).rtr j = s.rtr j := (rfl)
@[simp] theorem board_setCore (p : Nat) (x : Core) (j : Nat) : (s.setCore p x).board j = s.board j := (rfl)
@[simp] theorem ret_setCore (p : Nat) (x : Core) (j : Nat) : (s.setCore p x).ret j = s.ret j := (rfl)

/-! ## setLand -/

@[simp] theorem pending_setLand (l : Nat) (x : Landing) : (s.setLand l x).pending = s.pending := (rfl)
@[simp] theorem freeCtr_setLand (l : Nat) (x : Landing) : (s.setLand l x).freeCtr = s.freeCtr := (rfl)
@[simp] theorem time_setLand (l : Nat) (x : Landing) : (s.setLand l x).time = s.time := (rfl)
@[simp] theorem regs_setLand (l : Nat) (x : Landing) : (s.setLand l x).regs = s.regs := (rfl)
@[simp] theorem memPage_setLand (l : Nat) (x : Landing) : (s.setLand l x).memPage = s.memPage := (rfl)
@[simp] theorem cores_setLand (l : Nat) (x : Landing) : (s.setLand l x).cores = s.cores := (rfl)
@[simp] theorem routers_setLand (l : Nat) (x : Landing) : (s.setLand l x).routers = s.routers := (rfl)
@[simp] theorem bays_setLand (l : Nat) (x : Landing) : (s.setLand l x).bays = s.bays := (rfl)
@[simp] theorem bars_setLand (l : Nat) (x : Landing) : (s.setLand l x).bars = s.bars := (rfl)
@[simp] theorem barsSb_setLand (l : Nat) (x : Landing) : (s.setLand l x).barsSb = s.barsSb := (rfl)
@[simp] theorem rootPos_setLand (l : Nat) (x : Landing) : (s.setLand l x).rootPos = s.rootPos := (rfl)
@[simp] theorem rootPosSb_setLand (l : Nat) (x : Landing) : (s.setLand l x).rootPosSb = s.rootPosSb := (rfl)
@[simp] theorem rootMark_setLand (l : Nat) (x : Landing) : (s.setLand l x).rootMark = s.rootMark := (rfl)
@[simp] theorem sn_setLand (l : Nat) (x : Landing) : (s.setLand l x).sn = s.sn := (rfl)
@[simp] theorem flights_setLand (l : Nat) (x : Landing) : (s.setLand l x).flights = s.flights := (rfl)
@[simp] theorem rets_setLand (l : Nat) (x : Landing) : (s.setLand l x).rets = s.rets := (rfl)
@[simp] theorem stack_setLand (l : Nat) (x : Landing) : (s.setLand l x).stack = s.stack := (rfl)
@[simp] theorem ledEsc_setLand (l : Nat) (x : Landing) : (s.setLand l x).ledEsc = s.ledEsc := (rfl)
@[simp] theorem joins_setLand (l : Nat) (x : Landing) : (s.setLand l x).joins = s.joins := (rfl)
@[simp] theorem joinSet_setLand (l : Nat) (x : Landing) : (s.setLand l x).joinSet = s.joinSet := (rfl)
@[simp] theorem job_setLand (l : Nat) (x : Landing) : (s.setLand l x).job = s.job := (rfl)
@[simp] theorem boards_setLand (l : Nat) (x : Landing) : (s.setLand l x).boards = s.boards := (rfl)
@[simp] theorem active_setLand (l : Nat) (x : Landing) : (s.setLand l x).active = s.active := (rfl)
@[simp] theorem posted_setLand (l : Nat) (x : Landing) : (s.setLand l x).posted = s.posted := (rfl)
@[simp] theorem epochObjs_setLand (l : Nat) (x : Landing) : (s.setLand l x).epochObjs = s.epochObjs := (rfl)
@[simp] theorem epochOf_setLand (l : Nat) (x : Landing) : (s.setLand l x).epochOf = s.epochOf := (rfl)
@[simp] theorem evPending_setLand (l : Nat) (x : Landing) : (s.setLand l x).evPending = s.evPending := (rfl)
@[simp] theorem evSeq_setLand (l : Nat) (x : Landing) : (s.setLand l x).evSeq = s.evSeq := (rfl)
@[simp] theorem evLost_setLand (l : Nat) (x : Landing) : (s.setLand l x).evLost = s.evLost := (rfl)
@[simp] theorem rep_setLand (l : Nat) (x : Landing) : (s.setLand l x).rep = s.rep := (rfl)
@[simp] theorem inp_setLand (l : Nat) (x : Landing) : (s.setLand l x).inp = s.inp := (rfl)
@[simp] theorem phase_setLand (l : Nat) (x : Landing) : (s.setLand l x).phase = s.phase := (rfl)
@[simp] theorem readyUp_setLand (l : Nat) (x : Landing) : (s.setLand l x).readyUp = s.readyUp := (rfl)
@[simp] theorem startFenced_setLand (l : Nat) (x : Landing) : (s.setLand l x).startFenced = s.startFenced := (rfl)
@[simp] theorem startOuts_setLand (l : Nat) (x : Landing) : (s.setLand l x).startOuts = s.startOuts := (rfl)
@[simp] theorem mpEsc_setLand (l : Nat) (x : Landing) : (s.setLand l x).mpEsc = s.mpEsc := (rfl)
@[simp] theorem mpSeek_setLand (l : Nat) (x : Landing) : (s.setLand l x).mpSeek = s.mpSeek := (rfl)
@[simp] theorem back_setLand (l : Nat) (x : Landing) : (s.setLand l x).back = s.back := (rfl)
@[simp] theorem cn_setLand (l : Nat) (x : Landing) : (s.setLand l x).cn = s.cn := (rfl)
@[simp] theorem cnBack_setLand (l : Nat) (x : Landing) : (s.setLand l x).cnBack = s.cnBack := (rfl)
@[simp] theorem liveOrder_setLand (l : Nat) (x : Landing) : (s.setLand l x).liveOrder = s.liveOrder := (rfl)
@[simp] theorem liveBoard_setLand (l : Nat) (x : Landing) : (s.setLand l x).liveBoard = s.liveBoard := (rfl)
@[simp] theorem liveWhich_setLand (l : Nat) (x : Landing) : (s.setLand l x).liveWhich = s.liveWhich := (rfl)
@[simp] theorem liveCmd_setLand (l : Nat) (x : Landing) : (s.setLand l x).liveCmd = s.liveCmd := (rfl)
@[simp] theorem stackStops_setLand (l : Nat) (x : Landing) : (s.setLand l x).stackStops = s.stackStops := (rfl)
@[simp] theorem handover_setLand (l : Nat) (x : Landing) : (s.setLand l x).handover = s.handover := (rfl)
@[simp] theorem handCmd_setLand (l : Nat) (x : Landing) : (s.setLand l x).handCmd = s.handCmd := (rfl)
@[simp] theorem riskLog_setLand (l : Nat) (x : Landing) : (s.setLand l x).riskLog = s.riskLog := (rfl)
@[simp] theorem riskBand_setLand (l : Nat) (x : Landing) : (s.setLand l x).riskBand = s.riskBand := (rfl)
@[simp] theorem escParent_setLand (l : Nat) (x : Landing) : (s.setLand l x).escParent = s.escParent := (rfl)
@[simp] theorem escW_setLand (l : Nat) (x : Landing) : (s.setLand l x).escW = s.escW := (rfl)
@[simp] theorem pathLong_setLand (l : Nat) (x : Landing) : (s.setLand l x).pathLong = s.pathLong := (rfl)
@[simp] theorem snFenced_setLand (l : Nat) (x : Landing) : (s.setLand l x).snFenced = s.snFenced := (rfl)
@[simp] theorem bwAcc_setLand (l : Nat) (x : Landing) : (s.setLand l x).bwAcc = s.bwAcc := (rfl)
@[simp] theorem reg_setLand (l : Nat) (x : Landing) (j : Nat) : (s.setLand l x).reg j = s.reg j := (rfl)
@[simp] theorem core_setLand (l : Nat) (x : Landing) (j : Nat) : (s.setLand l x).core j = s.core j := (rfl)
@[simp] theorem bay_setLand (l : Nat) (x : Landing) (j : Nat) : (s.setLand l x).bay j = s.bay j := (rfl)
@[simp] theorem rtr_setLand (l : Nat) (x : Landing) (j : Nat) : (s.setLand l x).rtr j = s.rtr j := (rfl)
@[simp] theorem board_setLand (l : Nat) (x : Landing) (j : Nat) : (s.setLand l x).board j = s.board j := (rfl)
@[simp] theorem ret_setLand (l : Nat) (x : Landing) (j : Nat) : (s.setLand l x).ret j = s.ret j := (rfl)

/-! ## setBay -/

@[simp] theorem pending_setBay (b : Nat) (x : Bay) : (s.setBay b x).pending = s.pending := (rfl)
@[simp] theorem freeCtr_setBay (b : Nat) (x : Bay) : (s.setBay b x).freeCtr = s.freeCtr := (rfl)
@[simp] theorem time_setBay (b : Nat) (x : Bay) : (s.setBay b x).time = s.time := (rfl)
@[simp] theorem regs_setBay (b : Nat) (x : Bay) : (s.setBay b x).regs = s.regs := (rfl)
@[simp] theorem memPage_setBay (b : Nat) (x : Bay) : (s.setBay b x).memPage = s.memPage := (rfl)
@[simp] theorem cores_setBay (b : Nat) (x : Bay) : (s.setBay b x).cores = s.cores := (rfl)
@[simp] theorem routers_setBay (b : Nat) (x : Bay) : (s.setBay b x).routers = s.routers := (rfl)
@[simp] theorem lands_setBay (b : Nat) (x : Bay) : (s.setBay b x).lands = s.lands := (rfl)
@[simp] theorem bars_setBay (b : Nat) (x : Bay) : (s.setBay b x).bars = s.bars := (rfl)
@[simp] theorem barsSb_setBay (b : Nat) (x : Bay) : (s.setBay b x).barsSb = s.barsSb := (rfl)
@[simp] theorem rootPos_setBay (b : Nat) (x : Bay) : (s.setBay b x).rootPos = s.rootPos := (rfl)
@[simp] theorem rootPosSb_setBay (b : Nat) (x : Bay) : (s.setBay b x).rootPosSb = s.rootPosSb := (rfl)
@[simp] theorem rootMark_setBay (b : Nat) (x : Bay) : (s.setBay b x).rootMark = s.rootMark := (rfl)
@[simp] theorem sn_setBay (b : Nat) (x : Bay) : (s.setBay b x).sn = s.sn := (rfl)
@[simp] theorem flights_setBay (b : Nat) (x : Bay) : (s.setBay b x).flights = s.flights := (rfl)
@[simp] theorem rets_setBay (b : Nat) (x : Bay) : (s.setBay b x).rets = s.rets := (rfl)
@[simp] theorem stack_setBay (b : Nat) (x : Bay) : (s.setBay b x).stack = s.stack := (rfl)
@[simp] theorem ledEsc_setBay (b : Nat) (x : Bay) : (s.setBay b x).ledEsc = s.ledEsc := (rfl)
@[simp] theorem joins_setBay (b : Nat) (x : Bay) : (s.setBay b x).joins = s.joins := (rfl)
@[simp] theorem joinSet_setBay (b : Nat) (x : Bay) : (s.setBay b x).joinSet = s.joinSet := (rfl)
@[simp] theorem job_setBay (b : Nat) (x : Bay) : (s.setBay b x).job = s.job := (rfl)
@[simp] theorem boards_setBay (b : Nat) (x : Bay) : (s.setBay b x).boards = s.boards := (rfl)
@[simp] theorem active_setBay (b : Nat) (x : Bay) : (s.setBay b x).active = s.active := (rfl)
@[simp] theorem posted_setBay (b : Nat) (x : Bay) : (s.setBay b x).posted = s.posted := (rfl)
@[simp] theorem epochObjs_setBay (b : Nat) (x : Bay) : (s.setBay b x).epochObjs = s.epochObjs := (rfl)
@[simp] theorem epochOf_setBay (b : Nat) (x : Bay) : (s.setBay b x).epochOf = s.epochOf := (rfl)
@[simp] theorem evPending_setBay (b : Nat) (x : Bay) : (s.setBay b x).evPending = s.evPending := (rfl)
@[simp] theorem evSeq_setBay (b : Nat) (x : Bay) : (s.setBay b x).evSeq = s.evSeq := (rfl)
@[simp] theorem evLost_setBay (b : Nat) (x : Bay) : (s.setBay b x).evLost = s.evLost := (rfl)
@[simp] theorem rep_setBay (b : Nat) (x : Bay) : (s.setBay b x).rep = s.rep := (rfl)
@[simp] theorem inp_setBay (b : Nat) (x : Bay) : (s.setBay b x).inp = s.inp := (rfl)
@[simp] theorem phase_setBay (b : Nat) (x : Bay) : (s.setBay b x).phase = s.phase := (rfl)
@[simp] theorem readyUp_setBay (b : Nat) (x : Bay) : (s.setBay b x).readyUp = s.readyUp := (rfl)
@[simp] theorem startFenced_setBay (b : Nat) (x : Bay) : (s.setBay b x).startFenced = s.startFenced := (rfl)
@[simp] theorem startOuts_setBay (b : Nat) (x : Bay) : (s.setBay b x).startOuts = s.startOuts := (rfl)
@[simp] theorem mpEsc_setBay (b : Nat) (x : Bay) : (s.setBay b x).mpEsc = s.mpEsc := (rfl)
@[simp] theorem mpSeek_setBay (b : Nat) (x : Bay) : (s.setBay b x).mpSeek = s.mpSeek := (rfl)
@[simp] theorem back_setBay (b : Nat) (x : Bay) : (s.setBay b x).back = s.back := (rfl)
@[simp] theorem cn_setBay (b : Nat) (x : Bay) : (s.setBay b x).cn = s.cn := (rfl)
@[simp] theorem cnBack_setBay (b : Nat) (x : Bay) : (s.setBay b x).cnBack = s.cnBack := (rfl)
@[simp] theorem liveOrder_setBay (b : Nat) (x : Bay) : (s.setBay b x).liveOrder = s.liveOrder := (rfl)
@[simp] theorem liveBoard_setBay (b : Nat) (x : Bay) : (s.setBay b x).liveBoard = s.liveBoard := (rfl)
@[simp] theorem liveWhich_setBay (b : Nat) (x : Bay) : (s.setBay b x).liveWhich = s.liveWhich := (rfl)
@[simp] theorem liveCmd_setBay (b : Nat) (x : Bay) : (s.setBay b x).liveCmd = s.liveCmd := (rfl)
@[simp] theorem stackStops_setBay (b : Nat) (x : Bay) : (s.setBay b x).stackStops = s.stackStops := (rfl)
@[simp] theorem handover_setBay (b : Nat) (x : Bay) : (s.setBay b x).handover = s.handover := (rfl)
@[simp] theorem handCmd_setBay (b : Nat) (x : Bay) : (s.setBay b x).handCmd = s.handCmd := (rfl)
@[simp] theorem riskLog_setBay (b : Nat) (x : Bay) : (s.setBay b x).riskLog = s.riskLog := (rfl)
@[simp] theorem riskBand_setBay (b : Nat) (x : Bay) : (s.setBay b x).riskBand = s.riskBand := (rfl)
@[simp] theorem escParent_setBay (b : Nat) (x : Bay) : (s.setBay b x).escParent = s.escParent := (rfl)
@[simp] theorem escW_setBay (b : Nat) (x : Bay) : (s.setBay b x).escW = s.escW := (rfl)
@[simp] theorem pathLong_setBay (b : Nat) (x : Bay) : (s.setBay b x).pathLong = s.pathLong := (rfl)
@[simp] theorem snFenced_setBay (b : Nat) (x : Bay) : (s.setBay b x).snFenced = s.snFenced := (rfl)
@[simp] theorem bwAcc_setBay (b : Nat) (x : Bay) : (s.setBay b x).bwAcc = s.bwAcc := (rfl)
@[simp] theorem reg_setBay (b : Nat) (x : Bay) (j : Nat) : (s.setBay b x).reg j = s.reg j := (rfl)
@[simp] theorem core_setBay (b : Nat) (x : Bay) (j : Nat) : (s.setBay b x).core j = s.core j := (rfl)
@[simp] theorem land_setBay (b : Nat) (x : Bay) (j : Nat) : (s.setBay b x).land j = s.land j := (rfl)
@[simp] theorem rtr_setBay (b : Nat) (x : Bay) (j : Nat) : (s.setBay b x).rtr j = s.rtr j := (rfl)
@[simp] theorem board_setBay (b : Nat) (x : Bay) (j : Nat) : (s.setBay b x).board j = s.board j := (rfl)
@[simp] theorem ret_setBay (b : Nat) (x : Bay) (j : Nat) : (s.setBay b x).ret j = s.ret j := (rfl)

/-! ## setRtr -/

@[simp] theorem pending_setRtr (p : Nat) (x : Router) : (s.setRtr p x).pending = s.pending := (rfl)
@[simp] theorem freeCtr_setRtr (p : Nat) (x : Router) : (s.setRtr p x).freeCtr = s.freeCtr := (rfl)
@[simp] theorem time_setRtr (p : Nat) (x : Router) : (s.setRtr p x).time = s.time := (rfl)
@[simp] theorem regs_setRtr (p : Nat) (x : Router) : (s.setRtr p x).regs = s.regs := (rfl)
@[simp] theorem memPage_setRtr (p : Nat) (x : Router) : (s.setRtr p x).memPage = s.memPage := (rfl)
@[simp] theorem cores_setRtr (p : Nat) (x : Router) : (s.setRtr p x).cores = s.cores := (rfl)
@[simp] theorem bays_setRtr (p : Nat) (x : Router) : (s.setRtr p x).bays = s.bays := (rfl)
@[simp] theorem lands_setRtr (p : Nat) (x : Router) : (s.setRtr p x).lands = s.lands := (rfl)
@[simp] theorem bars_setRtr (p : Nat) (x : Router) : (s.setRtr p x).bars = s.bars := (rfl)
@[simp] theorem barsSb_setRtr (p : Nat) (x : Router) : (s.setRtr p x).barsSb = s.barsSb := (rfl)
@[simp] theorem rootPos_setRtr (p : Nat) (x : Router) : (s.setRtr p x).rootPos = s.rootPos := (rfl)
@[simp] theorem rootPosSb_setRtr (p : Nat) (x : Router) : (s.setRtr p x).rootPosSb = s.rootPosSb := (rfl)
@[simp] theorem rootMark_setRtr (p : Nat) (x : Router) : (s.setRtr p x).rootMark = s.rootMark := (rfl)
@[simp] theorem sn_setRtr (p : Nat) (x : Router) : (s.setRtr p x).sn = s.sn := (rfl)
@[simp] theorem flights_setRtr (p : Nat) (x : Router) : (s.setRtr p x).flights = s.flights := (rfl)
@[simp] theorem rets_setRtr (p : Nat) (x : Router) : (s.setRtr p x).rets = s.rets := (rfl)
@[simp] theorem stack_setRtr (p : Nat) (x : Router) : (s.setRtr p x).stack = s.stack := (rfl)
@[simp] theorem ledEsc_setRtr (p : Nat) (x : Router) : (s.setRtr p x).ledEsc = s.ledEsc := (rfl)
@[simp] theorem joins_setRtr (p : Nat) (x : Router) : (s.setRtr p x).joins = s.joins := (rfl)
@[simp] theorem joinSet_setRtr (p : Nat) (x : Router) : (s.setRtr p x).joinSet = s.joinSet := (rfl)
@[simp] theorem job_setRtr (p : Nat) (x : Router) : (s.setRtr p x).job = s.job := (rfl)
@[simp] theorem boards_setRtr (p : Nat) (x : Router) : (s.setRtr p x).boards = s.boards := (rfl)
@[simp] theorem active_setRtr (p : Nat) (x : Router) : (s.setRtr p x).active = s.active := (rfl)
@[simp] theorem posted_setRtr (p : Nat) (x : Router) : (s.setRtr p x).posted = s.posted := (rfl)
@[simp] theorem epochObjs_setRtr (p : Nat) (x : Router) : (s.setRtr p x).epochObjs = s.epochObjs := (rfl)
@[simp] theorem epochOf_setRtr (p : Nat) (x : Router) : (s.setRtr p x).epochOf = s.epochOf := (rfl)
@[simp] theorem evPending_setRtr (p : Nat) (x : Router) : (s.setRtr p x).evPending = s.evPending := (rfl)
@[simp] theorem evSeq_setRtr (p : Nat) (x : Router) : (s.setRtr p x).evSeq = s.evSeq := (rfl)
@[simp] theorem evLost_setRtr (p : Nat) (x : Router) : (s.setRtr p x).evLost = s.evLost := (rfl)
@[simp] theorem rep_setRtr (p : Nat) (x : Router) : (s.setRtr p x).rep = s.rep := (rfl)
@[simp] theorem inp_setRtr (p : Nat) (x : Router) : (s.setRtr p x).inp = s.inp := (rfl)
@[simp] theorem phase_setRtr (p : Nat) (x : Router) : (s.setRtr p x).phase = s.phase := (rfl)
@[simp] theorem readyUp_setRtr (p : Nat) (x : Router) : (s.setRtr p x).readyUp = s.readyUp := (rfl)
@[simp] theorem startFenced_setRtr (p : Nat) (x : Router) : (s.setRtr p x).startFenced = s.startFenced := (rfl)
@[simp] theorem startOuts_setRtr (p : Nat) (x : Router) : (s.setRtr p x).startOuts = s.startOuts := (rfl)
@[simp] theorem mpEsc_setRtr (p : Nat) (x : Router) : (s.setRtr p x).mpEsc = s.mpEsc := (rfl)
@[simp] theorem mpSeek_setRtr (p : Nat) (x : Router) : (s.setRtr p x).mpSeek = s.mpSeek := (rfl)
@[simp] theorem back_setRtr (p : Nat) (x : Router) : (s.setRtr p x).back = s.back := (rfl)
@[simp] theorem cn_setRtr (p : Nat) (x : Router) : (s.setRtr p x).cn = s.cn := (rfl)
@[simp] theorem cnBack_setRtr (p : Nat) (x : Router) : (s.setRtr p x).cnBack = s.cnBack := (rfl)
@[simp] theorem liveOrder_setRtr (p : Nat) (x : Router) : (s.setRtr p x).liveOrder = s.liveOrder := (rfl)
@[simp] theorem liveBoard_setRtr (p : Nat) (x : Router) : (s.setRtr p x).liveBoard = s.liveBoard := (rfl)
@[simp] theorem liveWhich_setRtr (p : Nat) (x : Router) : (s.setRtr p x).liveWhich = s.liveWhich := (rfl)
@[simp] theorem liveCmd_setRtr (p : Nat) (x : Router) : (s.setRtr p x).liveCmd = s.liveCmd := (rfl)
@[simp] theorem stackStops_setRtr (p : Nat) (x : Router) : (s.setRtr p x).stackStops = s.stackStops := (rfl)
@[simp] theorem handover_setRtr (p : Nat) (x : Router) : (s.setRtr p x).handover = s.handover := (rfl)
@[simp] theorem handCmd_setRtr (p : Nat) (x : Router) : (s.setRtr p x).handCmd = s.handCmd := (rfl)
@[simp] theorem riskLog_setRtr (p : Nat) (x : Router) : (s.setRtr p x).riskLog = s.riskLog := (rfl)
@[simp] theorem riskBand_setRtr (p : Nat) (x : Router) : (s.setRtr p x).riskBand = s.riskBand := (rfl)
@[simp] theorem escParent_setRtr (p : Nat) (x : Router) : (s.setRtr p x).escParent = s.escParent := (rfl)
@[simp] theorem escW_setRtr (p : Nat) (x : Router) : (s.setRtr p x).escW = s.escW := (rfl)
@[simp] theorem pathLong_setRtr (p : Nat) (x : Router) : (s.setRtr p x).pathLong = s.pathLong := (rfl)
@[simp] theorem snFenced_setRtr (p : Nat) (x : Router) : (s.setRtr p x).snFenced = s.snFenced := (rfl)
@[simp] theorem bwAcc_setRtr (p : Nat) (x : Router) : (s.setRtr p x).bwAcc = s.bwAcc := (rfl)
@[simp] theorem reg_setRtr (p : Nat) (x : Router) (j : Nat) : (s.setRtr p x).reg j = s.reg j := (rfl)
@[simp] theorem core_setRtr (p : Nat) (x : Router) (j : Nat) : (s.setRtr p x).core j = s.core j := (rfl)
@[simp] theorem land_setRtr (p : Nat) (x : Router) (j : Nat) : (s.setRtr p x).land j = s.land j := (rfl)
@[simp] theorem bay_setRtr (p : Nat) (x : Router) (j : Nat) : (s.setRtr p x).bay j = s.bay j := (rfl)
@[simp] theorem board_setRtr (p : Nat) (x : Router) (j : Nat) : (s.setRtr p x).board j = s.board j := (rfl)
@[simp] theorem ret_setRtr (p : Nat) (x : Router) (j : Nat) : (s.setRtr p x).ret j = s.ret j := (rfl)

/-! ## setBoard -/

@[simp] theorem pending_setBoard (b : Nat) (x : Board) : (s.setBoard b x).pending = s.pending := (rfl)
@[simp] theorem freeCtr_setBoard (b : Nat) (x : Board) : (s.setBoard b x).freeCtr = s.freeCtr := (rfl)
@[simp] theorem time_setBoard (b : Nat) (x : Board) : (s.setBoard b x).time = s.time := (rfl)
@[simp] theorem regs_setBoard (b : Nat) (x : Board) : (s.setBoard b x).regs = s.regs := (rfl)
@[simp] theorem memPage_setBoard (b : Nat) (x : Board) : (s.setBoard b x).memPage = s.memPage := (rfl)
@[simp] theorem cores_setBoard (b : Nat) (x : Board) : (s.setBoard b x).cores = s.cores := (rfl)
@[simp] theorem routers_setBoard (b : Nat) (x : Board) : (s.setBoard b x).routers = s.routers := (rfl)
@[simp] theorem bays_setBoard (b : Nat) (x : Board) : (s.setBoard b x).bays = s.bays := (rfl)
@[simp] theorem lands_setBoard (b : Nat) (x : Board) : (s.setBoard b x).lands = s.lands := (rfl)
@[simp] theorem bars_setBoard (b : Nat) (x : Board) : (s.setBoard b x).bars = s.bars := (rfl)
@[simp] theorem barsSb_setBoard (b : Nat) (x : Board) : (s.setBoard b x).barsSb = s.barsSb := (rfl)
@[simp] theorem rootPos_setBoard (b : Nat) (x : Board) : (s.setBoard b x).rootPos = s.rootPos := (rfl)
@[simp] theorem rootPosSb_setBoard (b : Nat) (x : Board) : (s.setBoard b x).rootPosSb = s.rootPosSb := (rfl)
@[simp] theorem rootMark_setBoard (b : Nat) (x : Board) : (s.setBoard b x).rootMark = s.rootMark := (rfl)
@[simp] theorem sn_setBoard (b : Nat) (x : Board) : (s.setBoard b x).sn = s.sn := (rfl)
@[simp] theorem flights_setBoard (b : Nat) (x : Board) : (s.setBoard b x).flights = s.flights := (rfl)
@[simp] theorem rets_setBoard (b : Nat) (x : Board) : (s.setBoard b x).rets = s.rets := (rfl)
@[simp] theorem stack_setBoard (b : Nat) (x : Board) : (s.setBoard b x).stack = s.stack := (rfl)
@[simp] theorem ledEsc_setBoard (b : Nat) (x : Board) : (s.setBoard b x).ledEsc = s.ledEsc := (rfl)
@[simp] theorem joins_setBoard (b : Nat) (x : Board) : (s.setBoard b x).joins = s.joins := (rfl)
@[simp] theorem joinSet_setBoard (b : Nat) (x : Board) : (s.setBoard b x).joinSet = s.joinSet := (rfl)
@[simp] theorem job_setBoard (b : Nat) (x : Board) : (s.setBoard b x).job = s.job := (rfl)
@[simp] theorem active_setBoard (b : Nat) (x : Board) : (s.setBoard b x).active = s.active := (rfl)
@[simp] theorem posted_setBoard (b : Nat) (x : Board) : (s.setBoard b x).posted = s.posted := (rfl)
@[simp] theorem epochObjs_setBoard (b : Nat) (x : Board) : (s.setBoard b x).epochObjs = s.epochObjs := (rfl)
@[simp] theorem epochOf_setBoard (b : Nat) (x : Board) : (s.setBoard b x).epochOf = s.epochOf := (rfl)
@[simp] theorem evPending_setBoard (b : Nat) (x : Board) : (s.setBoard b x).evPending = s.evPending := (rfl)
@[simp] theorem evSeq_setBoard (b : Nat) (x : Board) : (s.setBoard b x).evSeq = s.evSeq := (rfl)
@[simp] theorem evLost_setBoard (b : Nat) (x : Board) : (s.setBoard b x).evLost = s.evLost := (rfl)
@[simp] theorem rep_setBoard (b : Nat) (x : Board) : (s.setBoard b x).rep = s.rep := (rfl)
@[simp] theorem inp_setBoard (b : Nat) (x : Board) : (s.setBoard b x).inp = s.inp := (rfl)
@[simp] theorem phase_setBoard (b : Nat) (x : Board) : (s.setBoard b x).phase = s.phase := (rfl)
@[simp] theorem readyUp_setBoard (b : Nat) (x : Board) : (s.setBoard b x).readyUp = s.readyUp := (rfl)
@[simp] theorem startFenced_setBoard (b : Nat) (x : Board) : (s.setBoard b x).startFenced = s.startFenced := (rfl)
@[simp] theorem startOuts_setBoard (b : Nat) (x : Board) : (s.setBoard b x).startOuts = s.startOuts := (rfl)
@[simp] theorem mpEsc_setBoard (b : Nat) (x : Board) : (s.setBoard b x).mpEsc = s.mpEsc := (rfl)
@[simp] theorem mpSeek_setBoard (b : Nat) (x : Board) : (s.setBoard b x).mpSeek = s.mpSeek := (rfl)
@[simp] theorem back_setBoard (b : Nat) (x : Board) : (s.setBoard b x).back = s.back := (rfl)
@[simp] theorem cn_setBoard (b : Nat) (x : Board) : (s.setBoard b x).cn = s.cn := (rfl)
@[simp] theorem cnBack_setBoard (b : Nat) (x : Board) : (s.setBoard b x).cnBack = s.cnBack := (rfl)
@[simp] theorem liveOrder_setBoard (b : Nat) (x : Board) : (s.setBoard b x).liveOrder = s.liveOrder := (rfl)
@[simp] theorem liveBoard_setBoard (b : Nat) (x : Board) : (s.setBoard b x).liveBoard = s.liveBoard := (rfl)
@[simp] theorem liveWhich_setBoard (b : Nat) (x : Board) : (s.setBoard b x).liveWhich = s.liveWhich := (rfl)
@[simp] theorem liveCmd_setBoard (b : Nat) (x : Board) : (s.setBoard b x).liveCmd = s.liveCmd := (rfl)
@[simp] theorem stackStops_setBoard (b : Nat) (x : Board) : (s.setBoard b x).stackStops = s.stackStops := (rfl)
@[simp] theorem handover_setBoard (b : Nat) (x : Board) : (s.setBoard b x).handover = s.handover := (rfl)
@[simp] theorem handCmd_setBoard (b : Nat) (x : Board) : (s.setBoard b x).handCmd = s.handCmd := (rfl)
@[simp] theorem riskLog_setBoard (b : Nat) (x : Board) : (s.setBoard b x).riskLog = s.riskLog := (rfl)
@[simp] theorem riskBand_setBoard (b : Nat) (x : Board) : (s.setBoard b x).riskBand = s.riskBand := (rfl)
@[simp] theorem escParent_setBoard (b : Nat) (x : Board) : (s.setBoard b x).escParent = s.escParent := (rfl)
@[simp] theorem escW_setBoard (b : Nat) (x : Board) : (s.setBoard b x).escW = s.escW := (rfl)
@[simp] theorem pathLong_setBoard (b : Nat) (x : Board) : (s.setBoard b x).pathLong = s.pathLong := (rfl)
@[simp] theorem snFenced_setBoard (b : Nat) (x : Board) : (s.setBoard b x).snFenced = s.snFenced := (rfl)
@[simp] theorem bwAcc_setBoard (b : Nat) (x : Board) : (s.setBoard b x).bwAcc = s.bwAcc := (rfl)
@[simp] theorem reg_setBoard (b : Nat) (x : Board) (j : Nat) : (s.setBoard b x).reg j = s.reg j := (rfl)
@[simp] theorem core_setBoard (b : Nat) (x : Board) (j : Nat) : (s.setBoard b x).core j = s.core j := (rfl)
@[simp] theorem land_setBoard (b : Nat) (x : Board) (j : Nat) : (s.setBoard b x).land j = s.land j := (rfl)
@[simp] theorem bay_setBoard (b : Nat) (x : Board) (j : Nat) : (s.setBoard b x).bay j = s.bay j := (rfl)
@[simp] theorem rtr_setBoard (b : Nat) (x : Board) (j : Nat) : (s.setBoard b x).rtr j = s.rtr j := (rfl)
@[simp] theorem ret_setBoard (b : Nat) (x : Board) (j : Nat) : (s.setBoard b x).ret j = s.ret j := (rfl)

/-! ## setRet -/

@[simp] theorem pending_setRet (h : Nat) (x : RetGirt) : (s.setRet h x).pending = s.pending := (rfl)
@[simp] theorem freeCtr_setRet (h : Nat) (x : RetGirt) : (s.setRet h x).freeCtr = s.freeCtr := (rfl)
@[simp] theorem time_setRet (h : Nat) (x : RetGirt) : (s.setRet h x).time = s.time := (rfl)
@[simp] theorem regs_setRet (h : Nat) (x : RetGirt) : (s.setRet h x).regs = s.regs := (rfl)
@[simp] theorem memPage_setRet (h : Nat) (x : RetGirt) : (s.setRet h x).memPage = s.memPage := (rfl)
@[simp] theorem cores_setRet (h : Nat) (x : RetGirt) : (s.setRet h x).cores = s.cores := (rfl)
@[simp] theorem routers_setRet (h : Nat) (x : RetGirt) : (s.setRet h x).routers = s.routers := (rfl)
@[simp] theorem bays_setRet (h : Nat) (x : RetGirt) : (s.setRet h x).bays = s.bays := (rfl)
@[simp] theorem lands_setRet (h : Nat) (x : RetGirt) : (s.setRet h x).lands = s.lands := (rfl)
@[simp] theorem bars_setRet (h : Nat) (x : RetGirt) : (s.setRet h x).bars = s.bars := (rfl)
@[simp] theorem barsSb_setRet (h : Nat) (x : RetGirt) : (s.setRet h x).barsSb = s.barsSb := (rfl)
@[simp] theorem rootPos_setRet (h : Nat) (x : RetGirt) : (s.setRet h x).rootPos = s.rootPos := (rfl)
@[simp] theorem rootPosSb_setRet (h : Nat) (x : RetGirt) : (s.setRet h x).rootPosSb = s.rootPosSb := (rfl)
@[simp] theorem rootMark_setRet (h : Nat) (x : RetGirt) : (s.setRet h x).rootMark = s.rootMark := (rfl)
@[simp] theorem sn_setRet (h : Nat) (x : RetGirt) : (s.setRet h x).sn = s.sn := (rfl)
@[simp] theorem flights_setRet (h : Nat) (x : RetGirt) : (s.setRet h x).flights = s.flights := (rfl)
@[simp] theorem stack_setRet (h : Nat) (x : RetGirt) : (s.setRet h x).stack = s.stack := (rfl)
@[simp] theorem ledEsc_setRet (h : Nat) (x : RetGirt) : (s.setRet h x).ledEsc = s.ledEsc := (rfl)
@[simp] theorem joins_setRet (h : Nat) (x : RetGirt) : (s.setRet h x).joins = s.joins := (rfl)
@[simp] theorem joinSet_setRet (h : Nat) (x : RetGirt) : (s.setRet h x).joinSet = s.joinSet := (rfl)
@[simp] theorem job_setRet (h : Nat) (x : RetGirt) : (s.setRet h x).job = s.job := (rfl)
@[simp] theorem boards_setRet (h : Nat) (x : RetGirt) : (s.setRet h x).boards = s.boards := (rfl)
@[simp] theorem active_setRet (h : Nat) (x : RetGirt) : (s.setRet h x).active = s.active := (rfl)
@[simp] theorem posted_setRet (h : Nat) (x : RetGirt) : (s.setRet h x).posted = s.posted := (rfl)
@[simp] theorem epochObjs_setRet (h : Nat) (x : RetGirt) : (s.setRet h x).epochObjs = s.epochObjs := (rfl)
@[simp] theorem epochOf_setRet (h : Nat) (x : RetGirt) : (s.setRet h x).epochOf = s.epochOf := (rfl)
@[simp] theorem evPending_setRet (h : Nat) (x : RetGirt) : (s.setRet h x).evPending = s.evPending := (rfl)
@[simp] theorem evSeq_setRet (h : Nat) (x : RetGirt) : (s.setRet h x).evSeq = s.evSeq := (rfl)
@[simp] theorem evLost_setRet (h : Nat) (x : RetGirt) : (s.setRet h x).evLost = s.evLost := (rfl)
@[simp] theorem rep_setRet (h : Nat) (x : RetGirt) : (s.setRet h x).rep = s.rep := (rfl)
@[simp] theorem inp_setRet (h : Nat) (x : RetGirt) : (s.setRet h x).inp = s.inp := (rfl)
@[simp] theorem phase_setRet (h : Nat) (x : RetGirt) : (s.setRet h x).phase = s.phase := (rfl)
@[simp] theorem readyUp_setRet (h : Nat) (x : RetGirt) : (s.setRet h x).readyUp = s.readyUp := (rfl)
@[simp] theorem startFenced_setRet (h : Nat) (x : RetGirt) : (s.setRet h x).startFenced = s.startFenced := (rfl)
@[simp] theorem startOuts_setRet (h : Nat) (x : RetGirt) : (s.setRet h x).startOuts = s.startOuts := (rfl)
@[simp] theorem mpEsc_setRet (h : Nat) (x : RetGirt) : (s.setRet h x).mpEsc = s.mpEsc := (rfl)
@[simp] theorem mpSeek_setRet (h : Nat) (x : RetGirt) : (s.setRet h x).mpSeek = s.mpSeek := (rfl)
@[simp] theorem back_setRet (h : Nat) (x : RetGirt) : (s.setRet h x).back = s.back := (rfl)
@[simp] theorem cn_setRet (h : Nat) (x : RetGirt) : (s.setRet h x).cn = s.cn := (rfl)
@[simp] theorem cnBack_setRet (h : Nat) (x : RetGirt) : (s.setRet h x).cnBack = s.cnBack := (rfl)
@[simp] theorem liveOrder_setRet (h : Nat) (x : RetGirt) : (s.setRet h x).liveOrder = s.liveOrder := (rfl)
@[simp] theorem liveBoard_setRet (h : Nat) (x : RetGirt) : (s.setRet h x).liveBoard = s.liveBoard := (rfl)
@[simp] theorem liveWhich_setRet (h : Nat) (x : RetGirt) : (s.setRet h x).liveWhich = s.liveWhich := (rfl)
@[simp] theorem liveCmd_setRet (h : Nat) (x : RetGirt) : (s.setRet h x).liveCmd = s.liveCmd := (rfl)
@[simp] theorem stackStops_setRet (h : Nat) (x : RetGirt) : (s.setRet h x).stackStops = s.stackStops := (rfl)
@[simp] theorem handover_setRet (h : Nat) (x : RetGirt) : (s.setRet h x).handover = s.handover := (rfl)
@[simp] theorem handCmd_setRet (h : Nat) (x : RetGirt) : (s.setRet h x).handCmd = s.handCmd := (rfl)
@[simp] theorem riskLog_setRet (h : Nat) (x : RetGirt) : (s.setRet h x).riskLog = s.riskLog := (rfl)
@[simp] theorem riskBand_setRet (h : Nat) (x : RetGirt) : (s.setRet h x).riskBand = s.riskBand := (rfl)
@[simp] theorem escParent_setRet (h : Nat) (x : RetGirt) : (s.setRet h x).escParent = s.escParent := (rfl)
@[simp] theorem escW_setRet (h : Nat) (x : RetGirt) : (s.setRet h x).escW = s.escW := (rfl)
@[simp] theorem pathLong_setRet (h : Nat) (x : RetGirt) : (s.setRet h x).pathLong = s.pathLong := (rfl)
@[simp] theorem snFenced_setRet (h : Nat) (x : RetGirt) : (s.setRet h x).snFenced = s.snFenced := (rfl)
@[simp] theorem bwAcc_setRet (h : Nat) (x : RetGirt) : (s.setRet h x).bwAcc = s.bwAcc := (rfl)
@[simp] theorem reg_setRet (h : Nat) (x : RetGirt) (j : Nat) : (s.setRet h x).reg j = s.reg j := (rfl)
@[simp] theorem core_setRet (h : Nat) (x : RetGirt) (j : Nat) : (s.setRet h x).core j = s.core j := (rfl)
@[simp] theorem land_setRet (h : Nat) (x : RetGirt) (j : Nat) : (s.setRet h x).land j = s.land j := (rfl)
@[simp] theorem bay_setRet (h : Nat) (x : RetGirt) (j : Nat) : (s.setRet h x).bay j = s.bay j := (rfl)
@[simp] theorem rtr_setRet (h : Nat) (x : RetGirt) (j : Nat) : (s.setRet h x).rtr j = s.rtr j := (rfl)
@[simp] theorem board_setRet (h : Nat) (x : RetGirt) (j : Nat) : (s.setRet h x).board j = s.board j := (rfl)

/-! ## onJob -/

@[simp] theorem pending_onJob (f : Job → Job) : (s.onJob f).pending = s.pending := (rfl)
@[simp] theorem freeCtr_onJob (f : Job → Job) : (s.onJob f).freeCtr = s.freeCtr := (rfl)
@[simp] theorem time_onJob (f : Job → Job) : (s.onJob f).time = s.time := (rfl)
@[simp] theorem regs_onJob (f : Job → Job) : (s.onJob f).regs = s.regs := (rfl)
@[simp] theorem memPage_onJob (f : Job → Job) : (s.onJob f).memPage = s.memPage := (rfl)
@[simp] theorem cores_onJob (f : Job → Job) : (s.onJob f).cores = s.cores := (rfl)
@[simp] theorem routers_onJob (f : Job → Job) : (s.onJob f).routers = s.routers := (rfl)
@[simp] theorem bays_onJob (f : Job → Job) : (s.onJob f).bays = s.bays := (rfl)
@[simp] theorem lands_onJob (f : Job → Job) : (s.onJob f).lands = s.lands := (rfl)
@[simp] theorem bars_onJob (f : Job → Job) : (s.onJob f).bars = s.bars := (rfl)
@[simp] theorem barsSb_onJob (f : Job → Job) : (s.onJob f).barsSb = s.barsSb := (rfl)
@[simp] theorem rootPos_onJob (f : Job → Job) : (s.onJob f).rootPos = s.rootPos := (rfl)
@[simp] theorem rootPosSb_onJob (f : Job → Job) : (s.onJob f).rootPosSb = s.rootPosSb := (rfl)
@[simp] theorem rootMark_onJob (f : Job → Job) : (s.onJob f).rootMark = s.rootMark := (rfl)
@[simp] theorem sn_onJob (f : Job → Job) : (s.onJob f).sn = s.sn := (rfl)
@[simp] theorem flights_onJob (f : Job → Job) : (s.onJob f).flights = s.flights := (rfl)
@[simp] theorem rets_onJob (f : Job → Job) : (s.onJob f).rets = s.rets := (rfl)
@[simp] theorem stack_onJob (f : Job → Job) : (s.onJob f).stack = s.stack := (rfl)
@[simp] theorem ledEsc_onJob (f : Job → Job) : (s.onJob f).ledEsc = s.ledEsc := (rfl)
@[simp] theorem joins_onJob (f : Job → Job) : (s.onJob f).joins = s.joins := (rfl)
@[simp] theorem joinSet_onJob (f : Job → Job) : (s.onJob f).joinSet = s.joinSet := (rfl)
@[simp] theorem boards_onJob (f : Job → Job) : (s.onJob f).boards = s.boards := (rfl)
@[simp] theorem active_onJob (f : Job → Job) : (s.onJob f).active = s.active := (rfl)
@[simp] theorem posted_onJob (f : Job → Job) : (s.onJob f).posted = s.posted := (rfl)
@[simp] theorem epochObjs_onJob (f : Job → Job) : (s.onJob f).epochObjs = s.epochObjs := (rfl)
@[simp] theorem epochOf_onJob (f : Job → Job) : (s.onJob f).epochOf = s.epochOf := (rfl)
@[simp] theorem evPending_onJob (f : Job → Job) : (s.onJob f).evPending = s.evPending := (rfl)
@[simp] theorem evSeq_onJob (f : Job → Job) : (s.onJob f).evSeq = s.evSeq := (rfl)
@[simp] theorem evLost_onJob (f : Job → Job) : (s.onJob f).evLost = s.evLost := (rfl)
@[simp] theorem rep_onJob (f : Job → Job) : (s.onJob f).rep = s.rep := (rfl)
@[simp] theorem inp_onJob (f : Job → Job) : (s.onJob f).inp = s.inp := (rfl)
@[simp] theorem phase_onJob (f : Job → Job) : (s.onJob f).phase = s.phase := (rfl)
@[simp] theorem readyUp_onJob (f : Job → Job) : (s.onJob f).readyUp = s.readyUp := (rfl)
@[simp] theorem startFenced_onJob (f : Job → Job) : (s.onJob f).startFenced = s.startFenced := (rfl)
@[simp] theorem startOuts_onJob (f : Job → Job) : (s.onJob f).startOuts = s.startOuts := (rfl)
@[simp] theorem mpEsc_onJob (f : Job → Job) : (s.onJob f).mpEsc = s.mpEsc := (rfl)
@[simp] theorem mpSeek_onJob (f : Job → Job) : (s.onJob f).mpSeek = s.mpSeek := (rfl)
@[simp] theorem back_onJob (f : Job → Job) : (s.onJob f).back = s.back := (rfl)
@[simp] theorem cn_onJob (f : Job → Job) : (s.onJob f).cn = s.cn := (rfl)
@[simp] theorem cnBack_onJob (f : Job → Job) : (s.onJob f).cnBack = s.cnBack := (rfl)
@[simp] theorem liveOrder_onJob (f : Job → Job) : (s.onJob f).liveOrder = s.liveOrder := (rfl)
@[simp] theorem liveBoard_onJob (f : Job → Job) : (s.onJob f).liveBoard = s.liveBoard := (rfl)
@[simp] theorem liveWhich_onJob (f : Job → Job) : (s.onJob f).liveWhich = s.liveWhich := (rfl)
@[simp] theorem liveCmd_onJob (f : Job → Job) : (s.onJob f).liveCmd = s.liveCmd := (rfl)
@[simp] theorem stackStops_onJob (f : Job → Job) : (s.onJob f).stackStops = s.stackStops := (rfl)
@[simp] theorem handover_onJob (f : Job → Job) : (s.onJob f).handover = s.handover := (rfl)
@[simp] theorem handCmd_onJob (f : Job → Job) : (s.onJob f).handCmd = s.handCmd := (rfl)
@[simp] theorem riskLog_onJob (f : Job → Job) : (s.onJob f).riskLog = s.riskLog := (rfl)
@[simp] theorem riskBand_onJob (f : Job → Job) : (s.onJob f).riskBand = s.riskBand := (rfl)
@[simp] theorem escParent_onJob (f : Job → Job) : (s.onJob f).escParent = s.escParent := (rfl)
@[simp] theorem escW_onJob (f : Job → Job) : (s.onJob f).escW = s.escW := (rfl)
@[simp] theorem pathLong_onJob (f : Job → Job) : (s.onJob f).pathLong = s.pathLong := (rfl)
@[simp] theorem snFenced_onJob (f : Job → Job) : (s.onJob f).snFenced = s.snFenced := (rfl)
@[simp] theorem bwAcc_onJob (f : Job → Job) : (s.onJob f).bwAcc = s.bwAcc := (rfl)
@[simp] theorem reg_onJob (f : Job → Job) (j : Nat) : (s.onJob f).reg j = s.reg j := (rfl)
@[simp] theorem core_onJob (f : Job → Job) (j : Nat) : (s.onJob f).core j = s.core j := (rfl)
@[simp] theorem land_onJob (f : Job → Job) (j : Nat) : (s.onJob f).land j = s.land j := (rfl)
@[simp] theorem bay_onJob (f : Job → Job) (j : Nat) : (s.onJob f).bay j = s.bay j := (rfl)
@[simp] theorem rtr_onJob (f : Job → Job) (j : Nat) : (s.onJob f).rtr j = s.rtr j := (rfl)
@[simp] theorem board_onJob (f : Job → Job) (j : Nat) : (s.onJob f).board j = s.board j := (rfl)
@[simp] theorem ret_onJob (f : Job → Job) (j : Nat) : (s.onJob f).ret j = s.ret j := (rfl)

@[simp] theorem job_onJob (f : Job → Job) : (s.onJob f).job = f s.job := rfl

/-! ## Reads after writes -/

theorem reg_setReg (a j : Nat) (v : W32) : (s.setReg a v).reg j = if j = a then v else s.reg j := by
  unfold State.reg State.setReg
  simp only [SMap.set]
  by_cases h : j = a
  · subst h; split
    · next hv => simp [SMap.get_del, hv]
    · simp [SMap.get_ins]
  · split <;> simp [SMap.get_del, SMap.get_ins, h]
@[simp] theorem reg_setReg_same (k : Nat) (x : W32) : (s.setReg k x).reg k = x := by simp [reg_setReg]
theorem reg_setReg_ne {k j : Nat} (x : W32) (h : j ≠ k) : (s.setReg k x).reg j = s.reg j := by simp [reg_setReg, h]
theorem core_setCore (k j : Nat) (x : Core) : (s.setCore k x).core j = if j = k then x else s.core j := by simp [State.core, State.setCore, SMap.get_set]
@[simp] theorem core_setCore_same (k : Nat) (x : Core) : (s.setCore k x).core k = x := by simp [core_setCore]
theorem core_setCore_ne {k j : Nat} (x : Core) (h : j ≠ k) : (s.setCore k x).core j = s.core j := by simp [core_setCore, h]
theorem land_setLand (k j : Nat) (x : Landing) : (s.setLand k x).land j = if j = k then x else s.land j := by simp [State.land, State.setLand, SMap.get_set]
@[simp] theorem land_setLand_same (k : Nat) (x : Landing) : (s.setLand k x).land k = x := by simp [land_setLand]
theorem land_setLand_ne {k j : Nat} (x : Landing) (h : j ≠ k) : (s.setLand k x).land j = s.land j := by simp [land_setLand, h]
theorem bay_setBay (k j : Nat) (x : Bay) : (s.setBay k x).bay j = if j = k then x else s.bay j := by simp [State.bay, State.setBay, SMap.get_set]
@[simp] theorem bay_setBay_same (k : Nat) (x : Bay) : (s.setBay k x).bay k = x := by simp [bay_setBay]
theorem bay_setBay_ne {k j : Nat} (x : Bay) (h : j ≠ k) : (s.setBay k x).bay j = s.bay j := by simp [bay_setBay, h]
theorem rtr_setRtr (k j : Nat) (x : Router) : (s.setRtr k x).rtr j = if j = k then x else s.rtr j := by simp [State.rtr, State.setRtr, SMap.get_set]
@[simp] theorem rtr_setRtr_same (k : Nat) (x : Router) : (s.setRtr k x).rtr k = x := by simp [rtr_setRtr]
theorem rtr_setRtr_ne {k j : Nat} (x : Router) (h : j ≠ k) : (s.setRtr k x).rtr j = s.rtr j := by simp [rtr_setRtr, h]
theorem board_setBoard (k j : Nat) (x : Board) : (s.setBoard k x).board j = if j = k then x else s.board j := by simp [State.board, State.setBoard, SMap.get_set]
@[simp] theorem board_setBoard_same (k : Nat) (x : Board) : (s.setBoard k x).board k = x := by simp [board_setBoard]
theorem board_setBoard_ne {k j : Nat} (x : Board) (h : j ≠ k) : (s.setBoard k x).board j = s.board j := by simp [board_setBoard, h]
theorem ret_setRet (k j : Nat) (x : RetGirt) : (s.setRet k x).ret j = if j = k then x else s.ret j := by simp [State.ret, State.setRet, SMap.get_set]
@[simp] theorem ret_setRet_same (k : Nat) (x : RetGirt) : (s.setRet k x).ret k = x := by simp [ret_setRet]
theorem ret_setRet_ne {k j : Nat} (x : RetGirt) (h : j ≠ k) : (s.setRet k x).ret j = s.ret j := by simp [ret_setRet, h]

@[simp] theorem core_onCore_same (k : Nat) (f : Core → Core) : (s.onCore k f).core k = f (s.core k) := by simp [State.onCore]
theorem core_onCore_ne {k j : Nat} (f : Core → Core) (h : j ≠ k) : (s.onCore k f).core j = s.core j := by simp [State.onCore, core_setCore, h]
@[simp] theorem pending_onCore (k : Nat) (f : Core → Core) : (s.onCore k f).pending = s.pending := (rfl)
@[simp] theorem freeCtr_onCore (k : Nat) (f : Core → Core) : (s.onCore k f).freeCtr = s.freeCtr := (rfl)
@[simp] theorem time_onCore (k : Nat) (f : Core → Core) : (s.onCore k f).time = s.time := (rfl)
@[simp] theorem regs_onCore (k : Nat) (f : Core → Core) : (s.onCore k f).regs = s.regs := (rfl)
@[simp] theorem memPage_onCore (k : Nat) (f : Core → Core) : (s.onCore k f).memPage = s.memPage := (rfl)
@[simp] theorem routers_onCore (k : Nat) (f : Core → Core) : (s.onCore k f).routers = s.routers := (rfl)
@[simp] theorem bays_onCore (k : Nat) (f : Core → Core) : (s.onCore k f).bays = s.bays := (rfl)
@[simp] theorem lands_onCore (k : Nat) (f : Core → Core) : (s.onCore k f).lands = s.lands := (rfl)
@[simp] theorem bars_onCore (k : Nat) (f : Core → Core) : (s.onCore k f).bars = s.bars := (rfl)
@[simp] theorem barsSb_onCore (k : Nat) (f : Core → Core) : (s.onCore k f).barsSb = s.barsSb := (rfl)
@[simp] theorem rootPos_onCore (k : Nat) (f : Core → Core) : (s.onCore k f).rootPos = s.rootPos := (rfl)
@[simp] theorem rootPosSb_onCore (k : Nat) (f : Core → Core) : (s.onCore k f).rootPosSb = s.rootPosSb := (rfl)
@[simp] theorem rootMark_onCore (k : Nat) (f : Core → Core) : (s.onCore k f).rootMark = s.rootMark := (rfl)
@[simp] theorem sn_onCore (k : Nat) (f : Core → Core) : (s.onCore k f).sn = s.sn := (rfl)
@[simp] theorem flights_onCore (k : Nat) (f : Core → Core) : (s.onCore k f).flights = s.flights := (rfl)
@[simp] theorem rets_onCore (k : Nat) (f : Core → Core) : (s.onCore k f).rets = s.rets := (rfl)
@[simp] theorem stack_onCore (k : Nat) (f : Core → Core) : (s.onCore k f).stack = s.stack := (rfl)
@[simp] theorem ledEsc_onCore (k : Nat) (f : Core → Core) : (s.onCore k f).ledEsc = s.ledEsc := (rfl)
@[simp] theorem joins_onCore (k : Nat) (f : Core → Core) : (s.onCore k f).joins = s.joins := (rfl)
@[simp] theorem joinSet_onCore (k : Nat) (f : Core → Core) : (s.onCore k f).joinSet = s.joinSet := (rfl)
@[simp] theorem job_onCore (k : Nat) (f : Core → Core) : (s.onCore k f).job = s.job := (rfl)
@[simp] theorem boards_onCore (k : Nat) (f : Core → Core) : (s.onCore k f).boards = s.boards := (rfl)
@[simp] theorem active_onCore (k : Nat) (f : Core → Core) : (s.onCore k f).active = s.active := (rfl)
@[simp] theorem posted_onCore (k : Nat) (f : Core → Core) : (s.onCore k f).posted = s.posted := (rfl)
@[simp] theorem epochObjs_onCore (k : Nat) (f : Core → Core) : (s.onCore k f).epochObjs = s.epochObjs := (rfl)
@[simp] theorem epochOf_onCore (k : Nat) (f : Core → Core) : (s.onCore k f).epochOf = s.epochOf := (rfl)
@[simp] theorem evPending_onCore (k : Nat) (f : Core → Core) : (s.onCore k f).evPending = s.evPending := (rfl)
@[simp] theorem evSeq_onCore (k : Nat) (f : Core → Core) : (s.onCore k f).evSeq = s.evSeq := (rfl)
@[simp] theorem evLost_onCore (k : Nat) (f : Core → Core) : (s.onCore k f).evLost = s.evLost := (rfl)
@[simp] theorem rep_onCore (k : Nat) (f : Core → Core) : (s.onCore k f).rep = s.rep := (rfl)
@[simp] theorem inp_onCore (k : Nat) (f : Core → Core) : (s.onCore k f).inp = s.inp := (rfl)
@[simp] theorem phase_onCore (k : Nat) (f : Core → Core) : (s.onCore k f).phase = s.phase := (rfl)
@[simp] theorem readyUp_onCore (k : Nat) (f : Core → Core) : (s.onCore k f).readyUp = s.readyUp := (rfl)
@[simp] theorem startFenced_onCore (k : Nat) (f : Core → Core) : (s.onCore k f).startFenced = s.startFenced := (rfl)
@[simp] theorem startOuts_onCore (k : Nat) (f : Core → Core) : (s.onCore k f).startOuts = s.startOuts := (rfl)
@[simp] theorem mpEsc_onCore (k : Nat) (f : Core → Core) : (s.onCore k f).mpEsc = s.mpEsc := (rfl)
@[simp] theorem mpSeek_onCore (k : Nat) (f : Core → Core) : (s.onCore k f).mpSeek = s.mpSeek := (rfl)
@[simp] theorem back_onCore (k : Nat) (f : Core → Core) : (s.onCore k f).back = s.back := (rfl)
@[simp] theorem cn_onCore (k : Nat) (f : Core → Core) : (s.onCore k f).cn = s.cn := (rfl)
@[simp] theorem cnBack_onCore (k : Nat) (f : Core → Core) : (s.onCore k f).cnBack = s.cnBack := (rfl)
@[simp] theorem liveOrder_onCore (k : Nat) (f : Core → Core) : (s.onCore k f).liveOrder = s.liveOrder := (rfl)
@[simp] theorem liveBoard_onCore (k : Nat) (f : Core → Core) : (s.onCore k f).liveBoard = s.liveBoard := (rfl)
@[simp] theorem liveWhich_onCore (k : Nat) (f : Core → Core) : (s.onCore k f).liveWhich = s.liveWhich := (rfl)
@[simp] theorem liveCmd_onCore (k : Nat) (f : Core → Core) : (s.onCore k f).liveCmd = s.liveCmd := (rfl)
@[simp] theorem stackStops_onCore (k : Nat) (f : Core → Core) : (s.onCore k f).stackStops = s.stackStops := (rfl)
@[simp] theorem handover_onCore (k : Nat) (f : Core → Core) : (s.onCore k f).handover = s.handover := (rfl)
@[simp] theorem handCmd_onCore (k : Nat) (f : Core → Core) : (s.onCore k f).handCmd = s.handCmd := (rfl)
@[simp] theorem riskLog_onCore (k : Nat) (f : Core → Core) : (s.onCore k f).riskLog = s.riskLog := (rfl)
@[simp] theorem riskBand_onCore (k : Nat) (f : Core → Core) : (s.onCore k f).riskBand = s.riskBand := (rfl)
@[simp] theorem escParent_onCore (k : Nat) (f : Core → Core) : (s.onCore k f).escParent = s.escParent := (rfl)
@[simp] theorem escW_onCore (k : Nat) (f : Core → Core) : (s.onCore k f).escW = s.escW := (rfl)
@[simp] theorem pathLong_onCore (k : Nat) (f : Core → Core) : (s.onCore k f).pathLong = s.pathLong := (rfl)
@[simp] theorem snFenced_onCore (k : Nat) (f : Core → Core) : (s.onCore k f).snFenced = s.snFenced := (rfl)
@[simp] theorem bwAcc_onCore (k : Nat) (f : Core → Core) : (s.onCore k f).bwAcc = s.bwAcc := (rfl)
@[simp] theorem reg_onCore (k : Nat) (f : Core → Core) (j : Nat) : (s.onCore k f).reg j = s.reg j := (rfl)
@[simp] theorem land_onCore (k : Nat) (f : Core → Core) (j : Nat) : (s.onCore k f).land j = s.land j := (rfl)
@[simp] theorem bay_onCore (k : Nat) (f : Core → Core) (j : Nat) : (s.onCore k f).bay j = s.bay j := (rfl)
@[simp] theorem rtr_onCore (k : Nat) (f : Core → Core) (j : Nat) : (s.onCore k f).rtr j = s.rtr j := (rfl)
@[simp] theorem board_onCore (k : Nat) (f : Core → Core) (j : Nat) : (s.onCore k f).board j = s.board j := (rfl)
@[simp] theorem ret_onCore (k : Nat) (f : Core → Core) (j : Nat) : (s.onCore k f).ret j = s.ret j := (rfl)

@[simp] theorem land_onLand_same (k : Nat) (f : Landing → Landing) : (s.onLand k f).land k = f (s.land k) := by simp [State.onLand]
theorem land_onLand_ne {k j : Nat} (f : Landing → Landing) (h : j ≠ k) : (s.onLand k f).land j = s.land j := by simp [State.onLand, land_setLand, h]
@[simp] theorem pending_onLand (k : Nat) (f : Landing → Landing) : (s.onLand k f).pending = s.pending := (rfl)
@[simp] theorem freeCtr_onLand (k : Nat) (f : Landing → Landing) : (s.onLand k f).freeCtr = s.freeCtr := (rfl)
@[simp] theorem time_onLand (k : Nat) (f : Landing → Landing) : (s.onLand k f).time = s.time := (rfl)
@[simp] theorem regs_onLand (k : Nat) (f : Landing → Landing) : (s.onLand k f).regs = s.regs := (rfl)
@[simp] theorem memPage_onLand (k : Nat) (f : Landing → Landing) : (s.onLand k f).memPage = s.memPage := (rfl)
@[simp] theorem cores_onLand (k : Nat) (f : Landing → Landing) : (s.onLand k f).cores = s.cores := (rfl)
@[simp] theorem routers_onLand (k : Nat) (f : Landing → Landing) : (s.onLand k f).routers = s.routers := (rfl)
@[simp] theorem bays_onLand (k : Nat) (f : Landing → Landing) : (s.onLand k f).bays = s.bays := (rfl)
@[simp] theorem bars_onLand (k : Nat) (f : Landing → Landing) : (s.onLand k f).bars = s.bars := (rfl)
@[simp] theorem barsSb_onLand (k : Nat) (f : Landing → Landing) : (s.onLand k f).barsSb = s.barsSb := (rfl)
@[simp] theorem rootPos_onLand (k : Nat) (f : Landing → Landing) : (s.onLand k f).rootPos = s.rootPos := (rfl)
@[simp] theorem rootPosSb_onLand (k : Nat) (f : Landing → Landing) : (s.onLand k f).rootPosSb = s.rootPosSb := (rfl)
@[simp] theorem rootMark_onLand (k : Nat) (f : Landing → Landing) : (s.onLand k f).rootMark = s.rootMark := (rfl)
@[simp] theorem sn_onLand (k : Nat) (f : Landing → Landing) : (s.onLand k f).sn = s.sn := (rfl)
@[simp] theorem flights_onLand (k : Nat) (f : Landing → Landing) : (s.onLand k f).flights = s.flights := (rfl)
@[simp] theorem rets_onLand (k : Nat) (f : Landing → Landing) : (s.onLand k f).rets = s.rets := (rfl)
@[simp] theorem stack_onLand (k : Nat) (f : Landing → Landing) : (s.onLand k f).stack = s.stack := (rfl)
@[simp] theorem ledEsc_onLand (k : Nat) (f : Landing → Landing) : (s.onLand k f).ledEsc = s.ledEsc := (rfl)
@[simp] theorem joins_onLand (k : Nat) (f : Landing → Landing) : (s.onLand k f).joins = s.joins := (rfl)
@[simp] theorem joinSet_onLand (k : Nat) (f : Landing → Landing) : (s.onLand k f).joinSet = s.joinSet := (rfl)
@[simp] theorem job_onLand (k : Nat) (f : Landing → Landing) : (s.onLand k f).job = s.job := (rfl)
@[simp] theorem boards_onLand (k : Nat) (f : Landing → Landing) : (s.onLand k f).boards = s.boards := (rfl)
@[simp] theorem active_onLand (k : Nat) (f : Landing → Landing) : (s.onLand k f).active = s.active := (rfl)
@[simp] theorem posted_onLand (k : Nat) (f : Landing → Landing) : (s.onLand k f).posted = s.posted := (rfl)
@[simp] theorem epochObjs_onLand (k : Nat) (f : Landing → Landing) : (s.onLand k f).epochObjs = s.epochObjs := (rfl)
@[simp] theorem epochOf_onLand (k : Nat) (f : Landing → Landing) : (s.onLand k f).epochOf = s.epochOf := (rfl)
@[simp] theorem evPending_onLand (k : Nat) (f : Landing → Landing) : (s.onLand k f).evPending = s.evPending := (rfl)
@[simp] theorem evSeq_onLand (k : Nat) (f : Landing → Landing) : (s.onLand k f).evSeq = s.evSeq := (rfl)
@[simp] theorem evLost_onLand (k : Nat) (f : Landing → Landing) : (s.onLand k f).evLost = s.evLost := (rfl)
@[simp] theorem rep_onLand (k : Nat) (f : Landing → Landing) : (s.onLand k f).rep = s.rep := (rfl)
@[simp] theorem inp_onLand (k : Nat) (f : Landing → Landing) : (s.onLand k f).inp = s.inp := (rfl)
@[simp] theorem phase_onLand (k : Nat) (f : Landing → Landing) : (s.onLand k f).phase = s.phase := (rfl)
@[simp] theorem readyUp_onLand (k : Nat) (f : Landing → Landing) : (s.onLand k f).readyUp = s.readyUp := (rfl)
@[simp] theorem startFenced_onLand (k : Nat) (f : Landing → Landing) : (s.onLand k f).startFenced = s.startFenced := (rfl)
@[simp] theorem startOuts_onLand (k : Nat) (f : Landing → Landing) : (s.onLand k f).startOuts = s.startOuts := (rfl)
@[simp] theorem mpEsc_onLand (k : Nat) (f : Landing → Landing) : (s.onLand k f).mpEsc = s.mpEsc := (rfl)
@[simp] theorem mpSeek_onLand (k : Nat) (f : Landing → Landing) : (s.onLand k f).mpSeek = s.mpSeek := (rfl)
@[simp] theorem back_onLand (k : Nat) (f : Landing → Landing) : (s.onLand k f).back = s.back := (rfl)
@[simp] theorem cn_onLand (k : Nat) (f : Landing → Landing) : (s.onLand k f).cn = s.cn := (rfl)
@[simp] theorem cnBack_onLand (k : Nat) (f : Landing → Landing) : (s.onLand k f).cnBack = s.cnBack := (rfl)
@[simp] theorem liveOrder_onLand (k : Nat) (f : Landing → Landing) : (s.onLand k f).liveOrder = s.liveOrder := (rfl)
@[simp] theorem liveBoard_onLand (k : Nat) (f : Landing → Landing) : (s.onLand k f).liveBoard = s.liveBoard := (rfl)
@[simp] theorem liveWhich_onLand (k : Nat) (f : Landing → Landing) : (s.onLand k f).liveWhich = s.liveWhich := (rfl)
@[simp] theorem liveCmd_onLand (k : Nat) (f : Landing → Landing) : (s.onLand k f).liveCmd = s.liveCmd := (rfl)
@[simp] theorem stackStops_onLand (k : Nat) (f : Landing → Landing) : (s.onLand k f).stackStops = s.stackStops := (rfl)
@[simp] theorem handover_onLand (k : Nat) (f : Landing → Landing) : (s.onLand k f).handover = s.handover := (rfl)
@[simp] theorem handCmd_onLand (k : Nat) (f : Landing → Landing) : (s.onLand k f).handCmd = s.handCmd := (rfl)
@[simp] theorem riskLog_onLand (k : Nat) (f : Landing → Landing) : (s.onLand k f).riskLog = s.riskLog := (rfl)
@[simp] theorem riskBand_onLand (k : Nat) (f : Landing → Landing) : (s.onLand k f).riskBand = s.riskBand := (rfl)
@[simp] theorem escParent_onLand (k : Nat) (f : Landing → Landing) : (s.onLand k f).escParent = s.escParent := (rfl)
@[simp] theorem escW_onLand (k : Nat) (f : Landing → Landing) : (s.onLand k f).escW = s.escW := (rfl)
@[simp] theorem pathLong_onLand (k : Nat) (f : Landing → Landing) : (s.onLand k f).pathLong = s.pathLong := (rfl)
@[simp] theorem snFenced_onLand (k : Nat) (f : Landing → Landing) : (s.onLand k f).snFenced = s.snFenced := (rfl)
@[simp] theorem bwAcc_onLand (k : Nat) (f : Landing → Landing) : (s.onLand k f).bwAcc = s.bwAcc := (rfl)
@[simp] theorem reg_onLand (k : Nat) (f : Landing → Landing) (j : Nat) : (s.onLand k f).reg j = s.reg j := (rfl)
@[simp] theorem core_onLand (k : Nat) (f : Landing → Landing) (j : Nat) : (s.onLand k f).core j = s.core j := (rfl)
@[simp] theorem bay_onLand (k : Nat) (f : Landing → Landing) (j : Nat) : (s.onLand k f).bay j = s.bay j := (rfl)
@[simp] theorem rtr_onLand (k : Nat) (f : Landing → Landing) (j : Nat) : (s.onLand k f).rtr j = s.rtr j := (rfl)
@[simp] theorem board_onLand (k : Nat) (f : Landing → Landing) (j : Nat) : (s.onLand k f).board j = s.board j := (rfl)
@[simp] theorem ret_onLand (k : Nat) (f : Landing → Landing) (j : Nat) : (s.onLand k f).ret j = s.ret j := (rfl)

@[simp] theorem bay_onBay_same (k : Nat) (f : Bay → Bay) : (s.onBay k f).bay k = f (s.bay k) := by simp [State.onBay]
theorem bay_onBay_ne {k j : Nat} (f : Bay → Bay) (h : j ≠ k) : (s.onBay k f).bay j = s.bay j := by simp [State.onBay, bay_setBay, h]
@[simp] theorem pending_onBay (k : Nat) (f : Bay → Bay) : (s.onBay k f).pending = s.pending := (rfl)
@[simp] theorem freeCtr_onBay (k : Nat) (f : Bay → Bay) : (s.onBay k f).freeCtr = s.freeCtr := (rfl)
@[simp] theorem time_onBay (k : Nat) (f : Bay → Bay) : (s.onBay k f).time = s.time := (rfl)
@[simp] theorem regs_onBay (k : Nat) (f : Bay → Bay) : (s.onBay k f).regs = s.regs := (rfl)
@[simp] theorem memPage_onBay (k : Nat) (f : Bay → Bay) : (s.onBay k f).memPage = s.memPage := (rfl)
@[simp] theorem cores_onBay (k : Nat) (f : Bay → Bay) : (s.onBay k f).cores = s.cores := (rfl)
@[simp] theorem routers_onBay (k : Nat) (f : Bay → Bay) : (s.onBay k f).routers = s.routers := (rfl)
@[simp] theorem lands_onBay (k : Nat) (f : Bay → Bay) : (s.onBay k f).lands = s.lands := (rfl)
@[simp] theorem bars_onBay (k : Nat) (f : Bay → Bay) : (s.onBay k f).bars = s.bars := (rfl)
@[simp] theorem barsSb_onBay (k : Nat) (f : Bay → Bay) : (s.onBay k f).barsSb = s.barsSb := (rfl)
@[simp] theorem rootPos_onBay (k : Nat) (f : Bay → Bay) : (s.onBay k f).rootPos = s.rootPos := (rfl)
@[simp] theorem rootPosSb_onBay (k : Nat) (f : Bay → Bay) : (s.onBay k f).rootPosSb = s.rootPosSb := (rfl)
@[simp] theorem rootMark_onBay (k : Nat) (f : Bay → Bay) : (s.onBay k f).rootMark = s.rootMark := (rfl)
@[simp] theorem sn_onBay (k : Nat) (f : Bay → Bay) : (s.onBay k f).sn = s.sn := (rfl)
@[simp] theorem flights_onBay (k : Nat) (f : Bay → Bay) : (s.onBay k f).flights = s.flights := (rfl)
@[simp] theorem rets_onBay (k : Nat) (f : Bay → Bay) : (s.onBay k f).rets = s.rets := (rfl)
@[simp] theorem stack_onBay (k : Nat) (f : Bay → Bay) : (s.onBay k f).stack = s.stack := (rfl)
@[simp] theorem ledEsc_onBay (k : Nat) (f : Bay → Bay) : (s.onBay k f).ledEsc = s.ledEsc := (rfl)
@[simp] theorem joins_onBay (k : Nat) (f : Bay → Bay) : (s.onBay k f).joins = s.joins := (rfl)
@[simp] theorem joinSet_onBay (k : Nat) (f : Bay → Bay) : (s.onBay k f).joinSet = s.joinSet := (rfl)
@[simp] theorem job_onBay (k : Nat) (f : Bay → Bay) : (s.onBay k f).job = s.job := (rfl)
@[simp] theorem boards_onBay (k : Nat) (f : Bay → Bay) : (s.onBay k f).boards = s.boards := (rfl)
@[simp] theorem active_onBay (k : Nat) (f : Bay → Bay) : (s.onBay k f).active = s.active := (rfl)
@[simp] theorem posted_onBay (k : Nat) (f : Bay → Bay) : (s.onBay k f).posted = s.posted := (rfl)
@[simp] theorem epochObjs_onBay (k : Nat) (f : Bay → Bay) : (s.onBay k f).epochObjs = s.epochObjs := (rfl)
@[simp] theorem epochOf_onBay (k : Nat) (f : Bay → Bay) : (s.onBay k f).epochOf = s.epochOf := (rfl)
@[simp] theorem evPending_onBay (k : Nat) (f : Bay → Bay) : (s.onBay k f).evPending = s.evPending := (rfl)
@[simp] theorem evSeq_onBay (k : Nat) (f : Bay → Bay) : (s.onBay k f).evSeq = s.evSeq := (rfl)
@[simp] theorem evLost_onBay (k : Nat) (f : Bay → Bay) : (s.onBay k f).evLost = s.evLost := (rfl)
@[simp] theorem rep_onBay (k : Nat) (f : Bay → Bay) : (s.onBay k f).rep = s.rep := (rfl)
@[simp] theorem inp_onBay (k : Nat) (f : Bay → Bay) : (s.onBay k f).inp = s.inp := (rfl)
@[simp] theorem phase_onBay (k : Nat) (f : Bay → Bay) : (s.onBay k f).phase = s.phase := (rfl)
@[simp] theorem readyUp_onBay (k : Nat) (f : Bay → Bay) : (s.onBay k f).readyUp = s.readyUp := (rfl)
@[simp] theorem startFenced_onBay (k : Nat) (f : Bay → Bay) : (s.onBay k f).startFenced = s.startFenced := (rfl)
@[simp] theorem startOuts_onBay (k : Nat) (f : Bay → Bay) : (s.onBay k f).startOuts = s.startOuts := (rfl)
@[simp] theorem mpEsc_onBay (k : Nat) (f : Bay → Bay) : (s.onBay k f).mpEsc = s.mpEsc := (rfl)
@[simp] theorem mpSeek_onBay (k : Nat) (f : Bay → Bay) : (s.onBay k f).mpSeek = s.mpSeek := (rfl)
@[simp] theorem back_onBay (k : Nat) (f : Bay → Bay) : (s.onBay k f).back = s.back := (rfl)
@[simp] theorem cn_onBay (k : Nat) (f : Bay → Bay) : (s.onBay k f).cn = s.cn := (rfl)
@[simp] theorem cnBack_onBay (k : Nat) (f : Bay → Bay) : (s.onBay k f).cnBack = s.cnBack := (rfl)
@[simp] theorem liveOrder_onBay (k : Nat) (f : Bay → Bay) : (s.onBay k f).liveOrder = s.liveOrder := (rfl)
@[simp] theorem liveBoard_onBay (k : Nat) (f : Bay → Bay) : (s.onBay k f).liveBoard = s.liveBoard := (rfl)
@[simp] theorem liveWhich_onBay (k : Nat) (f : Bay → Bay) : (s.onBay k f).liveWhich = s.liveWhich := (rfl)
@[simp] theorem liveCmd_onBay (k : Nat) (f : Bay → Bay) : (s.onBay k f).liveCmd = s.liveCmd := (rfl)
@[simp] theorem stackStops_onBay (k : Nat) (f : Bay → Bay) : (s.onBay k f).stackStops = s.stackStops := (rfl)
@[simp] theorem handover_onBay (k : Nat) (f : Bay → Bay) : (s.onBay k f).handover = s.handover := (rfl)
@[simp] theorem handCmd_onBay (k : Nat) (f : Bay → Bay) : (s.onBay k f).handCmd = s.handCmd := (rfl)
@[simp] theorem riskLog_onBay (k : Nat) (f : Bay → Bay) : (s.onBay k f).riskLog = s.riskLog := (rfl)
@[simp] theorem riskBand_onBay (k : Nat) (f : Bay → Bay) : (s.onBay k f).riskBand = s.riskBand := (rfl)
@[simp] theorem escParent_onBay (k : Nat) (f : Bay → Bay) : (s.onBay k f).escParent = s.escParent := (rfl)
@[simp] theorem escW_onBay (k : Nat) (f : Bay → Bay) : (s.onBay k f).escW = s.escW := (rfl)
@[simp] theorem pathLong_onBay (k : Nat) (f : Bay → Bay) : (s.onBay k f).pathLong = s.pathLong := (rfl)
@[simp] theorem snFenced_onBay (k : Nat) (f : Bay → Bay) : (s.onBay k f).snFenced = s.snFenced := (rfl)
@[simp] theorem bwAcc_onBay (k : Nat) (f : Bay → Bay) : (s.onBay k f).bwAcc = s.bwAcc := (rfl)
@[simp] theorem reg_onBay (k : Nat) (f : Bay → Bay) (j : Nat) : (s.onBay k f).reg j = s.reg j := (rfl)
@[simp] theorem core_onBay (k : Nat) (f : Bay → Bay) (j : Nat) : (s.onBay k f).core j = s.core j := (rfl)
@[simp] theorem land_onBay (k : Nat) (f : Bay → Bay) (j : Nat) : (s.onBay k f).land j = s.land j := (rfl)
@[simp] theorem rtr_onBay (k : Nat) (f : Bay → Bay) (j : Nat) : (s.onBay k f).rtr j = s.rtr j := (rfl)
@[simp] theorem board_onBay (k : Nat) (f : Bay → Bay) (j : Nat) : (s.onBay k f).board j = s.board j := (rfl)
@[simp] theorem ret_onBay (k : Nat) (f : Bay → Bay) (j : Nat) : (s.onBay k f).ret j = s.ret j := (rfl)

@[simp] theorem board_onBoard_same (k : Nat) (f : Board → Board) : (s.onBoard k f).board k = f (s.board k) := by simp [State.onBoard]
theorem board_onBoard_ne {k j : Nat} (f : Board → Board) (h : j ≠ k) : (s.onBoard k f).board j = s.board j := by simp [State.onBoard, board_setBoard, h]
@[simp] theorem pending_onBoard (k : Nat) (f : Board → Board) : (s.onBoard k f).pending = s.pending := (rfl)
@[simp] theorem freeCtr_onBoard (k : Nat) (f : Board → Board) : (s.onBoard k f).freeCtr = s.freeCtr := (rfl)
@[simp] theorem time_onBoard (k : Nat) (f : Board → Board) : (s.onBoard k f).time = s.time := (rfl)
@[simp] theorem regs_onBoard (k : Nat) (f : Board → Board) : (s.onBoard k f).regs = s.regs := (rfl)
@[simp] theorem memPage_onBoard (k : Nat) (f : Board → Board) : (s.onBoard k f).memPage = s.memPage := (rfl)
@[simp] theorem cores_onBoard (k : Nat) (f : Board → Board) : (s.onBoard k f).cores = s.cores := (rfl)
@[simp] theorem routers_onBoard (k : Nat) (f : Board → Board) : (s.onBoard k f).routers = s.routers := (rfl)
@[simp] theorem bays_onBoard (k : Nat) (f : Board → Board) : (s.onBoard k f).bays = s.bays := (rfl)
@[simp] theorem lands_onBoard (k : Nat) (f : Board → Board) : (s.onBoard k f).lands = s.lands := (rfl)
@[simp] theorem bars_onBoard (k : Nat) (f : Board → Board) : (s.onBoard k f).bars = s.bars := (rfl)
@[simp] theorem barsSb_onBoard (k : Nat) (f : Board → Board) : (s.onBoard k f).barsSb = s.barsSb := (rfl)
@[simp] theorem rootPos_onBoard (k : Nat) (f : Board → Board) : (s.onBoard k f).rootPos = s.rootPos := (rfl)
@[simp] theorem rootPosSb_onBoard (k : Nat) (f : Board → Board) : (s.onBoard k f).rootPosSb = s.rootPosSb := (rfl)
@[simp] theorem rootMark_onBoard (k : Nat) (f : Board → Board) : (s.onBoard k f).rootMark = s.rootMark := (rfl)
@[simp] theorem sn_onBoard (k : Nat) (f : Board → Board) : (s.onBoard k f).sn = s.sn := (rfl)
@[simp] theorem flights_onBoard (k : Nat) (f : Board → Board) : (s.onBoard k f).flights = s.flights := (rfl)
@[simp] theorem rets_onBoard (k : Nat) (f : Board → Board) : (s.onBoard k f).rets = s.rets := (rfl)
@[simp] theorem stack_onBoard (k : Nat) (f : Board → Board) : (s.onBoard k f).stack = s.stack := (rfl)
@[simp] theorem ledEsc_onBoard (k : Nat) (f : Board → Board) : (s.onBoard k f).ledEsc = s.ledEsc := (rfl)
@[simp] theorem joins_onBoard (k : Nat) (f : Board → Board) : (s.onBoard k f).joins = s.joins := (rfl)
@[simp] theorem joinSet_onBoard (k : Nat) (f : Board → Board) : (s.onBoard k f).joinSet = s.joinSet := (rfl)
@[simp] theorem job_onBoard (k : Nat) (f : Board → Board) : (s.onBoard k f).job = s.job := (rfl)
@[simp] theorem active_onBoard (k : Nat) (f : Board → Board) : (s.onBoard k f).active = s.active := (rfl)
@[simp] theorem posted_onBoard (k : Nat) (f : Board → Board) : (s.onBoard k f).posted = s.posted := (rfl)
@[simp] theorem epochObjs_onBoard (k : Nat) (f : Board → Board) : (s.onBoard k f).epochObjs = s.epochObjs := (rfl)
@[simp] theorem epochOf_onBoard (k : Nat) (f : Board → Board) : (s.onBoard k f).epochOf = s.epochOf := (rfl)
@[simp] theorem evPending_onBoard (k : Nat) (f : Board → Board) : (s.onBoard k f).evPending = s.evPending := (rfl)
@[simp] theorem evSeq_onBoard (k : Nat) (f : Board → Board) : (s.onBoard k f).evSeq = s.evSeq := (rfl)
@[simp] theorem evLost_onBoard (k : Nat) (f : Board → Board) : (s.onBoard k f).evLost = s.evLost := (rfl)
@[simp] theorem rep_onBoard (k : Nat) (f : Board → Board) : (s.onBoard k f).rep = s.rep := (rfl)
@[simp] theorem inp_onBoard (k : Nat) (f : Board → Board) : (s.onBoard k f).inp = s.inp := (rfl)
@[simp] theorem phase_onBoard (k : Nat) (f : Board → Board) : (s.onBoard k f).phase = s.phase := (rfl)
@[simp] theorem readyUp_onBoard (k : Nat) (f : Board → Board) : (s.onBoard k f).readyUp = s.readyUp := (rfl)
@[simp] theorem startFenced_onBoard (k : Nat) (f : Board → Board) : (s.onBoard k f).startFenced = s.startFenced := (rfl)
@[simp] theorem startOuts_onBoard (k : Nat) (f : Board → Board) : (s.onBoard k f).startOuts = s.startOuts := (rfl)
@[simp] theorem mpEsc_onBoard (k : Nat) (f : Board → Board) : (s.onBoard k f).mpEsc = s.mpEsc := (rfl)
@[simp] theorem mpSeek_onBoard (k : Nat) (f : Board → Board) : (s.onBoard k f).mpSeek = s.mpSeek := (rfl)
@[simp] theorem back_onBoard (k : Nat) (f : Board → Board) : (s.onBoard k f).back = s.back := (rfl)
@[simp] theorem cn_onBoard (k : Nat) (f : Board → Board) : (s.onBoard k f).cn = s.cn := (rfl)
@[simp] theorem cnBack_onBoard (k : Nat) (f : Board → Board) : (s.onBoard k f).cnBack = s.cnBack := (rfl)
@[simp] theorem liveOrder_onBoard (k : Nat) (f : Board → Board) : (s.onBoard k f).liveOrder = s.liveOrder := (rfl)
@[simp] theorem liveBoard_onBoard (k : Nat) (f : Board → Board) : (s.onBoard k f).liveBoard = s.liveBoard := (rfl)
@[simp] theorem liveWhich_onBoard (k : Nat) (f : Board → Board) : (s.onBoard k f).liveWhich = s.liveWhich := (rfl)
@[simp] theorem liveCmd_onBoard (k : Nat) (f : Board → Board) : (s.onBoard k f).liveCmd = s.liveCmd := (rfl)
@[simp] theorem stackStops_onBoard (k : Nat) (f : Board → Board) : (s.onBoard k f).stackStops = s.stackStops := (rfl)
@[simp] theorem handover_onBoard (k : Nat) (f : Board → Board) : (s.onBoard k f).handover = s.handover := (rfl)
@[simp] theorem handCmd_onBoard (k : Nat) (f : Board → Board) : (s.onBoard k f).handCmd = s.handCmd := (rfl)
@[simp] theorem riskLog_onBoard (k : Nat) (f : Board → Board) : (s.onBoard k f).riskLog = s.riskLog := (rfl)
@[simp] theorem riskBand_onBoard (k : Nat) (f : Board → Board) : (s.onBoard k f).riskBand = s.riskBand := (rfl)
@[simp] theorem escParent_onBoard (k : Nat) (f : Board → Board) : (s.onBoard k f).escParent = s.escParent := (rfl)
@[simp] theorem escW_onBoard (k : Nat) (f : Board → Board) : (s.onBoard k f).escW = s.escW := (rfl)
@[simp] theorem pathLong_onBoard (k : Nat) (f : Board → Board) : (s.onBoard k f).pathLong = s.pathLong := (rfl)
@[simp] theorem snFenced_onBoard (k : Nat) (f : Board → Board) : (s.onBoard k f).snFenced = s.snFenced := (rfl)
@[simp] theorem bwAcc_onBoard (k : Nat) (f : Board → Board) : (s.onBoard k f).bwAcc = s.bwAcc := (rfl)
@[simp] theorem reg_onBoard (k : Nat) (f : Board → Board) (j : Nat) : (s.onBoard k f).reg j = s.reg j := (rfl)
@[simp] theorem core_onBoard (k : Nat) (f : Board → Board) (j : Nat) : (s.onBoard k f).core j = s.core j := (rfl)
@[simp] theorem land_onBoard (k : Nat) (f : Board → Board) (j : Nat) : (s.onBoard k f).land j = s.land j := (rfl)
@[simp] theorem bay_onBoard (k : Nat) (f : Board → Board) (j : Nat) : (s.onBoard k f).bay j = s.bay j := (rfl)
@[simp] theorem rtr_onBoard (k : Nat) (f : Board → Board) (j : Nat) : (s.onBoard k f).rtr j = s.rtr j := (rfl)
@[simp] theorem ret_onBoard (k : Nat) (f : Board → Board) (j : Nat) : (s.onBoard k f).ret j = s.ret j := (rfl)

/-! ## Loops -/

/-- What every pass of a loop keeps, the loop keeps. -/
theorem upTo_keeps {β : Type} (g : State → β) (n : Nat) (f : Nat → State → State) (t : State) (h : ∀ i u, g (f i u) = g u) : g (upTo n f t) = g t := by
  unfold upTo
  generalize List.range n = xs
  induction xs generalizing t with
  | nil => rfl
  | cons x xs ih => simp only [List.foldl_cons]; rw [ih, h]

theorem forAll_keeps {α β : Type} (g : State → β) (xs : List α) (f : α → State → State) (t : State) (h : ∀ x u, g (f x u) = g u) : g (forAll xs f t) = g t := by
  unfold forAll
  induction xs generalizing t with
  | nil => rfl
  | cons x xs ih => simp only [List.foldl_cons]; rw [ih, h]

theorem foldl_keeps {α β : Type} (g : State → β) (xs : List α) (f : State → α → State) (t : State) (h : ∀ u x, g (f u x) = g u) : g (xs.foldl f t) = g t := by
  induction xs generalizing t with
  | nil => rfl
  | cons x xs ih => simp only [List.foldl_cons]; rw [ih, h]

/-! ## Register fields -/

@[simp] theorem pending_setFld (a hi lo v : Nat) : (s.setFld a hi lo v).pending = s.pending := (rfl)
@[simp] theorem pending_orReg (a : Nat) (m : W32) : (s.orReg a m).pending = s.pending := (rfl)
@[simp] theorem pending_bump (a hi lo n : Nat) : (s.bump a hi lo n).pending = s.pending := (rfl)
@[simp] theorem freeCtr_setFld (a hi lo v : Nat) : (s.setFld a hi lo v).freeCtr = s.freeCtr := (rfl)
@[simp] theorem freeCtr_orReg (a : Nat) (m : W32) : (s.orReg a m).freeCtr = s.freeCtr := (rfl)
@[simp] theorem freeCtr_bump (a hi lo n : Nat) : (s.bump a hi lo n).freeCtr = s.freeCtr := (rfl)
@[simp] theorem time_setFld (a hi lo v : Nat) : (s.setFld a hi lo v).time = s.time := (rfl)
@[simp] theorem time_orReg (a : Nat) (m : W32) : (s.orReg a m).time = s.time := (rfl)
@[simp] theorem time_bump (a hi lo n : Nat) : (s.bump a hi lo n).time = s.time := (rfl)
@[simp] theorem memPage_setFld (a hi lo v : Nat) : (s.setFld a hi lo v).memPage = s.memPage := (rfl)
@[simp] theorem memPage_orReg (a : Nat) (m : W32) : (s.orReg a m).memPage = s.memPage := (rfl)
@[simp] theorem memPage_bump (a hi lo n : Nat) : (s.bump a hi lo n).memPage = s.memPage := (rfl)
@[simp] theorem cores_setFld (a hi lo v : Nat) : (s.setFld a hi lo v).cores = s.cores := (rfl)
@[simp] theorem cores_orReg (a : Nat) (m : W32) : (s.orReg a m).cores = s.cores := (rfl)
@[simp] theorem cores_bump (a hi lo n : Nat) : (s.bump a hi lo n).cores = s.cores := (rfl)
@[simp] theorem routers_setFld (a hi lo v : Nat) : (s.setFld a hi lo v).routers = s.routers := (rfl)
@[simp] theorem routers_orReg (a : Nat) (m : W32) : (s.orReg a m).routers = s.routers := (rfl)
@[simp] theorem routers_bump (a hi lo n : Nat) : (s.bump a hi lo n).routers = s.routers := (rfl)
@[simp] theorem bays_setFld (a hi lo v : Nat) : (s.setFld a hi lo v).bays = s.bays := (rfl)
@[simp] theorem bays_orReg (a : Nat) (m : W32) : (s.orReg a m).bays = s.bays := (rfl)
@[simp] theorem bays_bump (a hi lo n : Nat) : (s.bump a hi lo n).bays = s.bays := (rfl)
@[simp] theorem lands_setFld (a hi lo v : Nat) : (s.setFld a hi lo v).lands = s.lands := (rfl)
@[simp] theorem lands_orReg (a : Nat) (m : W32) : (s.orReg a m).lands = s.lands := (rfl)
@[simp] theorem lands_bump (a hi lo n : Nat) : (s.bump a hi lo n).lands = s.lands := (rfl)
@[simp] theorem bars_setFld (a hi lo v : Nat) : (s.setFld a hi lo v).bars = s.bars := (rfl)
@[simp] theorem bars_orReg (a : Nat) (m : W32) : (s.orReg a m).bars = s.bars := (rfl)
@[simp] theorem bars_bump (a hi lo n : Nat) : (s.bump a hi lo n).bars = s.bars := (rfl)
@[simp] theorem barsSb_setFld (a hi lo v : Nat) : (s.setFld a hi lo v).barsSb = s.barsSb := (rfl)
@[simp] theorem barsSb_orReg (a : Nat) (m : W32) : (s.orReg a m).barsSb = s.barsSb := (rfl)
@[simp] theorem barsSb_bump (a hi lo n : Nat) : (s.bump a hi lo n).barsSb = s.barsSb := (rfl)
@[simp] theorem rootPos_setFld (a hi lo v : Nat) : (s.setFld a hi lo v).rootPos = s.rootPos := (rfl)
@[simp] theorem rootPos_orReg (a : Nat) (m : W32) : (s.orReg a m).rootPos = s.rootPos := (rfl)
@[simp] theorem rootPos_bump (a hi lo n : Nat) : (s.bump a hi lo n).rootPos = s.rootPos := (rfl)
@[simp] theorem rootPosSb_setFld (a hi lo v : Nat) : (s.setFld a hi lo v).rootPosSb = s.rootPosSb := (rfl)
@[simp] theorem rootPosSb_orReg (a : Nat) (m : W32) : (s.orReg a m).rootPosSb = s.rootPosSb := (rfl)
@[simp] theorem rootPosSb_bump (a hi lo n : Nat) : (s.bump a hi lo n).rootPosSb = s.rootPosSb := (rfl)
@[simp] theorem rootMark_setFld (a hi lo v : Nat) : (s.setFld a hi lo v).rootMark = s.rootMark := (rfl)
@[simp] theorem rootMark_orReg (a : Nat) (m : W32) : (s.orReg a m).rootMark = s.rootMark := (rfl)
@[simp] theorem rootMark_bump (a hi lo n : Nat) : (s.bump a hi lo n).rootMark = s.rootMark := (rfl)
@[simp] theorem sn_setFld (a hi lo v : Nat) : (s.setFld a hi lo v).sn = s.sn := (rfl)
@[simp] theorem sn_orReg (a : Nat) (m : W32) : (s.orReg a m).sn = s.sn := (rfl)
@[simp] theorem sn_bump (a hi lo n : Nat) : (s.bump a hi lo n).sn = s.sn := (rfl)
@[simp] theorem flights_setFld (a hi lo v : Nat) : (s.setFld a hi lo v).flights = s.flights := (rfl)
@[simp] theorem flights_orReg (a : Nat) (m : W32) : (s.orReg a m).flights = s.flights := (rfl)
@[simp] theorem flights_bump (a hi lo n : Nat) : (s.bump a hi lo n).flights = s.flights := (rfl)
@[simp] theorem rets_setFld (a hi lo v : Nat) : (s.setFld a hi lo v).rets = s.rets := (rfl)
@[simp] theorem rets_orReg (a : Nat) (m : W32) : (s.orReg a m).rets = s.rets := (rfl)
@[simp] theorem rets_bump (a hi lo n : Nat) : (s.bump a hi lo n).rets = s.rets := (rfl)
@[simp] theorem stack_setFld (a hi lo v : Nat) : (s.setFld a hi lo v).stack = s.stack := (rfl)
@[simp] theorem stack_orReg (a : Nat) (m : W32) : (s.orReg a m).stack = s.stack := (rfl)
@[simp] theorem stack_bump (a hi lo n : Nat) : (s.bump a hi lo n).stack = s.stack := (rfl)
@[simp] theorem ledEsc_setFld (a hi lo v : Nat) : (s.setFld a hi lo v).ledEsc = s.ledEsc := (rfl)
@[simp] theorem ledEsc_orReg (a : Nat) (m : W32) : (s.orReg a m).ledEsc = s.ledEsc := (rfl)
@[simp] theorem ledEsc_bump (a hi lo n : Nat) : (s.bump a hi lo n).ledEsc = s.ledEsc := (rfl)
@[simp] theorem joins_setFld (a hi lo v : Nat) : (s.setFld a hi lo v).joins = s.joins := (rfl)
@[simp] theorem joins_orReg (a : Nat) (m : W32) : (s.orReg a m).joins = s.joins := (rfl)
@[simp] theorem joins_bump (a hi lo n : Nat) : (s.bump a hi lo n).joins = s.joins := (rfl)
@[simp] theorem joinSet_setFld (a hi lo v : Nat) : (s.setFld a hi lo v).joinSet = s.joinSet := (rfl)
@[simp] theorem joinSet_orReg (a : Nat) (m : W32) : (s.orReg a m).joinSet = s.joinSet := (rfl)
@[simp] theorem joinSet_bump (a hi lo n : Nat) : (s.bump a hi lo n).joinSet = s.joinSet := (rfl)
@[simp] theorem job_setFld (a hi lo v : Nat) : (s.setFld a hi lo v).job = s.job := (rfl)
@[simp] theorem job_orReg (a : Nat) (m : W32) : (s.orReg a m).job = s.job := (rfl)
@[simp] theorem job_bump (a hi lo n : Nat) : (s.bump a hi lo n).job = s.job := (rfl)
@[simp] theorem boards_setFld (a hi lo v : Nat) : (s.setFld a hi lo v).boards = s.boards := (rfl)
@[simp] theorem boards_orReg (a : Nat) (m : W32) : (s.orReg a m).boards = s.boards := (rfl)
@[simp] theorem boards_bump (a hi lo n : Nat) : (s.bump a hi lo n).boards = s.boards := (rfl)
@[simp] theorem active_setFld (a hi lo v : Nat) : (s.setFld a hi lo v).active = s.active := (rfl)
@[simp] theorem active_orReg (a : Nat) (m : W32) : (s.orReg a m).active = s.active := (rfl)
@[simp] theorem active_bump (a hi lo n : Nat) : (s.bump a hi lo n).active = s.active := (rfl)
@[simp] theorem posted_setFld (a hi lo v : Nat) : (s.setFld a hi lo v).posted = s.posted := (rfl)
@[simp] theorem posted_orReg (a : Nat) (m : W32) : (s.orReg a m).posted = s.posted := (rfl)
@[simp] theorem posted_bump (a hi lo n : Nat) : (s.bump a hi lo n).posted = s.posted := (rfl)
@[simp] theorem epochObjs_setFld (a hi lo v : Nat) : (s.setFld a hi lo v).epochObjs = s.epochObjs := (rfl)
@[simp] theorem epochObjs_orReg (a : Nat) (m : W32) : (s.orReg a m).epochObjs = s.epochObjs := (rfl)
@[simp] theorem epochObjs_bump (a hi lo n : Nat) : (s.bump a hi lo n).epochObjs = s.epochObjs := (rfl)
@[simp] theorem epochOf_setFld (a hi lo v : Nat) : (s.setFld a hi lo v).epochOf = s.epochOf := (rfl)
@[simp] theorem epochOf_orReg (a : Nat) (m : W32) : (s.orReg a m).epochOf = s.epochOf := (rfl)
@[simp] theorem epochOf_bump (a hi lo n : Nat) : (s.bump a hi lo n).epochOf = s.epochOf := (rfl)
@[simp] theorem evPending_setFld (a hi lo v : Nat) : (s.setFld a hi lo v).evPending = s.evPending := (rfl)
@[simp] theorem evPending_orReg (a : Nat) (m : W32) : (s.orReg a m).evPending = s.evPending := (rfl)
@[simp] theorem evPending_bump (a hi lo n : Nat) : (s.bump a hi lo n).evPending = s.evPending := (rfl)
@[simp] theorem evSeq_setFld (a hi lo v : Nat) : (s.setFld a hi lo v).evSeq = s.evSeq := (rfl)
@[simp] theorem evSeq_orReg (a : Nat) (m : W32) : (s.orReg a m).evSeq = s.evSeq := (rfl)
@[simp] theorem evSeq_bump (a hi lo n : Nat) : (s.bump a hi lo n).evSeq = s.evSeq := (rfl)
@[simp] theorem evLost_setFld (a hi lo v : Nat) : (s.setFld a hi lo v).evLost = s.evLost := (rfl)
@[simp] theorem evLost_orReg (a : Nat) (m : W32) : (s.orReg a m).evLost = s.evLost := (rfl)
@[simp] theorem evLost_bump (a hi lo n : Nat) : (s.bump a hi lo n).evLost = s.evLost := (rfl)
@[simp] theorem rep_setFld (a hi lo v : Nat) : (s.setFld a hi lo v).rep = s.rep := (rfl)
@[simp] theorem rep_orReg (a : Nat) (m : W32) : (s.orReg a m).rep = s.rep := (rfl)
@[simp] theorem rep_bump (a hi lo n : Nat) : (s.bump a hi lo n).rep = s.rep := (rfl)
@[simp] theorem inp_setFld (a hi lo v : Nat) : (s.setFld a hi lo v).inp = s.inp := (rfl)
@[simp] theorem inp_orReg (a : Nat) (m : W32) : (s.orReg a m).inp = s.inp := (rfl)
@[simp] theorem inp_bump (a hi lo n : Nat) : (s.bump a hi lo n).inp = s.inp := (rfl)
@[simp] theorem phase_setFld (a hi lo v : Nat) : (s.setFld a hi lo v).phase = s.phase := (rfl)
@[simp] theorem phase_orReg (a : Nat) (m : W32) : (s.orReg a m).phase = s.phase := (rfl)
@[simp] theorem phase_bump (a hi lo n : Nat) : (s.bump a hi lo n).phase = s.phase := (rfl)
@[simp] theorem readyUp_setFld (a hi lo v : Nat) : (s.setFld a hi lo v).readyUp = s.readyUp := (rfl)
@[simp] theorem readyUp_orReg (a : Nat) (m : W32) : (s.orReg a m).readyUp = s.readyUp := (rfl)
@[simp] theorem readyUp_bump (a hi lo n : Nat) : (s.bump a hi lo n).readyUp = s.readyUp := (rfl)
@[simp] theorem startFenced_setFld (a hi lo v : Nat) : (s.setFld a hi lo v).startFenced = s.startFenced := (rfl)
@[simp] theorem startFenced_orReg (a : Nat) (m : W32) : (s.orReg a m).startFenced = s.startFenced := (rfl)
@[simp] theorem startFenced_bump (a hi lo n : Nat) : (s.bump a hi lo n).startFenced = s.startFenced := (rfl)
@[simp] theorem startOuts_setFld (a hi lo v : Nat) : (s.setFld a hi lo v).startOuts = s.startOuts := (rfl)
@[simp] theorem startOuts_orReg (a : Nat) (m : W32) : (s.orReg a m).startOuts = s.startOuts := (rfl)
@[simp] theorem startOuts_bump (a hi lo n : Nat) : (s.bump a hi lo n).startOuts = s.startOuts := (rfl)
@[simp] theorem mpEsc_setFld (a hi lo v : Nat) : (s.setFld a hi lo v).mpEsc = s.mpEsc := (rfl)
@[simp] theorem mpEsc_orReg (a : Nat) (m : W32) : (s.orReg a m).mpEsc = s.mpEsc := (rfl)
@[simp] theorem mpEsc_bump (a hi lo n : Nat) : (s.bump a hi lo n).mpEsc = s.mpEsc := (rfl)
@[simp] theorem mpSeek_setFld (a hi lo v : Nat) : (s.setFld a hi lo v).mpSeek = s.mpSeek := (rfl)
@[simp] theorem mpSeek_orReg (a : Nat) (m : W32) : (s.orReg a m).mpSeek = s.mpSeek := (rfl)
@[simp] theorem mpSeek_bump (a hi lo n : Nat) : (s.bump a hi lo n).mpSeek = s.mpSeek := (rfl)
@[simp] theorem back_setFld (a hi lo v : Nat) : (s.setFld a hi lo v).back = s.back := (rfl)
@[simp] theorem back_orReg (a : Nat) (m : W32) : (s.orReg a m).back = s.back := (rfl)
@[simp] theorem back_bump (a hi lo n : Nat) : (s.bump a hi lo n).back = s.back := (rfl)
@[simp] theorem cn_setFld (a hi lo v : Nat) : (s.setFld a hi lo v).cn = s.cn := (rfl)
@[simp] theorem cn_orReg (a : Nat) (m : W32) : (s.orReg a m).cn = s.cn := (rfl)
@[simp] theorem cn_bump (a hi lo n : Nat) : (s.bump a hi lo n).cn = s.cn := (rfl)
@[simp] theorem cnBack_setFld (a hi lo v : Nat) : (s.setFld a hi lo v).cnBack = s.cnBack := (rfl)
@[simp] theorem cnBack_orReg (a : Nat) (m : W32) : (s.orReg a m).cnBack = s.cnBack := (rfl)
@[simp] theorem cnBack_bump (a hi lo n : Nat) : (s.bump a hi lo n).cnBack = s.cnBack := (rfl)
@[simp] theorem liveOrder_setFld (a hi lo v : Nat) : (s.setFld a hi lo v).liveOrder = s.liveOrder := (rfl)
@[simp] theorem liveOrder_orReg (a : Nat) (m : W32) : (s.orReg a m).liveOrder = s.liveOrder := (rfl)
@[simp] theorem liveOrder_bump (a hi lo n : Nat) : (s.bump a hi lo n).liveOrder = s.liveOrder := (rfl)
@[simp] theorem liveBoard_setFld (a hi lo v : Nat) : (s.setFld a hi lo v).liveBoard = s.liveBoard := (rfl)
@[simp] theorem liveBoard_orReg (a : Nat) (m : W32) : (s.orReg a m).liveBoard = s.liveBoard := (rfl)
@[simp] theorem liveBoard_bump (a hi lo n : Nat) : (s.bump a hi lo n).liveBoard = s.liveBoard := (rfl)
@[simp] theorem liveWhich_setFld (a hi lo v : Nat) : (s.setFld a hi lo v).liveWhich = s.liveWhich := (rfl)
@[simp] theorem liveWhich_orReg (a : Nat) (m : W32) : (s.orReg a m).liveWhich = s.liveWhich := (rfl)
@[simp] theorem liveWhich_bump (a hi lo n : Nat) : (s.bump a hi lo n).liveWhich = s.liveWhich := (rfl)
@[simp] theorem liveCmd_setFld (a hi lo v : Nat) : (s.setFld a hi lo v).liveCmd = s.liveCmd := (rfl)
@[simp] theorem liveCmd_orReg (a : Nat) (m : W32) : (s.orReg a m).liveCmd = s.liveCmd := (rfl)
@[simp] theorem liveCmd_bump (a hi lo n : Nat) : (s.bump a hi lo n).liveCmd = s.liveCmd := (rfl)
@[simp] theorem stackStops_setFld (a hi lo v : Nat) : (s.setFld a hi lo v).stackStops = s.stackStops := (rfl)
@[simp] theorem stackStops_orReg (a : Nat) (m : W32) : (s.orReg a m).stackStops = s.stackStops := (rfl)
@[simp] theorem stackStops_bump (a hi lo n : Nat) : (s.bump a hi lo n).stackStops = s.stackStops := (rfl)
@[simp] theorem handover_setFld (a hi lo v : Nat) : (s.setFld a hi lo v).handover = s.handover := (rfl)
@[simp] theorem handover_orReg (a : Nat) (m : W32) : (s.orReg a m).handover = s.handover := (rfl)
@[simp] theorem handover_bump (a hi lo n : Nat) : (s.bump a hi lo n).handover = s.handover := (rfl)
@[simp] theorem handCmd_setFld (a hi lo v : Nat) : (s.setFld a hi lo v).handCmd = s.handCmd := (rfl)
@[simp] theorem handCmd_orReg (a : Nat) (m : W32) : (s.orReg a m).handCmd = s.handCmd := (rfl)
@[simp] theorem handCmd_bump (a hi lo n : Nat) : (s.bump a hi lo n).handCmd = s.handCmd := (rfl)
@[simp] theorem riskLog_setFld (a hi lo v : Nat) : (s.setFld a hi lo v).riskLog = s.riskLog := (rfl)
@[simp] theorem riskLog_orReg (a : Nat) (m : W32) : (s.orReg a m).riskLog = s.riskLog := (rfl)
@[simp] theorem riskLog_bump (a hi lo n : Nat) : (s.bump a hi lo n).riskLog = s.riskLog := (rfl)
@[simp] theorem riskBand_setFld (a hi lo v : Nat) : (s.setFld a hi lo v).riskBand = s.riskBand := (rfl)
@[simp] theorem riskBand_orReg (a : Nat) (m : W32) : (s.orReg a m).riskBand = s.riskBand := (rfl)
@[simp] theorem riskBand_bump (a hi lo n : Nat) : (s.bump a hi lo n).riskBand = s.riskBand := (rfl)
@[simp] theorem escParent_setFld (a hi lo v : Nat) : (s.setFld a hi lo v).escParent = s.escParent := (rfl)
@[simp] theorem escParent_orReg (a : Nat) (m : W32) : (s.orReg a m).escParent = s.escParent := (rfl)
@[simp] theorem escParent_bump (a hi lo n : Nat) : (s.bump a hi lo n).escParent = s.escParent := (rfl)
@[simp] theorem escW_setFld (a hi lo v : Nat) : (s.setFld a hi lo v).escW = s.escW := (rfl)
@[simp] theorem escW_orReg (a : Nat) (m : W32) : (s.orReg a m).escW = s.escW := (rfl)
@[simp] theorem escW_bump (a hi lo n : Nat) : (s.bump a hi lo n).escW = s.escW := (rfl)
@[simp] theorem pathLong_setFld (a hi lo v : Nat) : (s.setFld a hi lo v).pathLong = s.pathLong := (rfl)
@[simp] theorem pathLong_orReg (a : Nat) (m : W32) : (s.orReg a m).pathLong = s.pathLong := (rfl)
@[simp] theorem pathLong_bump (a hi lo n : Nat) : (s.bump a hi lo n).pathLong = s.pathLong := (rfl)
@[simp] theorem snFenced_setFld (a hi lo v : Nat) : (s.setFld a hi lo v).snFenced = s.snFenced := (rfl)
@[simp] theorem snFenced_orReg (a : Nat) (m : W32) : (s.orReg a m).snFenced = s.snFenced := (rfl)
@[simp] theorem snFenced_bump (a hi lo n : Nat) : (s.bump a hi lo n).snFenced = s.snFenced := (rfl)
@[simp] theorem bwAcc_setFld (a hi lo v : Nat) : (s.setFld a hi lo v).bwAcc = s.bwAcc := (rfl)
@[simp] theorem bwAcc_orReg (a : Nat) (m : W32) : (s.orReg a m).bwAcc = s.bwAcc := (rfl)
@[simp] theorem bwAcc_bump (a hi lo n : Nat) : (s.bump a hi lo n).bwAcc = s.bwAcc := (rfl)
@[simp] theorem core_setFld (a hi lo v j : Nat) : (s.setFld a hi lo v).core j = s.core j := (rfl)
@[simp] theorem core_orReg (a : Nat) (m : W32) (j : Nat) : (s.orReg a m).core j = s.core j := (rfl)
@[simp] theorem core_bump (a hi lo n j : Nat) : (s.bump a hi lo n).core j = s.core j := (rfl)
@[simp] theorem land_setFld (a hi lo v j : Nat) : (s.setFld a hi lo v).land j = s.land j := (rfl)
@[simp] theorem land_orReg (a : Nat) (m : W32) (j : Nat) : (s.orReg a m).land j = s.land j := (rfl)
@[simp] theorem land_bump (a hi lo n j : Nat) : (s.bump a hi lo n).land j = s.land j := (rfl)
@[simp] theorem bay_setFld (a hi lo v j : Nat) : (s.setFld a hi lo v).bay j = s.bay j := (rfl)
@[simp] theorem bay_orReg (a : Nat) (m : W32) (j : Nat) : (s.orReg a m).bay j = s.bay j := (rfl)
@[simp] theorem bay_bump (a hi lo n j : Nat) : (s.bump a hi lo n).bay j = s.bay j := (rfl)
@[simp] theorem rtr_setFld (a hi lo v j : Nat) : (s.setFld a hi lo v).rtr j = s.rtr j := (rfl)
@[simp] theorem rtr_orReg (a : Nat) (m : W32) (j : Nat) : (s.orReg a m).rtr j = s.rtr j := (rfl)
@[simp] theorem rtr_bump (a hi lo n j : Nat) : (s.bump a hi lo n).rtr j = s.rtr j := (rfl)
@[simp] theorem board_setFld (a hi lo v j : Nat) : (s.setFld a hi lo v).board j = s.board j := (rfl)
@[simp] theorem board_orReg (a : Nat) (m : W32) (j : Nat) : (s.orReg a m).board j = s.board j := (rfl)
@[simp] theorem board_bump (a hi lo n j : Nat) : (s.bump a hi lo n).board j = s.board j := (rfl)
@[simp] theorem ret_setFld (a hi lo v j : Nat) : (s.setFld a hi lo v).ret j = s.ret j := (rfl)
@[simp] theorem ret_orReg (a : Nat) (m : W32) (j : Nat) : (s.orReg a m).ret j = s.ret j := (rfl)
@[simp] theorem ret_bump (a hi lo n j : Nat) : (s.bump a hi lo n).ret j = s.ret j := (rfl)
theorem reg_setFld (a hi lo v j : Nat) : (s.setFld a hi lo v).reg j = if j = a then setField (s.reg a) hi lo v else s.reg j := by
  simp [State.setFld, reg_setReg]
theorem reg_orReg (a j : Nat) (m : W32) : (s.orReg a m).reg j = if j = a then s.reg a ||| m else s.reg j := by
  simp [State.orReg, reg_setReg]
theorem reg_setFld_ne {a j : Nat} (hi lo v : Nat) (h : j ≠ a) : (s.setFld a hi lo v).reg j = s.reg j := by simp [reg_setFld, h]
theorem reg_bump_ne {a j : Nat} (hi lo n : Nat) (h : j ≠ a) : (s.bump a hi lo n).reg j = s.reg j := by simp [State.bump, reg_setFld, h]

end State

end Sys2Proof.Machine
end

