-- ==== Sys2Proof/Laws/Core.lean ====
section
/-! SUPPORT. What a register write of a core leaves alone, field by field, and what its scalar registers read as after it. -/

namespace Sys2Proof.Machine

/-- A register write changes one register file and the masks. -/
theorem Core.setId_keeps (c : Core) (i w : Nat) (m : Mask) :
    c.setId i w m = { c with v := (c.setId i w m).v, s := (c.setId i w m).s, x := (c.setId i w m).x, gv := SMap.set 0 c.gv i m } := by
  unfold Core.setId
  by_cases h1 : i < 64
  · simp only [if_pos h1]
  · by_cases h2 : i < 96
    · simp only [if_neg h1, if_pos h2]
    · simp only [if_neg h1, if_neg h2]

@[simp] theorem Core.spad_setId (c : Core) (i w : Nat) (m : Mask) : (c.setId i w m).spad = c.spad := by rw [Core.setId_keeps]
@[simp] theorem Core.sill_setId (c : Core) (i w : Nat) (m : Mask) : (c.setId i w m).sill = c.sill := by rw [Core.setId_keeps]
@[simp] theorem Core.istore_setId (c : Core) (i w : Nat) (m : Mask) : (c.setId i w m).istore = c.istore := by rw [Core.setId_keeps]
@[simp] theorem Core.roles_setId (c : Core) (i w : Nat) (m : Mask) : (c.setId i w m).roles = c.roles := by rw [Core.setId_keeps]
@[simp] theorem Core.curRole_setId (c : Core) (i w : Nat) (m : Mask) : (c.setId i w m).curRole = c.curRole := by rw [Core.setId_keeps]
@[simp] theorem Core.stored_setId (c : Core) (i w : Nat) (m : Mask) : (c.setId i w m).stored = c.stored := by rw [Core.setId_keeps]
@[simp] theorem Core.tile_setId (c : Core) (i w : Nat) (m : Mask) : (c.setId i w m).tile = c.tile := by rw [Core.setId_keeps]
@[simp] theorem Core.tileMask_setId (c : Core) (i w : Nat) (m : Mask) : (c.setId i w m).tileMask = c.tileMask := by rw [Core.setId_keeps]
@[simp] theorem Core.lastFmt_setId (c : Core) (i w : Nat) (m : Mask) : (c.setId i w m).lastFmt = c.lastFmt := by rw [Core.setId_keeps]
@[simp] theorem Core.lastLoad_setId (c : Core) (i w : Nat) (m : Mask) : (c.setId i w m).lastLoad = c.lastLoad := by rw [Core.setId_keeps]
@[simp] theorem Core.mulX_setId (c : Core) (i w : Nat) (m : Mask) : (c.setId i w m).mulX = c.mulX := by rw [Core.setId_keeps]
@[simp] theorem Core.mulP_setId (c : Core) (i w : Nat) (m : Mask) : (c.setId i w m).mulP = c.mulP := by rw [Core.setId_keeps]
@[simp] theorem Core.epiX_setId (c : Core) (i w : Nat) (m : Mask) : (c.setId i w m).epiX = c.epiX := by rw [Core.setId_keeps]
@[simp] theorem Core.epiP_setId (c : Core) (i w : Nat) (m : Mask) : (c.setId i w m).epiP = c.epiP := by rw [Core.setId_keeps]
@[simp] theorem Core.fresh_setId (c : Core) (i w : Nat) (m : Mask) : (c.setId i w m).fresh = c.fresh := by rw [Core.setId_keeps]
@[simp] theorem Core.bist_setId (c : Core) (i w : Nat) (m : Mask) : (c.setId i w m).bist = c.bist := by rw [Core.setId_keeps]
@[simp] theorem Core.serial_setId (c : Core) (i w : Nat) (m : Mask) : (c.setId i w m).serial = c.serial := by rw [Core.setId_keeps]
@[simp] theorem Core.raised_setId (c : Core) (i w : Nat) (m : Mask) : (c.setId i w m).raised = c.raised := by rw [Core.setId_keeps]
@[simp] theorem Core.logWaited_setId (c : Core) (i w : Nat) (m : Mask) : (c.setId i w m).logWaited = c.logWaited := by rw [Core.setId_keeps]
@[simp] theorem Core.vpipe_setId (c : Core) (i w : Nat) (m : Mask) : (c.setId i w m).vpipe = c.vpipe := by rw [Core.setId_keeps]
@[simp] theorem Core.dtab_setId (c : Core) (i w : Nat) (m : Mask) : (c.setId i w m).dtab = c.dtab := by rw [Core.setId_keeps]
@[simp] theorem Core.dtX_setId (c : Core) (i w : Nat) (m : Mask) : (c.setId i w m).dtX = c.dtX := by rw [Core.setId_keeps]
@[simp] theorem Core.dtP_setId (c : Core) (i w : Nat) (m : Mask) : (c.setId i w m).dtP = c.dtP := by rw [Core.setId_keeps]
@[simp] theorem Core.dq_setId (c : Core) (i w : Nat) (m : Mask) : (c.setId i w m).dq = c.dq := by rw [Core.setId_keeps]
@[simp] theorem Core.preds_setId (c : Core) (i w : Nat) (m : Mask) : (c.setId i w m).preds = c.preds := by rw [Core.setId_keeps]
@[simp] theorem Core.scq_setId (c : Core) (i w : Nat) (m : Mask) : (c.setId i w m).scq = c.scq := by rw [Core.setId_keeps]
@[simp] theorem Core.xfers_setId (c : Core) (i w : Nat) (m : Mask) : (c.setId i w m).xfers = c.xfers := by rw [Core.setId_keeps]
@[simp] theorem Core.msgSeq_setId (c : Core) (i w : Nat) (m : Mask) : (c.setId i w m).msgSeq = c.msgSeq := by rw [Core.setId_keeps]
@[simp] theorem Core.loops_setId (c : Core) (i w : Nat) (m : Mask) : (c.setId i w m).loops = c.loops := by rw [Core.setId_keeps]
@[simp] theorem Core.strides_setId (c : Core) (i w : Nat) (m : Mask) : (c.setId i w m).strides = c.strides := by rw [Core.setId_keeps]
@[simp] theorem Core.arrB_setId (c : Core) (i w : Nat) (m : Mask) : (c.setId i w m).arrB = c.arrB := by rw [Core.setId_keeps]
@[simp] theorem Core.doneB_setId (c : Core) (i w : Nat) (m : Mask) : (c.setId i w m).doneB = c.doneB := by rw [Core.setId_keeps]
@[simp] theorem Core.endHold_setId (c : Core) (i w : Nat) (m : Mask) : (c.setId i w m).endHold = c.endHold := by rw [Core.setId_keeps]
@[simp] theorem Core.restart_setId (c : Core) (i w : Nat) (m : Mask) : (c.setId i w m).restart = c.restart := by rw [Core.setId_keeps]
@[simp] theorem Core.stalled_setId (c : Core) (i w : Nat) (m : Mask) : (c.setId i w m).stalled = c.stalled := by rw [Core.setId_keeps]
@[simp] theorem Core.pcEnd_setId (c : Core) (i w : Nat) (m : Mask) : (c.setId i w m).pcEnd = c.pcEnd := by rw [Core.setId_keeps]
@[simp] theorem Core.wait_setId (c : Core) (i w : Nat) (m : Mask) : (c.setId i w m).wait = c.wait := by rw [Core.setId_keeps]
@[simp] theorem Core.arrM_setId (c : Core) (i w : Nat) (m : Mask) : (c.setId i w m).arrM = c.arrM := by rw [Core.setId_keeps]
@[simp] theorem Core.seaM_setId (c : Core) (i w : Nat) (m : Mask) : (c.setId i w m).seaM = c.seaM := by rw [Core.setId_keeps]
@[simp] theorem Core.retM_setId (c : Core) (i w : Nat) (m : Mask) : (c.setId i w m).retM = c.retM := by rw [Core.setId_keeps]
@[simp] theorem Core.gloM_setId (c : Core) (i w : Nat) (m : Mask) : (c.setId i w m).gloM = c.gloM := by rw [Core.setId_keeps]
@[simp] theorem Core.slots_setId (c : Core) (i w : Nat) (m : Mask) : (c.setId i w m).slots = c.slots := by rw [Core.setId_keeps]
@[simp] theorem Core.nextFill_setId (c : Core) (i w : Nat) (m : Mask) : (c.setId i w m).nextFill = c.nextFill := by rw [Core.setId_keeps]
@[simp] theorem Core.relIssued_setId (c : Core) (i w : Nat) (m : Mask) : (c.setId i w m).relIssued = c.relIssued := by rw [Core.setId_keeps]
@[simp] theorem Core.relDone_setId (c : Core) (i w : Nat) (m : Mask) : (c.setId i w m).relDone = c.relDone := by rw [Core.setId_keeps]
@[simp] theorem Core.relCount_setId (c : Core) (i w : Nat) (m : Mask) : (c.setId i w m).relCount = c.relCount := by rw [Core.setId_keeps]
@[simp] theorem Core.noCopy_setId (c : Core) (i w : Nat) (m : Mask) : (c.setId i w m).noCopy = c.noCopy := by rw [Core.setId_keeps]
@[simp] theorem Core.part_setId (c : Core) (i w : Nat) (m : Mask) : (c.setId i w m).part = c.part := by rw [Core.setId_keeps]
@[simp] theorem Core.seen_setId (c : Core) (i w : Nat) (m : Mask) : (c.setId i w m).seen = c.seen := by rw [Core.setId_keeps]
@[simp] theorem Core.bound_setId (c : Core) (i w : Nat) (m : Mask) : (c.setId i w m).bound = c.bound := by rw [Core.setId_keeps]
@[simp] theorem Core.passing_setId (c : Core) (i w : Nat) (m : Mask) : (c.setId i w m).passing = c.passing := by rw [Core.setId_keeps]
@[simp] theorem Core.exports_setId (c : Core) (i w : Nat) (m : Mask) : (c.setId i w m).exports = c.exports := by rw [Core.setId_keeps]
@[simp] theorem Core.gg_setId (c : Core) (i w : Nat) (m : Mask) : (c.setId i w m).gg = c.gg := by rw [Core.setId_keeps]
@[simp] theorem Core.gr_setId (c : Core) (i w : Nat) (m : Mask) : (c.setId i w m).gr = c.gr := by rw [Core.setId_keeps]
@[simp] theorem Core.openSrc_setId (c : Core) (i w : Nat) (m : Mask) : (c.setId i w m).openSrc = c.openSrc := by rw [Core.setId_keeps]
@[simp] theorem Core.greenEv_setId (c : Core) (i w : Nat) (m : Mask) : (c.setId i w m).greenEv = c.greenEv := by rw [Core.setId_keeps]
@[simp] theorem Core.point_setId (c : Core) (i w : Nat) (m : Mask) : (c.setId i w m).point = c.point := by rw [Core.setId_keeps]
@[simp] theorem Core.ptSeq_setId (c : Core) (i w : Nat) (m : Mask) : (c.setId i w m).ptSeq = c.ptSeq := by rw [Core.setId_keeps]
@[simp] theorem Core.cntSince_setId (c : Core) (i w : Nat) (m : Mask) : (c.setId i w m).cntSince = c.cntSince := by rw [Core.setId_keeps]
@[simp] theorem Core.suppress_setId (c : Core) (i w : Nat) (m : Mask) : (c.setId i w m).suppress = c.suppress := by rw [Core.setId_keeps]
@[simp] theorem Core.rolling_setId (c : Core) (i w : Nat) (m : Mask) : (c.setId i w m).rolling = c.rolling := by rw [Core.setId_keeps]
@[simp] theorem Core.glogInForce_setId (c : Core) (i w : Nat) (m : Mask) : (c.setId i w m).glogInForce = c.glogInForce := by rw [Core.setId_keeps]
@[simp] theorem Core.tapInForce_setId (c : Core) (i w : Nat) (m : Mask) : (c.setId i w m).tapInForce = c.tapInForce := by rw [Core.setId_keeps]
@[simp] theorem Core.seg_setId (c : Core) (i w : Nat) (m : Mask) : (c.setId i w m).seg = c.seg := by rw [Core.setId_keeps]
@[simp] theorem Core.segRole_setId (c : Core) (i w : Nat) (m : Mask) : (c.setId i w m).segRole = c.segRole := by rw [Core.setId_keeps]
@[simp] theorem Core.ceTimes_setId (c : Core) (i w : Nat) (m : Mask) : (c.setId i w m).ceTimes = c.ceTimes := by rw [Core.setId_keeps]
@[simp] theorem Core.badTimes_setId (c : Core) (i w : Nat) (m : Mask) : (c.setId i w m).badTimes = c.badTimes := by rw [Core.setId_keeps]

/-- A V register by number after a register write. -/
theorem Core.vreg_setId (c : Core) (i w : Nat) (m : Mask) (r : Nat) (hr : r < 64) :
    (c.setId i w m).vreg r = if r = i then BitVec.ofNat 2048 w else c.vreg r := by
  unfold Core.setId Core.vreg
  by_cases h1 : i < 64
  · simp [h1, SMap.get_set]
  · have hn : ¬ r = i := by omega
    by_cases h2 : i < 96 <;> simp [h1, h2, hn]

/-- A scalar register after a write of a scalar register (R192). -/
theorem Core.scal_setId (c : Core) (d v : Nat) (m : Mask) (hd : d < 48) (r : Nat) (hr : r < 48) :
    (c.setId (if d < 32 then idS d else idX (d - 32)) v m).scal r = if r = d then BitVec.ofNat 64 v else c.scal r := by
  unfold Core.setId idS idX Core.scal
  by_cases h1 : d < 32 <;> by_cases h2 : r < 32
  · simp [h1, h2, Core.sreg, SMap.get_set, show ¬ 64 + d < 64 by omega, show 64 + d < 96 by omega]
  · simp [h1, h2, Core.xreg, show ¬ 64 + d < 64 by omega, show 64 + d < 96 by omega, show ¬ r = d by omega]
  · simp [h1, h2, Core.sreg, show ¬ 96 + (d - 32) < 64 by omega, show ¬ 96 + (d - 32) < 96 by omega, show ¬ r = d by omega]
  · simp [h1, h2, Core.xreg, SMap.get_set, show ¬ 96 + (d - 32) < 64 by omega, show ¬ 96 + (d - 32) < 96 by omega,
      show 96 + (d - 32) - 96 = d - 32 by omega, show (r - 32 = d - 32 ↔ r = d) by omega]

/-- A scalar register write leaves the V registers alone. -/
theorem Core.v_setId (c : Core) (i v : Nat) (m : Mask) (h : 64 ≤ i) : (c.setId i v m).v = c.v := by
  unfold Core.setId
  by_cases h2 : i < 96 <;> simp [show ¬ i < 64 by omega, h2]

/-- An address register after a post-increment (R172). -/
theorem Core.xreg_bumpX (c : Core) (x n : Nat) (m : Mask) (r : Nat) :
    (c.bumpX x n m).xreg r = if r = x then c.xreg x + BitVec.ofNat 64 n else c.xreg r := by
  unfold Core.bumpX Core.setId idX Core.xreg
  simp only [show ¬ 96 + x < 64 by omega, show ¬ 96 + x < 96 by omega, if_false, SMap.get_set, show 96 + x - 96 = x by omega]
  by_cases h : r = x
  · simp only [h, if_true, BitVec.ofNat_add, BitVec.ofNat_toNat, BitVec.setWidth_eq]
  · simp only [h, if_false]

theorem Core.bumpX_keeps (c : Core) (x n : Nat) (m : Mask) :
    c.bumpX x n m = { c with x := (c.bumpX x n m).x, gv := (c.bumpX x n m).gv } := by
  unfold Core.bumpX Core.setId idX
  simp only [show ¬ 96 + x < 64 by omega, show ¬ 96 + x < 96 by omega, if_false]

end Sys2Proof.Machine
end

