-- ==== Sys2Proof/Laws/Fields.lean ====
section
/-! SUPPORT. Bit fields of a 32-bit word: a field read after a field write, and the fields a write leaves alone. -/

namespace Sys2Proof

theorem testBit_bits (x hi lo i : Nat) : (bits x hi lo).testBit i = (decide (i < hi + 1 - lo) && x.testBit (lo + i)) := by
  simp [bits, Nat.testBit_mod_two_pow, Nat.testBit_shiftRight]

theorem testBit_setField (r : W32) (hi lo v i : Nat) (h : hi < 32) :
    (setField r hi lo v).toNat.testBit i = if lo ≤ i ∧ i ≤ hi then v.testBit (i - lo) else r.toNat.testBit i := by
  simp only [BitVec.testBit_toNat, setField]
  simp only [BitVec.getLsbD_or, BitVec.getLsbD_and, BitVec.getLsbD_not, BitVec.getLsbD_ofNat, Nat.testBit_shiftLeft, Nat.testBit_two_pow_sub_one,
    Nat.testBit_mod_two_pow]
  by_cases h1 : lo ≤ i ∧ i ≤ hi
  · have a : i < 32 := by omega
    have b : i - lo < hi + 1 - lo := by omega
    simp [h1, a, b]
  · rw [if_neg h1]
    by_cases h2 : i < 32
    · by_cases h3 : lo ≤ i
      · have b : ¬ i - lo < hi + 1 - lo := by omega
        simp [h2, h3, b]
      · simp [h2, h3]
    · have : r.getLsbD i = false := BitVec.getLsbD_of_ge r i (by omega)
      simp [h2, this]

/-- A field reads back what was written, cut to its width. -/
theorem field_setField (r : W32) (hi lo v : Nat) (h : hi < 32) (hl : lo ≤ hi) : field (setField r hi lo v) hi lo = v % 2 ^ (hi + 1 - lo) := by
  apply Nat.eq_of_testBit_eq
  intro i
  rw [field, testBit_bits, testBit_setField r hi lo v _ h, Nat.testBit_mod_two_pow]
  by_cases h1 : i < hi + 1 - lo
  · have : lo ≤ lo + i ∧ lo + i ≤ hi := by omega
    simp [h1, this]
  · simp [h1]

/-- A field write leaves every field apart from it alone. -/
theorem field_setField_apart (r : W32) (hi lo v hj lj : Nat) (h : hi < 32) (ha : hj < lo ∨ hi < lj) :
    field (setField r hi lo v) hj lj = field r hj lj := by
  apply Nat.eq_of_testBit_eq
  intro i
  rw [field, testBit_bits, field, testBit_bits, testBit_setField r hi lo v _ h]
  by_cases h1 : i < hj + 1 - lj
  · have : ¬ (lo ≤ lj + i ∧ lj + i ≤ hi) := by omega
    simp [h1, this]
  · simp [h1]

/-- A bit of a word with bits set. -/
theorem bit_or (r m : W32) (i : Nat) : bit (r ||| m).toNat i = (bit r.toNat i || bit m.toNat i) := by
  have e : ∀ n : Nat, bit n i = n.testBit i := by intro n; simp only [bit, Nat.testBit_eq_decide_div_mod_eq, Nat.shiftRight_eq_div_pow]; rfl
  rw [e, e, e, BitVec.toNat_or, Nat.testBit_or]

end Sys2Proof
end

