-- ==== Sys2Proof/Laws/Issue.lean ====
section
/-! SUPPORT. What the issue of a bundle can do: the counters it touches, and the bundle of one operation at a calm core. -/

namespace Sys2Proof.Machine

open State

/-! ## Counters -/

/-- Writing registers changes nothing else, write after write. -/
theorem regs_only_trans {s t u : State} (h : t = { s with regs := t.regs }) (k : u = { t with regs := u.regs }) :
    u = { s with regs := u.regs } := by rw [k, h]

theorem setReg_keeps (s : State) (a : Nat) (v : W32) : s.setReg a v = { s with regs := (s.setReg a v).regs } := rfl

theorem setReg64_keeps (s : State) (a v : Nat) : s.setReg64 a v = { s with regs := (s.setReg64 a v).regs } :=
  regs_only_trans (setReg_keeps s a _) (setReg_keeps _ (a + 4) _)

theorem orReg_keeps (s : State) (a : Nat) (m : W32) : s.orReg a m = { s with regs := (s.orReg a m).regs } := setReg_keeps s a _

/-- An event count changes registers of block 5 of its core and nothing else. -/
theorem addPc_keeps (s : State) (p k n : Nat) : s.addPc p k n = { s with regs := (s.addPc p k n).regs } := by
  unfold State.addPc
  simp only
  split
  · exact setReg64_keeps s _ _
  · exact regs_only_trans (setReg64_keeps s _ _) (orReg_keeps _ _ _)

theorem tally_keeps (s : State) (p e n : Nat) : s.tally p e n = { s with regs := (s.tally p e n).regs } := by
  unfold State.tally
  generalize List.range 6 = ks
  induction ks generalizing s with
  | nil => rfl
  | cons k ks ih =>
    simp only [List.foldl_cons]
    split
    · exact regs_only_trans (addPc_keeps s p k n) (ih _)
    · exact ih s

@[simp] theorem core_tally (s : State) (p e n q : Nat) : (s.tally p e n).core q = s.core q :=
  (congrArg (State.core · q) (tally_keeps s p e n)).trans rfl
theorem cores_tally (s : State) (p e n : Nat) : (s.tally p e n).cores = s.cores :=
  (congrArg State.cores (tally_keeps s p e n)).trans rfl

/-- A register address of a core as a number. -/
theorem coreReg_eq (p blk off : Nat) : coreReg p blk off = p / 48 * 67108864 + p % 48 * 1048576 + blk * 65536 + off := rfl

theorem coreReg_add (p blk off n : Nat) : coreReg p blk off + n = coreReg p blk (off + n) := Nat.add_assoc _ _ _

theorem issueRegs_false {p a : Nat} : issueRegs p a = false ↔ a ≠ coreReg p 0 4 ∧ (a < coreReg p 5 0 ∨ coreReg p 6 0 ≤ a) := by
  simp only [issueRegs, Bool.or_eq_false_iff, beq_eq_false_iff_ne, decide_eq_false_iff_not]; omega

/-- Block 5 of core p. -/
theorem blk5 {p a : Nat} (h : issueRegs p a = false) (o : Nat) (ho : o < 65536) : a ≠ coreReg p 5 o := by
  intro e; subst e
  have := (issueRegs_false.1 h).2
  simp only [coreReg_eq] at this; omega

theorem reg_addPc_ne (s : State) {p a : Nat} (h : issueRegs p a = false) (k n : Nat) (hk : k < 6) : (s.addPc p k n).reg a = s.reg a := by
  have h1 := blk5 h (0x40 + 8 * k) (by omega)
  have h2 : a ≠ coreReg p 5 (0x40 + 8 * k) + 4 := by
    rw [coreReg_add]; exact blk5 h _ (by omega)
  have h3 := blk5 h 0xC (by omega)
  unfold State.addPc State.setReg64
  simp only
  split <;> simp [reg_setReg, reg_orReg, h1, h2, h3]

theorem reg_tally_ne (s : State) {p a : Nat} (h : issueRegs p a = false) (e n : Nat) : (s.tally p e n).reg a = s.reg a := by
  unfold State.tally
  have : ∀ ks : List Nat, (∀ k ∈ ks, k < 6) → ∀ s : State,
      (ks.foldl (fun s k => if s.pcOn p k && (s.reg (coreReg p 5 (0x10 + 4 * k))).toNat % 512 == e then s.addPc p k n else s) s).reg a = s.reg a := by
    intro ks
    induction ks with
    | nil => intros; rfl
    | cons k ks ih =>
      intro hk s
      simp only [List.foldl_cons]
      rw [ih (fun x hx => hk x (List.mem_cons_of_mem _ hx))]
      split
      · exact reg_addPc_ne s h k n (hk k List.mem_cons_self)
      · rfl
  exact this _ (fun k hk => List.mem_range.1 hk) s

/-- A count leaves every register outside block 5 of its core. -/
theorem reg_tally_out (s : State) {p a : Nat} (h : a < coreReg p 5 0 ∨ coreReg p 6 0 ≤ a) (e n : Nat) : (s.tally p e n).reg a = s.reg a := by
  by_cases h' : a = coreReg p 0 4
  · subst h'
    unfold State.tally
    refine State.foldl_keeps (fun s => s.reg (coreReg p 0 4)) _ _ _ ?_
    intro u k
    split
    · unfold State.addPc State.setReg64
      have h1 : coreReg p 0 4 ≠ coreReg p 5 (0x40 + 8 * k) := by simp only [coreReg_eq]; omega
      have h2 : coreReg p 0 4 ≠ coreReg p 5 (0x40 + 8 * k) + 4 := by simp only [coreReg_eq]; omega
      have h3 : coreReg p 0 4 ≠ coreReg p 5 0xC := by simp only [coreReg_eq]; omega
      simp only
      split <;> simp [reg_setReg, reg_orReg, h1, h2, h3]
    · rfl
  · exact reg_tally_ne s (issueRegs_false.2 ⟨h', h⟩) e n

@[simp] theorem pc_tally (s : State) (p e n : Nat) : (s.tally p e n).pc p = s.pc p := by
  unfold State.pc State.fld
  rw [reg_tally_out]
  simp only [coreReg_eq]; omega

/-! ## A calm core -/

theorem regMask_nil {c : Core} (h : c.gv = []) (id : Nat) : c.regMask id = 0 := by simp [Core.regMask, h]

theorem regsMask_nil {c : Core} (h : c.gv = []) (ids : List Nat) : c.regsMask ids = 0 := by
  unfold Core.regsMask
  induction ids with
  | nil => rfl
  | cons i is ih => simpa [regMask_nil h] using ih

theorem calm_iff (s : State) (p : Nat) : s.calm p = true ↔
    p < 2880 ∧ s.running p = true ∧ s.mayIssue p = true ∧ (s.core p).pcEnd = false ∧ (s.core p).feet = [] ∧ (s.core p).seasoned = true := by
  simp [State.calm, and_assoc]

/-- What a core with nothing green holds. -/
theorem seasoned_parts {c : Core} (h : c.seasoned = true) :
    c.point = none ∧ c.openSrc = 0 ∧ c.suppress = [] ∧ c.gv = [] ∧ c.gg = [] ∧ c.gr = [] ∧ c.tileMask = 0 := by
  simp only [Core.seasoned, Core.anyGreen] at h
  simp at h
  simp_all

/-- What a core with nothing in flight holds. -/
theorem feet_parts {c : Core} (h : c.feet = []) : c.mulX = none ∧ c.mulP = none ∧ c.epiX = none ∧ c.epiP = none ∧ c.vpipe = [] ∧
    c.dtX = none ∧ c.dtP = none ∧ c.scq = [] ∧ c.xfers = [] := by
  simpa [Core.feet, and_assoc] using h

theorem memMask_nil {c : Core} (h : c.seasoned = true) (a n : Nat) : c.memMask a n = 0 := by
  have hg : c.gg = [] := (seasoned_parts h).2.2.2.2.1
  have hs : ∀ k, (c.slot k).green = false := by
    simp only [Core.seasoned, Bool.and_eq_true, List.all_eq_true] at h
    have h5 := h.2
    intro k
    unfold Core.slot
    generalize c.slots = m at h5
    induction m with
    | nil => rfl
    | cons e m ih =>
      obtain ⟨j, t⟩ := e
      simp only [SMap.get]
      split
      · simpa using h5 (j, t) List.mem_cons_self
      · exact ih (fun x hx => h5 x (List.mem_cons_of_mem _ hx))
  unfold Core.memMask Core.slotMask
  rw [hg, List.foldl_nil]
  generalize c.slotsOf a n = ks
  induction ks with
  | nil => rfl
  | cons k ks ih => simpa [hs] using ih

theorem predMask_nil {c : Core} (h : c.gv = []) (a : Act) (hd : Hdr) : a.predMask hd c = 0 := by
  unfold Act.predMask; split <;> simp [regMask_nil h]

/-- The inputs of an act at a calm core are green only by its own mask. -/
theorem inputs_calm {c : Core} (h : c.seasoned = true) (a : Act) (hd : Hdr) : a.inputs hd c = a.mask := by
  have hv := (seasoned_parts h).2.2.2.1
  simp [Act.inputs, regsMask_nil hv, predMask_nil hv]

/-- A bundle of one operation whose act issues at a calm core with no green input is committed, with no rollback point. -/
theorem issueAt_calm (s : State) (p : Nat) (h : Hdr) (a : Act) (hi : s.issues p h a = true) (hm : a.mask = 0)
    (hx : predHolds h (s.core p) = true ∨ a.exempt = true) :
    s.issueAt p h [a] = (s.setCore p (s.core p)).commitBundle p h false [(a, false)] (s.pc p) := by
  simp only [State.issues, Bool.and_eq_true] at hi
  obtain ⟨⟨⟨⟨⟨⟨hc, -⟩, hf⟩, hh⟩, hr⟩, he⟩, hp⟩ := hi
  obtain ⟨-, -, -, hend, hfeet, hsea⟩ := (calm_iff s p).1 hc
  obtain ⟨hpt, hop, hsup, hgv, -, -, -⟩ := seasoned_parts hsea
  have hpend : (s.core p).pendRegs = [] := by simp [Core.pendRegs, hfeet]
  have hf' : a.fault = none := by simpa using hf
  have hh' : a.hold = 0 := by simpa using hh
  have hp' : a.predOp = false := by simpa using hp
  have he' : a.foot.rw.any (fun n => s.exporting p n) = false := by simpa using he
  have hrun : (if predHolds h (s.core p) = true then [a] else [a].filter (fun a => a.exempt)) = [a] := by
    rcases hx with hx | hx <;> simp [hx]
  have hdrop : ∀ b, (s.core p).dropPoint b = s.core p := by intro b; simp [Core.dropPoint, hpt]
  have hon : ∀ b, (s.onCore p (fun c => c.dropPoint b)) = s.setCore p (s.core p) := by
    intro b; simp only [State.onCore, hdrop]
  have hcore : (s.setCore p (s.core p)).core p = s.core p := core_setCore_same s p _
  have hin : a.inputs h (s.core p) = 0 := by rw [inputs_calm hsea, hm]
  have hgr : a.greenHeld h (s.core p) true = false := by
    unfold Act.greenHeld
    cases a.seasoned <;> simp
    cases a.seaRegs with
    | none => simp [hin]
    | some rs => simp [regsMask_nil hgv, predMask_nil hgv]
  have hpm : a.predMask h (s.core p) = 0 := predMask_nil hgv a h
  have hcon : (s.setCore p (s.core p)).conflict p a = false := by
    simp only [State.conflict, hcore, hfeet, List.any_nil, Bool.or_false]
    exact he'
  unfold State.issueAt
  simp only [hend, hpend, hrun, hon, hcore]
  rcases hx with hx | hx <;> simp [hsup, markSup, hf', hh', hr, hcon, hin, hpt, hop, hp', hgr, hpm, hx, meets]

/-! ## What a committed bundle of one operation does -/

/-- BookOnly from its parts: what became of the point's reserved lines, and that no other field differs. -/
theorem BookOnly.of {c d : Core} (r : Nat) (hp : d.point = c.point.map (fun q => { q with res := r }))
    (h : d = { c with point := d.point, cntSince := d.cntSince, suppress := d.suppress, wait := d.wait, logWaited := d.logWaited,
                      stalled := d.stalled, seg := d.seg, segRole := d.segRole, loops := d.loops, pcEnd := d.pcEnd }) : BookOnly c d := by
  have hr : c.point.map (fun q => { q with res := d.resOf }) = d.point := by
    unfold Core.resOf; rw [hp]; cases c.point <;> rfl
  unfold BookOnly; rw [hr]; exact h

/-- BookOnly where the point stays as it is. -/
theorem BookOnly.keep {c d : Core} (hp : d.point = c.point)
    (h : d = { c with point := d.point, cntSince := d.cntSince, suppress := d.suppress, wait := d.wait, logWaited := d.logWaited,
                      stalled := d.stalled, seg := d.seg, segRole := d.segRole, loops := d.loops, pcEnd := d.pcEnd }) : BookOnly c d :=
  .of c.resOf (by rw [hp]; unfold Core.resOf; cases c.point <;> rfl) h

theorem BookOnly.trans {c d e : Core} (h : BookOnly c d) (k : BookOnly d e) : BookOnly c e := by
  obtain ⟨r, hr⟩ : ∃ r, d.point = c.point.map (fun q => { q with res := r }) := ⟨_, congrArg Core.point h⟩
  unfold BookOnly at *
  rw [k, hr]
  rw [h]
  cases c.point <;> rfl

@[simp] theorem core_setPc (s : State) (p n q : Nat) : (s.setPc p n).core q = s.core q := by simp only [State.setPc, core_setFld]

/-- The advance of the PC past bundle b writes the loop state of its core, the mark past the last bundle, and CORE_PC. -/
theorem advance_core (s : State) (p b q : Nat) :
    (s.advance p b).core q =
      if q = p then { s.core p with loops := (loopEnd (s.core p).loops b).2, pcEnd := ((s.advance p b).core p).pcEnd } else s.core q := by
  unfold State.advance
  generalize loopEnd (s.core p).loops b = r
  obtain ⟨x, ls⟩ := r
  by_cases hq : q = p
  · subst hq
    rw [if_pos rfl]
    cases x with
    | some t => simp only [core_setPc, core_onCore_same]
    | none =>
      by_cases hb : 8191 ≤ b
      · simp only [if_pos hb, core_onCore_same, core_setPc]
      · simp only [if_neg hb, core_setPc, core_onCore_same]
  · rw [if_neg hq]
    cases x with
    | some t => simp only [core_setPc, core_onCore_ne _ _ hq]
    | none =>
      by_cases hb : 8191 ≤ b
      · simp only [if_pos hb, core_onCore_ne _ _ hq, core_setPc]
      · simp only [if_neg hb, core_setPc, core_onCore_ne _ _ hq]

theorem booked_bookOnly (c : Core) (b : Nat) (acts : List (Act × Bool)) (seg : Option Nat) : BookOnly c (c.booked b acts seg) := by
  unfold BookOnly Core.booked Core.resOf
  cases c.point <;> rfl

theorem advance_bookOnly (s : State) (p b : Nat) : BookOnly (s.core p) ((s.advance p b).core p) := by
  rw [advance_core, if_pos rfl]; exact .keep rfl rfl

theorem closeIssue_bookOnly (s : State) (p vx last : Nat) : BookOnly (s.core p) ((s.closeIssue p vx last).core p) := by
  unfold State.closeIssue
  simp only
  split
  · simp only [core_setFld, core_tally]; exact .keep rfl rfl
  · refine BookOnly.trans ?_ (advance_bookOnly _ _ _)
    simp only [core_setFld, core_tally]; exact .keep rfl rfl

theorem closeIssue_other (s : State) {p q : Nat} (vx last : Nat) (h : q ≠ p) : (s.closeIssue p vx last).core q = s.core q := by
  unfold State.closeIssue
  simp only
  split
  · simp only [core_setFld, core_tally]
  · rw [advance_core, if_neg h]; simp only [core_setFld, core_tally]

/-- One act runs: its post-increments, then its effect. -/
theorem runActs_one (s : State) (p : Nat) (h : Hdr) (c0 : Core) (a : Act) :
    s.runActs p h c0 [(a, false)] = a.eff (a.inputs h c0) (s.onCore p (a.inc (a.inputs h c0))) := rfl

/-- A committed bundle of one operation leaves its core as its effect left it, but for the issue's bookkeeping. -/
theorem commit_one_core (s : State) (p : Nat) (h : Hdr) (a : Act) (b : Nat) :
    BookOnly ((a.eff (a.inputs h (s.core p)) ((s.setCore p (s.core p)).onCore p (a.inc (a.inputs h (s.core p))))).core p)
      ((s.commitBundle p h false [(a, false)] b).core p) := by
  unfold State.commitBundle
  refine BookOnly.trans ?_ (closeIssue_bookOnly _ _ _ _)
  simp only [runActs_one, core_onCore_same]
  exact booked_bookOnly _ _ _ _

/-- The issue at p of a lone act leaves every other core as the act's effect left it. -/
theorem commit_one_other (s : State) {p q : Nat} (h : Hdr) (a : Act) (b : Nat) (hq : q ≠ p) :
    (s.commitBundle p h false [(a, false)] b).core q =
      (a.eff (a.inputs h (s.core p)) ((s.setCore p (s.core p)).onCore p (a.inc (a.inputs h (s.core p))))).core q := by
  unfold State.commitBundle
  simp only [runActs_one]
  rw [closeIssue_other _ _ _ hq, core_onCore_ne _ _ hq]
  rfl


/-! ## CORE_PC and the registers after an issue -/

theorem pc_setPc (s : State) (p n : Nat) : (s.setPc p n).pc p = n % 8192 := by
  simp only [State.pc, State.setPc, State.fld, reg_setFld, if_pos]
  exact field_setField _ 12 0 n (by omega) (by omega)

theorem pc_onCore (s : State) (p q : Nat) (f : Core → Core) : (s.onCore q f).pc p = s.pc p := (rfl)

theorem loopEnd_idle (ls : List LoopSt) (b : Nat) (h : ls.all (fun l => !l.active) = true) : loopEnd ls b = (none, ls) := by
  induction ls with
  | nil => rfl
  | cons l ls ih =>
    simp only [List.all_cons, Bool.and_eq_true, Bool.not_eq_true'] at h
    simp [loopEnd, h.1, ih h.2]

theorem advance_plain (s : State) (p b : Nat) (h : (s.core p).loops.all (fun l => !l.active) = true) (hb : b < 8191) :
    (s.advance p b).pc p = b + 1 := by
  unfold State.advance
  rw [loopEnd_idle _ _ h]
  have : ¬ 8191 ≤ b := by omega
  simp only [if_neg this]
  rw [pc_setPc]
  omega

theorem reg_setPc_ne (s : State) {p a : Nat} (n : Nat) (h : a ≠ coreReg p 0 4) : (s.setPc p n).reg a = s.reg a := by
  simp only [State.setPc]; exact reg_setFld_ne s 12 0 n h

theorem advance_reg (s : State) {p a : Nat} (b : Nat) (h : a ≠ coreReg p 0 4) : (s.advance p b).reg a = s.reg a := by
  unfold State.advance
  generalize loopEnd (s.core p).loops b = r
  obtain ⟨x, ls⟩ := r
  cases x with
  | some t => simp only [reg_setPc_ne _ _ h, reg_onCore]
  | none =>
    by_cases hb : 8191 ≤ b
    · simp only [if_pos hb, reg_setPc_ne _ _ h, reg_onCore]
    · simp only [if_neg hb, reg_setPc_ne _ _ h, reg_onCore]

theorem closeIssue_reg (s : State) {p a : Nat} (vx last : Nat) (h : issueRegs p a = false) : (s.closeIssue p vx last).reg a = s.reg a := by
  have h4 := (issueRegs_false.1 h).1
  unfold State.closeIssue
  simp only
  split
  · rw [reg_setFld_ne _ _ _ _ h4, reg_tally_ne _ h, reg_tally_ne _ h, reg_setFld_ne _ _ _ _ h4]
  · rw [advance_reg _ _ h4, reg_tally_ne _ h, reg_tally_ne _ h, reg_setFld_ne _ _ _ _ h4]

theorem closeIssue_plain (s : State) (p vx last : Nat) (h : (s.core p).loops.all (fun l => !l.active) = true) (hl : last < 8191)
    (he : (s.core p).endHold = false) : (s.closeIssue p vx last).pc p = last + 1 := by
  unfold State.closeIssue
  simp only [core_tally, core_setFld, he, Bool.false_eq_true, if_false]
  exact advance_plain _ _ _ (by simpa only [core_tally, core_setFld] using h) hl

/-! ## What an issue cannot reach -/

/-- Between s and t only cores and registers differ. -/
def CoreRegs (s t : State) : Prop := t = { s with cores := t.cores, regs := t.regs }

theorem CoreRegs.trans {s t u : State} (h : CoreRegs s t) (k : CoreRegs t u) : CoreRegs s u := by
  unfold CoreRegs at *; rw [k, h]

theorem coreRegs_setReg (s : State) (a : Nat) (v : W32) : CoreRegs s (s.setReg a v) := rfl
theorem coreRegs_onCore (s : State) (p : Nat) (f : Core → Core) : CoreRegs s (s.onCore p f) := rfl
theorem coreRegs_setCore (s : State) (p : Nat) (c : Core) : CoreRegs s (s.setCore p c) := rfl
theorem coreRegs_setFld (s : State) (a hi lo v : Nat) : CoreRegs s (s.setFld a hi lo v) := coreRegs_setReg s a _
theorem coreRegs_orReg (s : State) (a : Nat) (m : W32) : CoreRegs s (s.orReg a m) := coreRegs_setReg s a _
theorem coreRegs_setPc (s : State) (p n : Nat) : CoreRegs s (s.setPc p n) := coreRegs_setFld s _ _ _ _
theorem coreRegs_tally (s : State) (p e n : Nat) : CoreRegs s (s.tally p e n) := by
  have h := tally_keeps s p e n
  unfold CoreRegs
  exact h.trans (by rw [cores_tally])

theorem coreRegs_advance (s : State) (p b : Nat) : CoreRegs s (s.advance p b) := by
  unfold State.advance
  generalize loopEnd (s.core p).loops b = r
  obtain ⟨x, ls⟩ := r
  cases x with
  | some t => exact (coreRegs_onCore s p _).trans (coreRegs_setPc _ p t)
  | none =>
    by_cases hb : 8191 ≤ b
    · simp only [if_pos hb]; exact ((coreRegs_onCore s p _).trans (coreRegs_setPc _ p _)).trans (coreRegs_onCore _ p _)
    · simp only [if_neg hb]; exact (coreRegs_onCore s p _).trans (coreRegs_setPc _ p _)

theorem coreRegs_closeIssue (s : State) (p vx last : Nat) : CoreRegs s (s.closeIssue p vx last) := by
  unfold State.closeIssue
  have h := ((coreRegs_setFld s (coreReg p 0 4) 16 13 0).trans (coreRegs_tally _ p 1 1)).trans (coreRegs_tally _ p 0xC vx)
  simp only
  split
  · exact h.trans (coreRegs_setFld _ _ _ _ _)
  · exact h.trans (coreRegs_advance _ p last)

/-- The issue of a core act changes its core, CORE_PC and the core's counters, and nothing else. -/
theorem commit_sameBut (s : State) (p : Nat) (h : Hdr) (a : Act) (b : Nat)
    (ha : ∃ f : Core → Core, ∀ u : State, a.eff (a.inputs h (s.core p)) u = u.onCore p f) :
    SameBut p s ((s.setCore p (s.core p)).commitBundle p h false [(a, false)] b) := by
  obtain ⟨f, hf⟩ := ha
  refine ⟨?_, ?_, ?_⟩
  · unfold State.commitBundle
    have h1 := (((coreRegs_setCore s p (s.core p)).trans (coreRegs_onCore _ p (fun c => c))).trans
      (coreRegs_onCore _ p (a.inc (a.inputs h (s.core p))))).trans (coreRegs_onCore _ p f)
    refine CoreRegs.trans ?_ (coreRegs_closeIssue _ _ _ _)
    refine CoreRegs.trans ?_ (coreRegs_onCore _ _ _)
    simp only [core_setCore_same, Bool.false_eq_true, if_false, runActs_one]
    have e : State.onCore (s.setCore p (s.core p)) p (fun c => c) = (s.setCore p (s.core p)).setCore p (s.core p) := by
      simp only [State.onCore, core_setCore_same]
    rw [e, hf]
    rw [e] at h1
    exact h1
  · intro q hq
    rw [commit_one_other _ h a b hq]
    simp only [core_setCore_same]
    rw [hf, core_onCore_ne _ _ hq, core_onCore_ne _ _ hq, core_setCore_ne _ _ hq, core_setCore_ne _ _ hq]
  · intro r hr
    unfold State.commitBundle
    rw [closeIssue_reg _ _ _ hr]
    simp only [core_setCore_same, Bool.false_eq_true, if_false, runActs_one, reg_onCore]
    have e : State.onCore (s.setCore p (s.core p)) p (fun c => c) = (s.setCore p (s.core p)).setCore p (s.core p) := by
      simp only [State.onCore, core_setCore_same]
    rw [e, hf]
    simp only [reg_onCore, reg_setCore]

/-- The command of one operation that issues at a calm core with no green input. -/
theorem issue_calm (s : State) (p : Nat) (h : Hdr) (act : State → Nat → Act) (hi : s.issues p h (act s p) = true)
    (hm : (act s p).mask = 0) :
    issue p h act s = .next ((s.setCore p (s.core p)).commitBundle p h false [(act s p, false)] (s.pc p)) := by
  have hc : s.calm p = true := by
    simp only [State.issues, Bool.and_eq_true] at hi; exact hi.1.1.1.1.1.1
  have hx : predHolds h (s.core p) = true ∨ (act s p).exempt = true := by
    simp only [State.issues, Bool.and_eq_true, Bool.or_eq_true] at hi; exact hi.1.1.1.1.1.2
  obtain ⟨hp, hr, hm', -⟩ := (calm_iff s p).1 hc
  unfold issue
  rw [if_neg (by omega), if_pos (by simp [hr, hm']), issueAt_calm s p h _ hi hm hx]

/-- What the issue of a lone act does when its post-increments are g and its effect is f on its core: the core ends as f (g c) but for
bookkeeping, nothing outside the core changes, and the next bundle follows. -/
theorem issue_core {s : State} {p : Nat} {h : Hdr} {act : State → Nat → Act} {f g : Core → Core}
    (hi : s.issues p h (act s p) = true) (hm : (act s p).mask = 0) (hg : (act s p).inc 0 = g)
    (hf : ∀ u : State, (act s p).eff 0 u = u.onCore p f) (hl : (act s p).last = none) :
    ∃ t, issue p h act s = .next t ∧ BookOnly (f (g (s.core p))) (t.core p) ∧ SameBut p s t ∧
      ((f (g (s.core p))).endHold = false → (f (g (s.core p))).loops = (s.core p).loops → NextBundle p s t) := by
  have hc : s.calm p = true := by
    simp only [State.issues, Bool.and_eq_true] at hi; exact hi.1.1.1.1.1.1
  obtain ⟨-, -, -, -, -, hsea⟩ := (calm_iff s p).1 hc
  have hin : (act s p).inputs h (s.core p) = 0 := by rw [inputs_calm hsea, hm]
  refine ⟨_, issue_calm s p h act hi hm, ?_, ?_, ?_⟩
  · have := commit_one_core (s.setCore p (s.core p)) p h (act s p) (s.pc p)
    simpa only [core_setCore_same, hin, hg, hf, core_onCore_same] using this
  · exact commit_sameBut s p h _ _ ⟨f, fun u => by rw [hin]; exact hf u⟩
  · intro he hlp hpl
    simp only [State.plainNext, Bool.and_eq_true, decide_eq_true_eq] at hpl
    unfold State.commitBundle
    simp only [List.findSome?_cons, hl, Option.getD_none, List.findSome?_nil]
    apply closeIssue_plain
    · simp only [core_onCore_same, Core.booked, core_setCore_same, Bool.false_eq_true, if_false, runActs_one, hin, hg, hf, hlp]
      exact hpl.1
    · exact hpl.2
    · simp only [core_onCore_same, Core.booked, core_setCore_same, Bool.false_eq_true, if_false, runActs_one, hin, hg, hf, he]

/-- At a calm core the end of step does not hold. -/
theorem calm_endHold {s : State} {p : Nat} (h : s.calm p = true) : (s.core p).endHold = false := by
  obtain ⟨-, -, hm, -⟩ := (calm_iff s p).1 h
  simp only [State.mayIssue, Bool.and_eq_true, Bool.not_eq_true'] at hm
  exact hm.2

end Sys2Proof.Machine
end

