-- ==== Sys2Proof/Laws/PerInstr.lean ====
section
/-! SUPPORT. Per command, as syntax: what encodes in a bundle does so in one of the five slots of Table 7.1. -/

namespace Sys2Proof.Laws.SlotFits

/-- The slot a command encodes into is one of the bundle's five (R166). -/
def Statement (i : Instr) : Prop := ∀ k w, encodeSlot i = some (k, w) → k < 5

theorem lds (p : Nat) (h : Hdr) (f : LdF) : Statement (Instr.lds p h f) := by intro k w e; cases e; try decide
theorem ldst (p : Nat) (h : Hdr) (f : LdF) : Statement (Instr.ldst p h f) := by intro k w e; cases e; try decide
theorem strm (p : Nat) (h : Hdr) (f : StrmF) : Statement (Instr.strm p h f) := by intro k w e; cases e; try decide
theorem strd (p : Nat) (h : Hdr) (f : StrdF) : Statement (Instr.strd p h f) := by intro k w e; cases e; try decide
theorem epi (p : Nat) (h : Hdr) (f : EpiF) : Statement (Instr.epi p h f) := by intro k w e; cases e; try decide
theorem sclr (p : Nat) (h : Hdr) (f : SclrF) : Statement (Instr.sclr p h f) := by intro k w e; cases e; try decide
theorem sexp (p : Nat) (h : Hdr) (f : SexpF) : Statement (Instr.sexp p h f) := by intro k w e; cases e; try decide
theorem vmov (p : Nat) (h : Hdr) (f : VxF) : Statement (Instr.vmov p h f) := by intro k w e; cases e; try decide
theorem vadd (p : Nat) (h : Hdr) (f : VxF) : Statement (Instr.vadd p h f) := by intro k w e; cases e; try decide
theorem vsub (p : Nat) (h : Hdr) (f : VxF) : Statement (Instr.vsub p h f) := by intro k w e; cases e; try decide
theorem vmul (p : Nat) (h : Hdr) (f : VxF) : Statement (Instr.vmul p h f) := by intro k w e; cases e; try decide
theorem vfma (p : Nat) (h : Hdr) (f : VxF) : Statement (Instr.vfma p h f) := by intro k w e; cases e; try decide
theorem vfnma (p : Nat) (h : Hdr) (f : VxF) : Statement (Instr.vfnma p h f) := by intro k w e; cases e; try decide
theorem vmin (p : Nat) (h : Hdr) (f : VxF) : Statement (Instr.vmin p h f) := by intro k w e; cases e; try decide
theorem vmax (p : Nat) (h : Hdr) (f : VxF) : Statement (Instr.vmax p h f) := by intro k w e; cases e; try decide
theorem vamx (p : Nat) (h : Hdr) (f : VxF) : Statement (Instr.vamx p h f) := by intro k w e; cases e; try decide
theorem vcmp (p : Nat) (h : Hdr) (f : VxF) : Statement (Instr.vcmp p h f) := by intro k w e; cases e; try decide
theorem vsel (p : Nat) (h : Hdr) (f : VxF) : Statement (Instr.vsel p h f) := by intro k w e; cases e; try decide
theorem vdiv (p : Nat) (h : Hdr) (f : VxF) : Statement (Instr.vdiv p h f) := by intro k w e; cases e; try decide
theorem vsqrt (p : Nat) (h : Hdr) (f : VxF) : Statement (Instr.vsqrt p h f) := by intro k w e; cases e; try decide
theorem vhsum (p : Nat) (h : Hdr) (f : VxF) : Statement (Instr.vhsum p h f) := by intro k w e; cases e; try decide
theorem vhssq (p : Nat) (h : Hdr) (f : VxF) : Statement (Instr.vhssq p h f) := by intro k w e; cases e; try decide
theorem vhamx (p : Nat) (h : Hdr) (f : VxF) : Statement (Instr.vhamx p h f) := by intro k w e; cases e; try decide
theorem vspl (p : Nat) (h : Hdr) (f : VxF) : Statement (Instr.vspl p h f) := by intro k w e; cases e; try decide
theorem vcvt (p : Nat) (h : Hdr) (f : VxF) : Statement (Instr.vcvt p h f) := by intro k w e; cases e; try decide
theorem vrupd (p : Nat) (h : Hdr) (f : VxF) : Statement (Instr.vrupd p h f) := by intro k w e; cases e; try decide
theorem vrcmb (p : Nat) (h : Hdr) (f : VxF) : Statement (Instr.vrcmb p h f) := by intro k w e; cases e; try decide
theorem vvarp (p : Nat) (h : Hdr) (f : VxF) : Statement (Instr.vvarp p h f) := by intro k w e; cases e; try decide
theorem vvars (p : Nat) (h : Hdr) (f : VxF) : Statement (Instr.vvars p h f) := by intro k w e; cases e; try decide
theorem vrng (p : Nat) (h : Hdr) (f : VxF) : Statement (Instr.vrng p h f) := by intro k w e; cases e; try decide
theorem vand (p : Nat) (h : Hdr) (f : VxF) : Statement (Instr.vand p h f) := by intro k w e; cases e; try decide
theorem vor (p : Nat) (h : Hdr) (f : VxF) : Statement (Instr.vor p h f) := by intro k w e; cases e; try decide
theorem vxor (p : Nat) (h : Hdr) (f : VxF) : Statement (Instr.vxor p h f) := by intro k w e; cases e; try decide
theorem dtld (p : Nat) (h : Hdr) (f : DtF) : Statement (Instr.dtld p h f) := by intro k w e; cases e; try decide
theorem dtclr (p : Nat) (h : Hdr) (f : DtF) : Statement (Instr.dtclr p h f) := by intro k w e; cases e; try decide
theorem dtmat (p : Nat) (h : Hdr) (f : DtF) : Statement (Instr.dtmat p h f) := by intro k w e; cases e; try decide
theorem dtstr (p : Nat) (h : Hdr) (f : DtF) : Statement (Instr.dtstr p h f) := by intro k w e; cases e; try decide
theorem dtgat (p : Nat) (h : Hdr) (f : DtF) : Statement (Instr.dtgat p h f) := by intro k w e; cases e; try decide
theorem dtgatCheck (p : Nat) (h : Hdr) (f : DtF) : Statement (Instr.dtgatCheck p h f) := by intro k w e; cases e; try decide
theorem dtsct (p : Nat) (h : Hdr) (f : DtF) : Statement (Instr.dtsct p h f) := by intro k w e; cases e; try decide
theorem dtsrt (p : Nat) (h : Hdr) (f : DtF) : Statement (Instr.dtsrt p h f) := by intro k w e; cases e; try decide
theorem dtcmp (p : Nat) (h : Hdr) (f : DtF) : Statement (Instr.dtcmp p h f) := by intro k w e; cases e; try decide
theorem dtexp (p : Nat) (h : Hdr) (f : DtF) : Statement (Instr.dtexp p h f) := by intro k w e; cases e; try decide
theorem mcpy (p : Nat) (h : Hdr) (f : MvF) : Statement (Instr.mcpy p h f) := by intro k w e; cases e; try decide
theorem msld (p : Nat) (h : Hdr) (f : MvF) : Statement (Instr.msld p h f) := by intro k w e; cases e; try decide
theorem msst (p : Nat) (h : Hdr) (f : MvF) : Statement (Instr.msst p h f) := by intro k w e; cases e; try decide
theorem msend (p : Nat) (h : Hdr) (f : MvF) : Statement (Instr.msend p h f) := by intro k w e; cases e; try decide
theorem msrd (p : Nat) (h : Hdr) (f : MvF) : Statement (Instr.msrd p h f) := by intro k w e; cases e; try decide
theorem mswr (p : Nat) (h : Hdr) (f : MvF) : Statement (Instr.mswr p h f) := by intro k w e; cases e; try decide
theorem moveTransferDone (p : Nat) : Statement (Instr.moveTransferDone p) := by intro k w e; cases e; try decide
theorem msendDelivery (p : Nat) (t : Nat) : Statement (Instr.msendDelivery p t) := by intro k w e; cases e; try decide
theorem waitm (p : Nat) (h : Hdr) (f : WaitmF) : Statement (Instr.waitm p h f) := by intro k w e; cases e; try decide
theorem waitr (p : Nat) (h : Hdr) (f : CtrF) : Statement (Instr.waitr p h f) := by intro k w e; cases e; try decide
theorem bara (p : Nat) (h : Hdr) (f : BarF) : Statement (Instr.bara p h f) := by intro k w e; cases e; try decide
theorem barw (p : Nat) (h : Hdr) (f : BarF) : Statement (Instr.barw p h f) := by intro k w e; cases e; try decide
theorem fence (p : Nat) (h : Hdr) : Statement (Instr.fence p h) := by intro k w e; cases e; try decide
theorem loop (p : Nat) (h : Hdr) (f : LoopF) : Statement (Instr.loop p h f) := by intro k w e; cases e; try decide
theorem mstr (p : Nat) (h : Hdr) (f : MstrF) : Statement (Instr.mstr p h f) := by intro k w e; cases e; try decide
theorem trel (p : Nat) (h : Hdr) : Statement (Instr.trel p h) := by intro k w e; cases e; try decide
theorem endstep (p : Nat) (h : Hdr) : Statement (Instr.endstep p h) := by intro k w e; cases e; try decide
theorem logv (p : Nat) (h : Hdr) (f : LogF) : Statement (Instr.logv p h f) := by intro k w e; cases e; try decide
theorem rcset (p : Nat) (h : Hdr) (f : CtrF) : Statement (Instr.rcset p h f) := by intro k w e; cases e; try decide
theorem sadd (p : Nat) (h : Hdr) (f : ScalF) : Statement (Instr.sadd p h f) := by intro k w e; cases e; try decide
theorem ssub (p : Nat) (h : Hdr) (f : ScalF) : Statement (Instr.ssub p h f) := by intro k w e; cases e; try decide
theorem smul (p : Nat) (h : Hdr) (f : ScalF) : Statement (Instr.smul p h f) := by intro k w e; cases e; try decide
theorem sand (p : Nat) (h : Hdr) (f : ScalF) : Statement (Instr.sand p h f) := by intro k w e; cases e; try decide
theorem sor (p : Nat) (h : Hdr) (f : ScalF) : Statement (Instr.sor p h f) := by intro k w e; cases e; try decide
theorem sxor (p : Nat) (h : Hdr) (f : ScalF) : Statement (Instr.sxor p h f) := by intro k w e; cases e; try decide
theorem sshl (p : Nat) (h : Hdr) (f : ScalF) : Statement (Instr.sshl p h f) := by intro k w e; cases e; try decide
theorem sshr (p : Nat) (h : Hdr) (f : ScalF) : Statement (Instr.sshr p h f) := by intro k w e; cases e; try decide
theorem sceq (p : Nat) (h : Hdr) (f : ScalF) : Statement (Instr.sceq p h f) := by intro k w e; cases e; try decide
theorem sclt (p : Nat) (h : Hdr) (f : ScalF) : Statement (Instr.sclt p h f) := by intro k w e; cases e; try decide
theorem saddi (p : Nat) (h : Hdr) (f : ScalI) : Statement (Instr.saddi p h f) := by intro k w e; cases e; try decide
theorem sxori (p : Nat) (h : Hdr) (f : ScalI) : Statement (Instr.sxori p h f) := by intro k w e; cases e; try decide
theorem sli (p : Nat) (h : Hdr) (f : ScalI) : Statement (Instr.sli p h f) := by intro k w e; cases e; try decide
theorem slui (p : Nat) (h : Hdr) (f : ScalI) : Statement (Instr.slui p h f) := by intro k w e; cases e; try decide
theorem sld (p : Nat) (h : Hdr) (f : ScalI) : Statement (Instr.sld p h f) := by intro k w e; cases e; try decide
theorem sst (p : Nat) (h : Hdr) (f : ScalI) : Statement (Instr.sst p h f) := by intro k w e; cases e; try decide
theorem srd (p : Nat) (h : Hdr) (f : ScalI) : Statement (Instr.srd p h f) := by intro k w e; cases e; try decide
theorem loadComplete (p : Nat) : Statement (Instr.loadComplete p) := by intro k w e; cases e; try decide
theorem columnEnter (p : Nat) : Statement (Instr.columnEnter p) := by intro k w e; cases e; try decide
theorem regionClearDone (p : Nat) : Statement (Instr.regionClearDone p) := by intro k w e; cases e; try decide
theorem epiAttemptDone (p : Nat) : Statement (Instr.epiAttemptDone p) := by intro k w e; cases e; try decide
theorem scatterRecordTaken (p : Nat) (bank : Nat) : Statement (Instr.scatterRecordTaken p bank) := by intro k w e; cases e; try decide
theorem dovetailDone (p : Nat) : Statement (Instr.dovetailDone p) := by intro k w e; cases e; try decide
theorem spadPromote (p : Nat) (req : Nat) (bank : Nat) (n : Nat) : Statement (Instr.spadPromote p req bank n) := by intro k w e; cases e; try decide
theorem slotRelease (p : Nat) : Statement (Instr.slotRelease p) := by intro k w e; cases e; try decide
theorem endstepRestart (p : Nat) : Statement (Instr.endstepRestart p) := by intro k w e; cases e; try decide
theorem markStall (p : Nat) : Statement (Instr.markStall p) := by intro k w e; cases e; try decide
theorem segOverrun (p : Nat) (len : Nat) : Statement (Instr.segOverrun p len) := by intro k w e; cases e; try decide
theorem watchdogExpiry (p : Nat) : Statement (Instr.watchdogExpiry p) := by intro k w e; cases e; try decide
theorem bistPass (p : Nat) (ok : Bool) (ended : Bool) : Statement (Instr.bistPass p ok ended) := by intro k w e; cases e; try decide
theorem coreMemoryError (p : Nat) (mem : Nat) (ue : Bool) : Statement (Instr.coreMemoryError p mem ue) := by intro k w e; cases e; try decide
theorem eccLimit (p : Nat) : Statement (Instr.eccLimit p) := by intro k w e; cases e; try decide
theorem syncLinkTimeout (p : Nat) : Statement (Instr.syncLinkTimeout p) := by intro k w e; cases e; try decide
theorem sistering (p : Nat) : Statement (Instr.sistering p) := by intro k w e; cases e; try decide
theorem roleSwitch (p : Nat) : Statement (Instr.roleSwitch p) := by intro k w e; cases e; try decide
theorem plankIssue (l : Nat) : Statement (Instr.plankIssue l) := by intro k w e; cases e; try decide
theorem stackPlankRead (role : Nat) (plank : Nat) : Statement (Instr.stackPlankRead role plank) := by intro k w e; cases e; try decide
theorem plankStart (p : Nat) (pl : Nat) : Statement (Instr.plankStart p pl) := by intro k w e; cases e; try decide
theorem forwardBeat (p : Nat) (pl : Nat) (b : Nat) : Statement (Instr.forwardBeat p pl b) := by intro k w e; cases e; try decide
theorem confirm (p : Nat) (pl : Nat) : Statement (Instr.confirm p pl) := by intro k w e; cases e; try decide
theorem deny (p : Nat) (pl : Nat) : Statement (Instr.deny p pl) := by intro k w e; cases e; try decide
theorem rollback (p : Nat) : Statement (Instr.rollback p) := by intro k w e; cases e; try decide
theorem releaseCountUpdate (l : Nat) (half : Nat) (p : Nat) (count : Nat) : Statement (Instr.releaseCountUpdate l half p count) := by intro k w e; cases e; try decide
theorem returnBandFill (p : Nat) : Statement (Instr.returnBandFill p) := by intro k w e; cases e; try decide
theorem returnBeat (p : Nat) : Statement (Instr.returnBeat p) := by intro k w e; cases e; try decide
theorem landingExaAdd (l : Nat) (half : Nat) : Statement (Instr.landingExaAdd l half) := by intro k w e; cases e; try decide
theorem ringGroupForward (l : Nat) (obj : Nat) (g : Nat) : Statement (Instr.ringGroupForward l obj g) := by intro k w e; cases e; try decide
theorem ownerRounding (l : Nat) : Statement (Instr.ownerRounding l) := by intro k w e; cases e; try decide
theorem luuUpdate (l : Nat) : Statement (Instr.luuUpdate l) := by intro k w e; cases e; try decide
theorem globalMarkUpdate (l : Nat) (role : Nat) (pos : Nat) : Statement (Instr.globalMarkUpdate l role pos) := by intro k w e; cases e; try decide
theorem globalMark (target : Nat) (crossing : Nat) (plank : Nat) : Statement (Instr.globalMark target crossing plank) := by intro k w e; cases e; try decide
theorem barArrive (hub : Nat) (ctr : Nat) (who : Nat) : Statement (Instr.barArrive hub ctr who) := by intro k w e; cases e; try decide
theorem barDone (unit : Nat) (scope : Bool) (ctr : Nat) (count : Nat) : Statement (Instr.barDone unit scope ctr count) := by intro k w e; cases e; try decide
theorem fenceNotice (bay : Nat) (idx : Nat) : Statement (Instr.fenceNotice bay idx) := by intro k w e; cases e; try decide
theorem alarm (bay : Nat) (code : Nat) (detail : Nat) : Statement (Instr.alarm bay code detail) := by intro k w e; cases e; try decide
theorem flitForward (p : Nat) (o : Nat) : Statement (Instr.flitForward p o) := by intro k w e; cases e; try decide
theorem multicastEscape (p : Nat) (o : Nat) : Statement (Instr.multicastEscape p o) := by intro k w e; cases e; try decide
theorem linkRetry (p : Nat) (o : Nat) : Statement (Instr.linkRetry p o) := by intro k w e; cases e; try decide
theorem commitReady (l : Nat) (frame : Frame) : Statement (Instr.commitReady l frame) := by intro k w e; cases e; try decide
theorem commitRepeat (l : Nat) : Statement (Instr.commitRepeat l) := by intro k w e; cases e; try decide
theorem commitDone (l : Nat) (frame : Frame) : Statement (Instr.commitDone l frame) := by intro k w e; cases e; try decide
theorem plankFrame (l : Nat) (frame : Frame) : Statement (Instr.plankFrame l frame) := by intro k w e; cases e; try decide
theorem freight (l : Nat) (frame : Frame) : Statement (Instr.freight l frame) := by intro k w e; cases e; try decide
theorem credit (l : Nat) (frame : Frame) : Statement (Instr.credit l frame) := by intro k w e; cases e; try decide
theorem holdFrame (l : Nat) (frame : Frame) : Statement (Instr.holdFrame l frame) := by intro k w e; cases e; try decide
theorem hail (l : Nat) (frame : Frame) : Statement (Instr.hail l frame) := by intro k w e; cases e; try decide
theorem probe (l : Nat) (frame : Frame) : Statement (Instr.probe l frame) := by intro k w e; cases e; try decide
theorem barrierFrame (l : Nat) (frame : Frame) : Statement (Instr.barrierFrame l frame) := by intro k w e; cases e; try decide
theorem regwrite (l : Nat) (frame : Frame) : Statement (Instr.regwrite l frame) := by intro k w e; cases e; try decide
theorem regread (l : Nat) (frame : Frame) : Statement (Instr.regread l frame) := by intro k w e; cases e; try decide
theorem snapFrame (l : Nat) (frame : Frame) : Statement (Instr.snapFrame l frame) := by intro k w e; cases e; try decide
theorem reverted (l : Nat) (frame : Frame) : Statement (Instr.reverted l frame) := by intro k w e; cases e; try decide
theorem badFrame (l : Nat) (frame : Frame) : Statement (Instr.badFrame l frame) := by intro k w e; cases e; try decide
theorem frameLoss (x : LossAt) : Statement (Instr.frameLoss x) := by intro k w e; cases e; try decide
theorem nakRepeat (l : Nat) : Statement (Instr.nakRepeat l) := by intro k w e; cases e; try decide
theorem hailAckDue (l : Nat) : Statement (Instr.hailAckDue l) := by intro k w e; cases e; try decide
theorem replayTimeout (l : Nat) : Statement (Instr.replayTimeout l) := by intro k w e; cases e; try decide
theorem hailIdle (l : Nat) : Statement (Instr.hailIdle l) := by intro k w e; cases e; try decide
theorem hold (l : Nat) (vc : Nat) (cause : Nat) (bay : Nat) : Statement (Instr.hold l vc cause bay) := by intro k w e; cases e; try decide
theorem partnerLost (l : Nat) : Statement (Instr.partnerLost l) := by intro k w e; cases e; try decide
theorem laneGroupDown (l : Nat) (g : Nat) : Statement (Instr.laneGroupDown l g) := by intro k w e; cases e; try decide
theorem linkTrained (l : Nat) (g : Nat) : Statement (Instr.linkTrained l g) := by intro k w e; cases e; try decide
theorem frameSend (l : Nat) : Statement (Instr.frameSend l) := by intro k w e; cases e; try decide
theorem stackAccess (bay : Nat) (x : ChAccess) : Statement (Instr.stackAccess bay x) := by intro k w e; cases e; try decide
theorem stackChannelLost (bay : Nat) (ch : Nat) : Statement (Instr.stackChannelLost bay ch) := by intro k w e; cases e; try decide
theorem stackRepair (bay : Nat) (ch : Nat) (row : Nat) : Statement (Instr.stackRepair bay ch row) := by intro k w e; cases e; try decide
theorem stackUe (bay : Nat) (ch : Nat) (addr : Nat) (master : Nat) : Statement (Instr.stackUe bay ch addr master) := by intro k w e; cases e; try decide
theorem patrolScrub (bay : Nat) (ch : Nat) (row : Nat) (err : Nat) : Statement (Instr.patrolScrub bay ch row err) := by intro k w e; cases e; try decide
theorem stackRefresh (bay : Nat) (ch : Nat) : Statement (Instr.stackRefresh bay ch) := by intro k w e; cases e; try decide
theorem stackThermal (bay : Nat) (temp : Int) : Statement (Instr.stackThermal bay temp) := by intro k w e; cases e; try decide
theorem bayLoss (bay : Nat) : Statement (Instr.bayLoss bay) := by intro k w e; cases e; try decide
theorem supplyTrip (bay : Nat) (rail : Nat) : Statement (Instr.supplyTrip bay rail) := by intro k w e; cases e; try decide
theorem phaseLost (bay : Nat) (phase : Nat) : Statement (Instr.phaseLost bay phase) := by intro k w e; cases e; try decide
theorem busConverterLost (bay : Nat) (conv : Nat) : Statement (Instr.busConverterLost bay conv) := by intro k w e; cases e; try decide
theorem currentGuard (bay : Nat) (ma : Nat) : Statement (Instr.currentGuard bay ma) := by intro k w e; cases e; try decide
theorem droop (bay : Nat) (mv : Nat) : Statement (Instr.droop bay mv) := by intro k w e; cases e; try decide
theorem crackSuspect (bay : Nat) (g : Nat) : Statement (Instr.crackSuspect bay g) := by intro k w e; cases e; try decide
theorem paceChange (bay : Nat) : Statement (Instr.paceChange bay) := by intro k w e; cases e; try decide
theorem hdrStage (p : Nat) : Statement (Instr.hdrStage p) := by intro k w e; cases e; try decide
theorem hdrDefer (p : Nat) : Statement (Instr.hdrDefer p) := by intro k w e; cases e; try decide
theorem spareDailyTest (p : Nat) (ok : Bool) : Statement (Instr.spareDailyTest p ok) := by intro k w e; cases e; try decide
theorem junctionSample (bay : Nat) (temp : Int) (hot : Nat) : Statement (Instr.junctionSample bay temp hot) := by intro k w e; cases e; try decide
theorem powerGuard (w54 : Nat) (w12 : Nat) : Statement (Instr.powerGuard w54 w12) := by intro k w e; cases e; try decide
theorem coolantMonitor (wf : Nat) (pf : Nat) (wi : Nat) (pi : Nat) : Statement (Instr.coolantMonitor wf pf wi pi) := by intro k w e; cases e; try decide
theorem inputLost (kind : Nat) (n : Nat) : Statement (Instr.inputLost kind n) := by intro k w e; cases e; try decide
theorem clockFailover (bay : Nat) : Statement (Instr.clockFailover bay) := by intro k w e; cases e; try decide
theorem boardFailover (x : BoardOut) : Statement (Instr.boardFailover x) := by intro k w e; cases e; try decide
theorem boardReady (b : Nat) : Statement (Instr.boardReady b) := by intro k w e; cases e; try decide
theorem boardReset (b : Nat) : Statement (Instr.boardReset b) := by intro k w e; cases e; try decide
theorem startUpTest (fails : List (Nat × Nat)) : Statement (Instr.startUpTest fails) := by intro k w e; cases e; try decide
theorem stackTraining (bay : Nat) (ch : Nat) (ok : Bool) : Statement (Instr.stackTraining bay ch ok) := by intro k w e; cases e; try decide
theorem landingTraining (l : Nat) (groups : Nat) : Statement (Instr.landingTraining l groups) := by intro k w e; cases e; try decide
theorem jobLoad (b : Nat) (n : Nat) (data : Option (List Byte)) : Statement (Instr.jobLoad b n data) := by intro k w e; cases e; try decide
theorem jobStart (b : Nat) (n : Nat) (data : Option (List Byte)) : Statement (Instr.jobStart b n data) := by intro k w e; cases e; try decide
theorem jobHold (b : Nat) (n : Nat) : Statement (Instr.jobHold b n) := by intro k w e; cases e; try decide
theorem jobRelease (b : Nat) (n : Nat) : Statement (Instr.jobRelease b n) := by intro k w e; cases e; try decide
theorem jobDirect (b : Nat) (n : Nat) : Statement (Instr.jobDirect b n) := by intro k w e; cases e; try decide
theorem jobStop (b : Nat) (n : Nat) : Statement (Instr.jobStop b n) := by intro k w e; cases e; try decide
theorem jobAlternate (b : Nat) (n : Nat) (data : Option (List Byte)) : Statement (Instr.jobAlternate b n data) := by intro k w e; cases e; try decide
theorem coreFence (b : Nat) (n : Nat) : Statement (Instr.coreFence b n) := by intro k w e; cases e; try decide
theorem coreQuery (b : Nat) (n : Nat) : Statement (Instr.coreQuery b n) := by intro k w e; cases e; try decide
theorem baySpares (b : Nat) (n : Nat) : Statement (Instr.baySpares b n) := by intro k w e; cases e; try decide
theorem bayQuery (b : Nat) (n : Nat) : Statement (Instr.bayQuery b n) := by intro k w e; cases e; try decide
theorem stackMapout (b : Nat) (n : Nat) : Statement (Instr.stackMapout b n) := by intro k w e; cases e; try decide
theorem stackQuery (b : Nat) (n : Nat) : Statement (Instr.stackQuery b n) := by intro k w e; cases e; try decide
theorem landingAccept (b : Nat) (n : Nat) : Statement (Instr.landingAccept b n) := by intro k w e; cases e; try decide
theorem landingRetake (b : Nat) (n : Nat) : Statement (Instr.landingRetake b n) := by intro k w e; cases e; try decide
theorem landingHold (b : Nat) (n : Nat) : Statement (Instr.landingHold b n) := by intro k w e; cases e; try decide
theorem landingRelease (b : Nat) (n : Nat) : Statement (Instr.landingRelease b n) := by intro k w e; cases e; try decide
theorem landingRetrain (b : Nat) (n : Nat) : Statement (Instr.landingRetrain b n) := by intro k w e; cases e; try decide
theorem powerPace (b : Nat) (n : Nat) : Statement (Instr.powerPace b n) := by intro k w e; cases e; try decide
theorem powerCeiling (b : Nat) (n : Nat) : Statement (Instr.powerCeiling b n) := by intro k w e; cases e; try decide
theorem powerLimit (b : Nat) (n : Nat) : Statement (Instr.powerLimit b n) := by intro k w e; cases e; try decide
theorem snapNow (b : Nat) (n : Nat) : Statement (Instr.snapNow b n) := by intro k w e; cases e; try decide
theorem snapRestore (b : Nat) (n : Nat) : Statement (Instr.snapRestore b n) := by intro k w e; cases e; try decide
theorem queryStatus (b : Nat) (n : Nat) : Statement (Instr.queryStatus b n) := by intro k w e; cases e; try decide
theorem queryIdentity (b : Nat) (n : Nat) : Statement (Instr.queryIdentity b n) := by intro k w e; cases e; try decide
theorem queryCapacity (b : Nat) (n : Nat) : Statement (Instr.queryCapacity b n) := by intro k w e; cases e; try decide
theorem fwStage (b : Nat) (n : Nat) (data : Option (List Byte)) : Statement (Instr.fwStage b n data) := by intro k w e; cases e; try decide
theorem fwActivate (b : Nat) (n : Nat) : Statement (Instr.fwActivate b n) := by intro k w e; cases e; try decide
theorem fwHandover (b : Nat) (n : Nat) : Statement (Instr.fwHandover b n) := by intro k w e; cases e; try decide
theorem injectLanding (b : Nat) (n : Nat) : Statement (Instr.injectLanding b n) := by intro k w e; cases e; try decide
theorem injectLink (b : Nat) (n : Nat) : Statement (Instr.injectLink b n) := by intro k w e; cases e; try decide
theorem injectFailure (b : Nat) (n : Nat) : Statement (Instr.injectFailure b n) := by intro k w e; cases e; try decide
theorem doorbell (b : Nat) (n : Nat) : Statement (Instr.doorbell b n) := by intro k w e; cases e; try decide
theorem mailboxWrite (b : Nat) (off : Nat) (bytes : List Byte) : Statement (Instr.mailboxWrite b off bytes) := by intro k w e; cases e; try decide
theorem evqCons (b : Nat) (v : W32) : Statement (Instr.evqCons b v) := by intro k w e; cases e; try decide
theorem evqCtrl (b : Nat) (v : W32) : Statement (Instr.evqCtrl b v) := by intro k w e; cases e; try decide
theorem evqCoalesceTimer (b : Nat) : Statement (Instr.evqCoalesceTimer b) := by intro k w e; cases e; try decide
theorem barAccess (b : Nat) (bar : Nat) (off : Nat) (rw : Bool) (size : Nat) (data : List Byte) : Statement (Instr.barAccess b bar off rw size data) := by intro k w e; cases e; try decide
theorem smbusRead (b : Nat) (off : Nat) : Statement (Instr.smbusRead b off) := by intro k w e; cases e; try decide
theorem timeInEdge (b : Nat) : Statement (Instr.timeInEdge b) := by intro k w e; cases e; try decide
theorem coreRun (p : Nat) (v : Bool) : Statement (Instr.coreRun p v) := by intro k w e; cases e; try decide
theorem coreStep (p : Nat) : Statement (Instr.coreStep p) := by intro k w e; cases e; try decide
theorem istoreData (p : Nat) (wr : Option W32) : Statement (Instr.istoreData p wr) := by intro k w e; cases e; try decide
theorem tapCtrl (p : Nat) (v : W32) : Statement (Instr.tapCtrl p v) := by intro k w e; cases e; try decide
theorem greenCtrl (p : Nat) (v : W32) : Statement (Instr.greenCtrl p v) := by intro k w e; cases e; try decide
theorem stackMapoutRequest (bay : Nat) (v : W32) : Statement (Instr.stackMapoutRequest bay v) := by intro k w e; cases e; try decide
theorem memoryWindow (master : Nat) (p : Nat) (off : Nat) (size : Nat) (wr : Option Nat) : Statement (Instr.memoryWindow master p off size wr) := by intro k w e; cases e; try decide
theorem timerStart (p : Nat) : Statement (Instr.timerStart p) := by intro k w e; cases e; try decide
theorem windowEnd (p : Nat) : Statement (Instr.windowEnd p) := by intro k w e; cases e; try decide
theorem timerClaim (p : Nat) : Statement (Instr.timerClaim p) := by intro k w e; cases e; try decide
theorem bwCtrl (addr : Nat) (v : W32) : Statement (Instr.bwCtrl addr v) := by intro k w e; cases e; try decide
theorem bwWindowEnd (addr : Nat) : Statement (Instr.bwWindowEnd addr) := by intro k w e; cases e; try decide
theorem rcRead (addr : Nat) : Statement (Instr.rcRead addr) := by intro k w e; cases e; try decide
theorem registerWrite (addr : Nat) (v : W32) (master : Nat) : Statement (Instr.registerWrite addr v master) := by intro k w e; cases e; try decide
theorem resultLands (p : Nat) : Statement (Instr.resultLands p) := by intro k w e; cases e; try decide
theorem revertRepeat (l : Nat) : Statement (Instr.revertRepeat l) := by intro k w e; cases e; try decide
theorem inputRestored (kind : Nat) (n : Nat) : Statement (Instr.inputRestored kind n) := by intro k w e; cases e; try decide
theorem inputOutOfRange (kind : Nat) (out : Bool) : Statement (Instr.inputOutOfRange kind out) := by intro k w e; cases e; try decide
theorem boardInserted (b : Nat) (fwok : Bool) : Statement (Instr.boardInserted b fwok) := by intro k w e; cases e; try decide
theorem bistPassStart (p : Nat) : Statement (Instr.bistPassStart p) := by intro k w e; cases e; try decide
theorem returnObjectStart (half : Nat) : Statement (Instr.returnObjectStart half) := by intro k w e; cases e; try decide
theorem greenFrameLate (l : Nat) : Statement (Instr.greenFrameLate l) := by intro k w e; cases e; try decide
theorem coreSupplyFault (p : Nat) : Statement (Instr.coreSupplyFault p) := by intro k w e; cases e; try decide
theorem timerClaimEnd (p : Nat) : Statement (Instr.timerClaimEnd p) := by intro k w e; cases e; try decide
theorem injectedDelayEnd (l : Nat) : Statement (Instr.injectedDelayEnd l) := by intro k w e; cases e; try decide
theorem heartbeat (b : Nat) : Statement (Instr.heartbeat b) := by intro k w e; cases e; try decide
theorem pllLock (bay : Nat) : Statement (Instr.pllLock bay) := by intro k w e; cases e; try decide
theorem watchEvaluation : Statement (Instr.watchEvaluation) := by intro k w e; cases e; try decide
theorem formatSelection : Statement (Instr.formatSelection) := by intro k w e; cases e; try decide
theorem rootFailover : Statement (Instr.rootFailover) := by intro k w e; cases e; try decide
theorem crossingEnd : Statement (Instr.crossingEnd) := by intro k w e; cases e; try decide
theorem stepBoundary : Statement (Instr.stepBoundary) := by intro k w e; cases e; try decide
theorem commitDecision : Statement (Instr.commitDecision) := by intro k w e; cases e; try decide
theorem commitStalled : Statement (Instr.commitStalled) := by intro k w e; cases e; try decide
theorem snapGuardWrite : Statement (Instr.snapGuardWrite) := by intro k w e; cases e; try decide
theorem snapshot : Statement (Instr.snapshot) := by intro k w e; cases e; try decide
theorem restore : Statement (Instr.restore) := by intro k w e; cases e; try decide
theorem lossCompare : Statement (Instr.lossCompare) := by intro k w e; cases e; try decide
theorem riskSample : Statement (Instr.riskSample) := by intro k w e; cases e; try decide
theorem moduleReset : Statement (Instr.moduleReset) := by intro k w e; cases e; try decide
theorem powerOn : Statement (Instr.powerOn) := by intro k w e; cases e; try decide
theorem bayEnable : Statement (Instr.bayEnable) := by intro k w e; cases e; try decide
theorem no54vResume : Statement (Instr.no54vResume) := by intro k w e; cases e; try decide
theorem ready : Statement (Instr.ready) := by intro k w e; cases e; try decide
theorem eventDelivery : Statement (Instr.eventDelivery) := by intro k w e; cases e; try decide

end Sys2Proof.Laws.SlotFits
end

