-- ==== Sys2Proof/Tests/Slice0.lean ====
section
/-! SUPPORT. The model's own tests on fixed values: ill-formed commands, words written out from the encodings, and for every statement a
small state that meets the hypotheses of each clause, with what the command leaves there. -/

namespace Sys2Proof.Tests

open Machine

set_option Elab.async false
set_option maxRecDepth 1000000

/-! ## Helpers -/

/-- All of a list of checks hold. -/
def ok (xs : List Bool) : Bool := xs.all id

/-- exec answers a next state with P. -/
def after (i : Instr) (s : State) (P : State → Bool) : Bool := match exec i s with
  | .next t => P t
  | _ => false

/-- SameBut, checked over the listed cores and registers. -/
def sameBut (p : Nat) (s t : State) : Bool :=
  t == { s with cores := t.cores, regs := t.regs } &&
  (s.cores ++ t.cores).all (fun e => e.1 == p || t.core e.1 == s.core e.1) &&
  (s.regs ++ t.regs).all (fun e => issueRegs p e.1 || t.reg e.1 == s.reg e.1)

/-- SameMem as a Bool. -/
def sameMem (c d : Core) : Bool := d.spad == c.spad && d.sill == c.sill && d.istore == c.istore

/-- BookOnly as a Bool. -/
def bookOnly (c d : Core) : Bool :=
  d == { c with point := c.point.map (fun q => { q with res := d.resOf }), cntSince := d.cntSince, suppress := d.suppress, wait := d.wait, logWaited := d.logWaited, stalled := d.stalled, seg := d.seg,
                segRole := d.segRole, loops := d.loops, pcEnd := d.pcEnd }

/-- NextBundle as a Bool. -/
def nextBundle (p : Nat) (s t : State) : Bool := !s.plainNext p || t.pc p == s.pc p + 1

/-- All registers but those of a list are as before. -/
def regsBut (l : List Nat) (s t : State) : Bool := (s.regs ++ t.regs).all (fun e => l.contains e.1 || t.reg e.1 == s.reg e.1)

/-- Bytes of a memory. -/
def at_ (a : Nat) (bs : List Byte) : Mem := Mem.write [] a bs

/-- Memories agree outside n bytes from a. -/
def memBut (a n : Nat) (m k : Mem) : Bool := Mem.zero m a n == Mem.zero k a n

/-- Bay b runs. -/
def bayOn (b : Nat) (s : State) : State := s.onBay b (fun y => { y with enabled := true })

/-- Board 0 is active, bay 0 runs and core 0 has RUN. -/
def up : State := (bayOn 0 { active := some 0 }).setReg (coreReg 0 0 0) 1

/-- up with core 0 changed. -/
def upc (f : Core → Core) : State := up.onCore 0 f

/-- The last core of bay 59, running in a state with bay 59 on. -/
def up59 : State := (bayOn 59 { active := some 1 }).setReg (coreReg 2879 0 0) 1

/-- Landing l's bay runs and its link is up on every lane group. -/
def linked (l : Nat) (s : State) : State := (bayOn (landingBay l) s).setReg (landReg l 4) 0x1FFFF

/-- A job in state st with loaded manifest m. -/
def jobS (st : Nat) (m : Loaded) (s : State) : State := s.onJob (fun j => { j with st := st, loaded := some m })

/-- A loaded manifest with nothing in it. -/
def noMan : Loaded := default

/-- A plank-order entry of plank n, object 100 + n, for half 0 of role r. -/
def ent (n r : Nat) : Entry :=
  { plank := n, object := 100 + n, offset := 0, halves := 1, role := r, fmt := 0, owner := 0, grain := 0, source := 0, flags := 0, tagGroup := 0,
    variant := 0, stackAddr := 0 }

/-- A running job in its crossing of role r, with landing 0 up and its order of that role. -/
def crossing (r : Nat) (es : List Entry) : State :=
  let m : Loaded := { noMan with orders := [(r, { entries := es })] }
  (jobS 2 m (linked 0 up)).onJob (fun j => { j with crossing := some r })

/-! ## The scalar slot and control -/

/-- A core with S1 = 5, S2 = 7, S31 = −3, X0 = 64, X15 = 2^40. -/
def scalCore (c : Core) : Core := { c with s := [(1, 5), (2, 7), (31, BitVec.ofInt 64 (-3))], x := [(0, 64), (15, 2 ^ 40)] }

/-- What a scalar operation on D leaves. -/
def gives (p d : Nat) (v : W64) (s t : State) : Bool :=
  (t.core p).scal d == v && (List.range 48).all (fun r => r == d || (t.core p).scal r == (s.core p).scal r) &&
  (t.core p).v == (s.core p).v && sameMem (s.core p) (t.core p) && (t.core p).vpipe == [] && sameBut p s t && nextBundle p s t

namespace W_scalar_register_results
def s := upc scalCore
def f : ScalF := { d := 3, a := 1, b := 2 }
def g : ScalF := { d := 47, a := 31, b := 32 }
/-- Every clause of the statement has a state and operands that meet its hypotheses. -/
theorem witness_scalar_register_results :
    ok [s.calm 0, s.plainNext 0, predHolds {} (s.core 0), after (.sadd 0 {} f) s (gives 0 3 12 s), after (.ssub 0 {} f) s (gives 0 3 (BitVec.ofInt 64 (-2)) s),
      after (.smul 0 {} f) s (gives 0 3 35 s), after (.sand 0 {} f) s (gives 0 3 5 s), after (.sor 0 {} f) s (gives 0 3 7 s),
      after (.sxor 0 {} f) s (gives 0 3 2 s), after (.sshl 0 {} f) s (gives 0 3 640 s), after (.sshr 0 {} f) s (gives 0 3 0 s),
      after (.sceq 0 {} f) s (gives 0 3 0 s), after (.sclt 0 {} f) s (gives 0 3 1 s),
      after (.sadd 0 {} g) s (gives 0 47 61 s), after (.sclt 0 {} g) s (gives 0 47 1 s), after (.sceq 0 {} { g with b := 31 }) s (gives 0 47 1 s),
      after (.sshr 0 {} { g with b := 31 }) s (gives 0 47 7 s)] = true := by decide +kernel
end W_scalar_register_results

namespace W_scalar_immediate_results
def c := fun (c : Core) => { scalCore c with curRole := some 9, loops := [{}, ⟨true, 0, 5, 9, 4, 2⟩, {}, {}] }
def s := ((upc c).setReg (coreReg 0 0 0x60) 0x0C21).onJob (fun j =>
    { j with step := 77, seedLo := 11, seedHi := 12, loaded := some { noMan with logical := 2700 } })
def f : ScalI := { d := 3, a := 31, imm := BitVec.ofInt 30 (-1) }
def r := fun (k : BitVec 30) (v : W64) => after (.srd 0 {} { f with imm := k }) s (gives 0 3 v s)
/-- Every clause of the statement has a state and operands that meet its hypotheses. -/
theorem witness_scalar_immediate_results :
    ok [s.calm 0, after (.saddi 0 {} f) s (gives 0 3 (BitVec.ofInt 64 (-4)) s), after (.sxori 0 {} f) s (gives 0 3 2 s),
      after (.sli 0 {} f) s (gives 0 3 (BitVec.ofInt 64 (-1)) s), after (.slui 0 {} { f with d := 1, imm := 0xFFF }) s (gives 0 1 (5 + 0xFFF * 2 ^ 30) s),
      r 0 77, r 1 9, r 2 2700, r 9 0x21, r 10 0, r (2 ^ 30 - 1) 0, r 3 11, r 4 12, r 5 0, r 6 4, r 8 0] = true := by decide +kernel
end W_scalar_immediate_results

namespace W_scalar_memory_results
def s := upc (fun c => { scalCore c with spad := at_ 56 [1, 2, 3, 4, 5, 6, 7, 8] })
def f : ScalI := { d := 2, a := 32, imm := BitVec.ofInt 30 (-1) }
def still := fun (t : State) => (t.core 0).v == (s.core 0).v && (t.core 0).s == (s.core 0).s && (t.core 0).x == (s.core 0).x &&
    sameMem (s.core 0) (t.core 0) && sameBut 0 s t && nextBundle 0 s t
/-- Every clause of the statement has a state and operands that meet its hypotheses. -/
theorem witness_scalar_memory_results :
    ok [s.issues 0 {} (actSldst false f s 0), s.issues 0 {} (actSldst true f s 0),
      after (.sld 0 {} f) s (fun t => still t && ((t.core 0).vpipe.map (fun r => (r.regs, r.spad)) == [([(scalId 2, 0x0807060504030201)], [])])),
      after (.sst 0 {} f) s (fun t => still t && ((t.core 0).vpipe.map (fun r => (r.regs, r.spad)) == [([], [(56, [7, 0, 0, 0, 0, 0, 0, 0])])]))] = true := by decide +kernel
end W_scalar_memory_results

namespace W_messages_of_control
def s := upc scalCore
def b : BarF := { scope := true, bctr := 63 }
/-- Every clause of the statement has a state and operands that meet its hypotheses. -/
theorem witness_messages_of_control :
    ok [s.calm 0, predHolds {} (s.core 0), s.active != none,
      after (.bara 0 {} b) s (fun t => t.sn == [{ typ := 3, head := 60, a := 63, b := 0 }] && SMap.get 0 (t.core 0).arrB 127 == 1 && nextBundle 0 s t),
      after (.bara 0 {} { scope := false, bctr := 0 }) s (fun t => t.sn == [{ typ := 3, head := 0, a := 0, b := 0 }]),
      after (.rcset 0 {} { ctr := 15, value := 0xFFFFFFFF }) s (fun t => t.reg (recvReg 0 15) == 0xFFFFFFFF && bookOnly (s.core 0) (t.core 0) && nextBundle 0 s t),
      after (.logv 0 {} { a := 1, tag := 0x8002 }) s (fun t =>
        (t.evPending.map (fun e => (e.code, e.step, e.payload))) == [(0x0901, 0, [5, 0, 0, 0, 0, 0, 0, 0, 2, 0x80, 0, 0, 255, 255, 255, 255])] &&
        t.job.attLosses == [{ step := 0, core := 0xFFFFFFFF, tag := 0x8002, value := 5, att := 0 }] && bookOnly (s.core 0) (t.core 0) && nextBundle 0 s t),
      after (.logv 0 {} { a := 47, tag := 0x7FFF }) s (fun t => t.evPending.length == 1 && t.job.attLosses == [])] = true := by decide +kernel
end W_messages_of_control

namespace W_flow_control_results
def s := upc (fun c => { scalCore c with strides := [1, 2, 3, 4], nextFill := 1, slots := [(0, { used := true })] })
def f : LoopF := { lvl := 3, count := 5, body := 1 }
def z : LoopF := { lvl := 3, count := 0, body := 8190 }
/-- Every clause of the statement has a state and operands that meet its hypotheses. -/
theorem witness_flow_control_results :
    ok [s.calm 0, predHolds {} (s.core 0), (s.core 0).loops.length == 4, (s.core 0).strides.length == 4, s.plainNext 0,
      after (.loop 0 {} f) s (fun t => t.pc 0 == 1 && (t.core 0).loops.getD 3 {} == ⟨true, 1, 1, 5, 0, 4⟩ && sameMem (s.core 0) (t.core 0) && sameBut 0 s t),
      after (.loop 0 {} { f with body := 8191 }) s (fun t => t.pc 0 == 1 && (t.core 0).loops.getD 3 {} == ⟨true, 1, 8191, 5, 0, 4⟩),
      after (.loop 0 {} z) s (fun t => t.pc 0 == 8191 && (t.core 0).loops == (s.core 0).loops),
      after (.mstr 0 {} { lvl := 2, stride := 0xFFFFFFFF }) s (fun t => (t.core 0).strides == [1, 2, 0xFFFFFFFF, 4] && t.pc 0 == 1 && sameBut 0 s t),
      after (.trel 0 {}) s (fun t => (t.core 0).relIssued == 1 && (t.core 0).slots == (s.core 0).slots && t.pc 0 == 1 && sameBut 0 s t),
      after (.endstep 0 {}) s (fun t => (List.range 16).all (fun i => t.reg (recvReg 0 i) == 0) && (t.core 0).endHold && t.pc 0 == 0 &&
        t.fld (coreReg 0 0 4) 13 13 == 1 && sameMem (s.core 0) (t.core 0))] = true := by decide +kernel
end W_flow_control_results

namespace W_waits_and_skips
def s := upc (fun c => { scalCore c with arrM := some (0, 9), arrB := [(5, 2)], doneB := [(5, 2)] })
def goes := fun (t : State) => bookOnly (s.core 0) (t.core 0) && sameBut 0 s t && nextBundle 0 s t
def w : WaitmF := { kind := 0, role := false, lm := 0, base := 9 }
def h : Hdr := { predEn := true, predReg := 4 }
/-- Every clause of the statement has a state and operands that meet its hypotheses. -/
theorem witness_waits_and_skips :
    ok [s.calm 0, (s.core 0).markMet 0 (s.crossingNo 0, (s.core 0).waitPlank 9 0), after (.waitm 0 {} w) s goes,
      after (.waitr 0 {} { ctr := 15, value := 0 }) s goes, after (.barw 0 {} { scope := false, bctr := 5 }) s goes, after (.fence 0 {}) s goes,
      !(s.core 0).markMet 0 (s.crossingNo 0, (s.core 0).waitPlank 10 0),
      after (.waitm 0 {} { w with base := 10 }) s (fun t => t.pc 0 == 0 && t.fld (coreReg 0 0 4) 13 13 == 1 && t.fld (coreReg 0 0 4) 16 14 == 1 &&
        (t.core 0).wait == .mark 0 (0, 10) && sameMem (s.core 0) (t.core 0) && sameBut 0 s t),
      !predHolds h (s.core 0), after (.sadd 0 h { d := 1, a := 1, b := 1 }) s goes,
      after (.vadd 0 h default) s goes, after (.lds 0 h default) s goes] = true := by decide +kernel
end W_waits_and_skips

namespace W_program_faults_stop_the_core
def s := upc (fun c => { scalCore c with x := [(1, 2 ^ 36 * 60), (2, 0)] })
/-- Every clause of the statement has a state and operands that meet its hypotheses. -/
theorem witness_program_faults_stop_the_core :
    ok [s.calm 0, predHolds {} (s.core 0), s.job.st == 0, s.active != none,
      after (.sadd 0 {} { d := 48, a := 0, b := 0 }) s (fun t => t.reg (coreReg 0 0 8) == 0x1800006 && !t.running 0 && t.pc 0 == 0 &&
        (t.core 0).s == (s.core 0).s && (t.core 0).x == (s.core 0).x && (t.evPending.map (fun e => e.code)) == [0x0201]),
      after (.sadd 0 {} { d := 0, a := 63, b := 0 }) s (fun t => t.fld (coreReg 0 0 8) 7 0 == 6),
      (s.core 0).nextFill == 0, after (.trel 0 {}) s (fun t => t.fld (coreReg 0 0 8) 7 0 == 11 && t.fld (coreReg 0 0 8) 24 24 == 1 && !t.running 0 && t.pc 0 == 0),
      !arrayFmt 0, after (.lds 0 {} { xb := 0, xp := 0, xs := 0, rows := 0, fmt := 0, inc := true }) s (fun t => t.fld (coreReg 0 0 8) 7 0 == 3 &&
        t.fld (coreReg 0 0 8) 23 21 == 0 && !t.running 0 && (t.core 0).mulX == none && (t.core 0).x == (s.core 0).x),
      (s.core 0).spadOk 0 64, !s.stackOk (2 ^ 36 * 60) 64,
      after (.msld 0 {} { xs := 1, xd := 2, len := 0, st := 0, ctr := 0, cls := 0, inc := false, form := false }) s (fun t =>
        t.fld (coreReg 0 0 8) 7 0 == 9 && t.fld (coreReg 0 0 8) 23 21 == 3 && !t.running 0 && (t.core 0).xfers == [] && sameMem (s.core 0) (t.core 0))] = true := by decide +kernel
end W_program_faults_stop_the_core

/-! ## The vector slot -/

/-- V0 lane 0 is 1.0, V1 lane 0 is 2.0, V2 lane 0 is 3.0, V63 lane 63 is 2.0; X1 names 256 bytes whose first word is 4.0; S3 = 1.5. -/
def vecCore (c : Core) : Core :=
  { c with v := [(0, 0x3F800000), (1, 0x40000000), (2, 0x40400000), (63, 0x40000000#2048 <<< 2016)], s := [(3, 0x3FC00000), (4, 2)],
           x := [(1, 0x100), (2, 0x200)], spad := at_ 0x100 [0, 0, 0x80, 0x40] }

/-- The state of the vector tests. -/
def vecS : State := upc vecCore

/-- The VX fields of the tests: V5 from V0, V1, V2. -/
def vf : VxF := { vd := 5, vs1 := 0, vs2 := 1, vs3 := 2, rnd := 0, ty := 0, ms := false, md := false, inc := false, sx := 3 }

/-- What VxIssued says of everything but the result. -/
def vxFrame (f : VxF) (ms md : Bool) (s t : State) : Bool :=
  (List.range 16).all (fun x => (t.core 0).xreg x == (s.core 0).xreg x +
    (if f.inc && ((ms && x == f.vs2.toNat % 16) || (md && x == f.vd.toNat % 16)) then 256 else 0)) &&
  (t.core 0).v == (s.core 0).v && (t.core 0).s == (s.core 0).s && sameMem (s.core 0) (t.core 0) && sameBut 0 s t && nextBundle 0 s t

/-- The one result on its way writes V[d] with lane i equal to w. -/
def lane (d i : Nat) (w : Nat) (t : State) : Bool := match (t.core 0).vpipe with
  | [r] => r.spad == [] && (match r.regs with
    | [(k, v)] => k == d && v / 2 ^ (32 * i) % 2 ^ 32 == w
    | _ => false)
  | _ => false

/-- A VX operation issues at the state of the tests and writes lane 0 of V5 with w. -/
def vx (op : Nat) (i : Hdr → VxF → Instr) (f : VxF) (w : Nat) : Bool :=
  vecS.issues 0 {} (actVx op f vecS 0) && after (i {} f) vecS (fun t => lane 5 0 w t && vxFrame f false false vecS t)

theorem witness_vector_elementwise_results :
    ok [vx 2 (.vadd 0) vf 0x40400000, vx 3 (.vsub 0) vf 0xBF800000, vx 4 (.vmul 0) vf 0x40000000, vx 5 (.vfma 0) vf 0x40A00000,
        vx 6 (.vfnma 0) vf 0x3F800000, vx 7 (.vmin 0) vf 0x3F800000, vx 8 (.vmax 0) vf 0x40000000, vx 9 (.vamx 0) vf 0x40000000,
        vx 10 (.vcmp 0) { vf with vs3 := 2 } 0xFFFFFFFF, vx 10 (.vcmp 0) { vf with vs3 := 5 } 0, vx 11 (.vsel 0) vf 0x40000000, vx 12 (.vdiv 0) vf 0x3F000000,
        vx 13 (.vsqrt 0) { vf with vs2 := 0 } 0x3F800000] = true := by decide +kernel

theorem witness_vector_elementwise_forms :
    ok [after (.vadd 0 {} { vf with ms := true, md := true, inc := true, vd := 2, vs2 := 1 }) vecS (fun t =>
          ((t.core 0).vpipe.map (fun r => (r.regs, r.spad.map (fun e => (e.1, e.2.take 4))))) == [([], [(0x200, [0, 0, 0xA0, 0x40])])] &&
          vxFrame { vf with ms := true, md := true, inc := true, vd := 2, vs2 := 1 } true true vecS t),
        after (.vadd 0 {} { vf with vd := 63, vs1 := 63, vs2 := 63 }) vecS (fun t => lane 63 63 0x40800000 t),
        after (.vadd 0 {} { vf with ty := 1, vs2 := 2 }) vecS (fun t => lane 5 0 (0x40800000 / 65536 * 65536) t),
        after (.vadd 0 {} { vf with ty := 2 }) vecS (fun t => lane 5 1 0x3F800000 t && lane 5 0 0x40000000 t)] = true := by decide +kernel

theorem witness_vector_image_results :
    ok [vx 1 (.vmov 0) vf 0x40000000, vx 0x18 (.vand 0) vf 0, vx 0x19 (.vor 0) vf 0x7F800000, vx 0x1A (.vxor 0) vf 0x7F800000,
        vx 0x11 (.vspl 0) vf 0x3FC00000, vx 0x17 (.vrng 0) vf (drawLane 0 0 0x3FC00000 0 0 0 0)] = true := by decide +kernel

/-- The one result on its way, as its registers. -/
def regsOut (t : State) : List (Nat × Nat) := match (t.core 0).vpipe with
  | [r] => r.regs
  | _ => []

namespace W_vector_horizontal_results
def f := { vf with vs2 := 0 }
def r := fun (op : Nat) (i : Hdr → VxF → Instr) (f : VxF) (w : Nat) => vecS.issues 0 {} (actVx op f vecS 0) &&
    after (i {} f) vecS (fun t => regsOut t == [(idS 3, w)] && vxFrame f false false vecS t)
/-- Every clause of the statement has a state and operands that meet its hypotheses. -/
theorem witness_vector_horizontal_results :
    ok [r 0x0E (.vhsum 0) f 0x3F800000, r 0x0F (.vhssq 0) { f with vs2 := 1 } 0x40800000, r 0x10 (.vhamx 0) { f with vs2 := 63 } 0x40000000,
      r 0x0E (.vhsum 0) { f with ty := 1, vs2 := 2 } 0x40400000] = true := by decide +kernel
end W_vector_horizontal_results

namespace W_vector_convert_and_record_results
def f := { vf with vs1 := 0, vs3 := 1, sx := 4 }
def g := { f with vd := 6, sx := 5 }
def runs := fun (op : Nat) (f : VxF) => vecS.issues 0 {} (actVx op f vecS 0)
/-- Every clause of the statement has a state and operands that meet its hypotheses. -/
theorem witness_vector_convert_and_record_results :
    ok [runs 0x12 f, after (.vcvt 0 {} f) vecS (fun t => regsOut t == [(5, 0x4000)] && vxFrame f false false vecS t),
      after (.vcvt 0 {} { f with ty := 1 }) vecS (fun t => regsOut t == [(5, 0x4000 * 2 ^ 1024)]),
      runs 0x12 { f with md := true, vd := 2, ty := 1 },
      after (.vcvt 0 {} { f with md := true, vd := 2, ty := 1 }) vecS (fun t =>
        ((t.core 0).vpipe.map (fun r => (r.regs, r.spad.map (fun e => (e.1, e.2.length, e.2.take 2))))) == [([], [(0x280, 128, [0, 0x40])])]),
      runs 0x13 g, after (.vrupd 0 {} g) vecS (fun t => regsOut t == [(6, 0x40000000), (7, 0), (idS 5, 1)] && vxFrame g false false vecS t),
      runs 0x14 { g with vs1 := 0, vs3 := 4 },
      after (.vrcmb 0 {} { g with vs1 := 0, vs3 := 4 }) vecS (fun t => regsOut t == [(6, 0x3F800000), (7, 0x40000000), (idS 5, 2)] && vxFrame g false false vecS t),
      runs 0x15 f, after (.vvarp 0 {} f) vecS (fun t => lane 5 0 0x3F800000 t && vxFrame f false false vecS t),
      runs 0x16 f, after (.vvars 0 {} f) vecS (fun t => lane 5 0 0x40000000 t && vxFrame f false false vecS t)] = true := by decide +kernel
end W_vector_convert_and_record_results

/-! ## The array, dovetail and move slots -/

/-- Address registers and S registers of the engine tests; the last load was of BF16. -/
def engCore (c : Core) : Core :=
  { c with x := [(1, 0x1000), (2, 256), (3, 0x4000), (4, 0x8000), (5, 0xC000), (6, 2 ^ 36 - 128)], s := [(1, 3), (2, 1)], lastFmt := some 1,
           spad := at_ 0x8000 [0, 0, 2, 0, 128, 1, 0, 5, 0, 0x10, 0, 0, 0, 0, 0, 0, 0, 0, 0, 0x80, 0, 0, 0, 0x80] }

/-- The state of the engine tests. -/
def engS : State := upc engCore

/-- The executing multiply operation as numbers: kind, base, pitch or n, scale, rows or first region, format. -/
def mulNums (t : State) : List Nat := match (t.core 0).mulX with
  | some o => [o.kind, o.base, o.pitch, o.scale, o.rows, o.fmt, o.n, o.a, o.reg, o.cnt, b2n o.acc, b2n o.expl]
  | none => []

/-- What an accepted array or dovetail operation leaves alone. -/
def engStill (t : State) : Bool :=
  (t.core 0).v == (engS.core 0).v && (t.core 0).s == (engS.core 0).s && sameMem (engS.core 0) (t.core 0) && sameBut 0 engS t && nextBundle 0 engS t

namespace W_multiply_unit_accepts
def f : LdF := { xb := 1, xp := 2, xs := 3, rows := 127, fmt := 1, inc := true }
def g : StrmF := { xsrc := 1, n := 4095, fmt := 1, a := 0, form := true, ssrc := false, xsc := 3 }
def d : StrdF := { sn := 1, fmt := 1, a := 4093, form := false }
def k : SclrF := { reg := 63, cnt := 0 }
/-- Every clause of the statement has a state and operands that meet its hypotheses. -/
theorem witness_multiply_unit_accepts :
    ok [engS.calm 0, engS.issues 0 {} (actLoad 0 f engS 0), engS.issues 0 {} (actLoad 1 f engS 0), engS.issues 0 {} (actStrm g engS 0),
      engS.issues 0 {} (actStrd d engS 0), engS.issues 0 {} (actSclr k engS 0),
      after (.lds 0 {} f) engS (fun t => engStill t && mulNums t == [0, 0x1000, 256, 0x4000, 128, 1, 0, 0, 0, 0, 0, 0] && (t.core 0).lastFmt == some 1 &&
        (t.core 0).xreg 1 == 0x9000 && (t.core 0).xreg 3 == 0x4200 && (t.core 0).xreg 2 == 256),
      after (.ldst 0 {} { f with inc := false }) engS (fun t => engStill t && mulNums t == [1, 0x1000, 256, 0x4000, 128, 1, 0, 0, 0, 0, 0, 0] &&
        (t.core 0).x == (engS.core 0).x),
      after (.strm 0 {} g) engS (fun t => engStill t && mulNums t == [2, 0x1000, 0, 0x4000, 0, 1, 4096, 0, 0, 0, 1, 0] && (t.core 0).x == (engS.core 0).x),
      after (.strd 0 {} d) engS (fun t => engStill t && mulNums t == [3, 0, 0, 0, 0, 1, 3, 4093, 0, 0, 0, 0]),
      after (.sclr 0 {} k) engS (fun t => engStill t && mulNums t == [4, 0, 0, 0, 0, 0, 0, 0, 63, 1, 0, 0])] = true := by decide +kernel
end W_multiply_unit_accepts

namespace W_epilogue_and_export_accept
def f : EpiF := { xd := 4, off := 0 }
def k : SexpF := { reg := 60, cnt := 3 }
/-- Every clause of the statement has a state and operands that meet its hypotheses. -/
theorem witness_epilogue_and_export_accept :
    ok [engS.issues 0 {} (actEpi f engS 0), engS.issues 0 {} (actSexp k engS 0),
      after (.epi 0 {} f) engS (fun t => engStill t && (t.core 0).x == (engS.core 0).x && (match (t.core 0).epiX with
        | some e => e.addr == 0x8000 && e.sillBase == 0 && e.cols == 2 && e.rows == 128 && e.fmt == 1 && e.outA == 0x1000 && e.attempt == 0 && e.step == 4 && e.bundle == 0
        | none => false)),
      after (.sexp 0 {} k) engS (fun t => (List.range 64).all (fun n => t.exporting 0 n == decide (60 ≤ n)) &&
        (t.core 0).exports == [{ reg := 60, cnt := 4, bundle := 0 }] && sameMem (engS.core 0) (t.core 0) && nextBundle 0 engS t)] = true := by decide +kernel
end W_epilogue_and_export_accept

/-- A core whose descriptor at X3 says K of 128, BF16, pitch 256, and whose compressed tile header at X1 is dense. -/
def dtCore (c : Core) : Core :=
  { engCore c with spad := Mem.write (at_ 0x4000 ([128, 0, 1, 0, 0, 1, 0, 0])) 0x1000 ([0, 1, 0, 0] ++ leBytes 4 (ctSize 0 0 16 0 0 0)) }

namespace W_dovetail_accepts
def s := upc dtCore
def f : DtF := { xa := 1, xb := 4, xc := 3, sn := 1, mode := 2, a := 7, form := true }
def runs := fun (opc mode : Nat) (i : Instr) => s.issues 0 {} (actDt opc { f with mode := BitVec.ofNat 4 mode } s 0) && after i s (fun t =>
    (match (t.core 0).dtX with
     | some o => o.opc == opc && o.xa == 0x1000 && o.xb == 0x8000 && o.sn == 1 && o.mode == mode && o.a == 7 && o.acc && o.prog == 0 &&
         (!([1, 3, 4, 6, 7].contains opc) || o.n == 3) && ((!([4, 8, 9].contains opc) && !(opc == 5 && mode != 3)) || o.desc == some (dtParse (Mem.read (s.core 0).spad 0x4000 32)))
     | none => false) && (t.core 0).v == (s.core 0).v && (t.core 0).s == (s.core 0).s && (t.core 0).x == (s.core 0).x && sameMem (s.core 0) (t.core 0) &&
    sameBut 0 s t && nextBundle 0 s t)
/-- Every clause of the statement has a state and operands that meet its hypotheses. -/
theorem witness_dovetail_accepts :
    ok [runs 1 2 (.dtld 0 {} f), runs 2 2 (.dtclr 0 {} f), runs 3 2 (.dtmat 0 {} f), runs 4 2 (.dtstr 0 {} f), runs 5 2 (.dtgat 0 {} f),
      runs 5 3 (.dtgatCheck 0 {} f), runs 6 2 (.dtsct 0 {} f), runs 7 2 (.dtsrt 0 {} f), runs 8 2 (.dtcmp 0 {} f), runs 9 2 (.dtexp 0 {} f)] = true := by decide +kernel
end W_dovetail_accepts

namespace W_move_starts
def m : Loaded := { (default : Loaded) with logical := 4 }
def s := engS.onJob (fun j => { j with loaded := some m })
def f : MvF := { xs := 1, xd := 4, len := 1, st := 1, ctr := 15, cls := 1, inc := true, form := true }
def w := (bayOn 1 s).onCore 0 (fun c => { c with x := SMap.set 0 c.x 6 (2 ^ 36 - 64) })
def g := ((s.onCore 0 (fun c => { c with s := [(1, 1)] })).setReg (coreReg 0 8 0x1500) 0x4500).setReg (coreReg 1 8 0x1500) 0x4100
def c := s.core 0
def starts := fun (opc xs xd : Nat) (t : State) => (match (t.core 0).xfers with
    | [x] => x.kind == opc && x.src == (c.xreg xs).toNat && x.dst == (c.xreg xd).toNat && x.lines == 2 && x.acc && x.left == 2 && (opc != 4 || (x.cls == 1 && x.ctr == 15))
    | _ => false) &&
    (List.range 16).all (fun r => (t.core 0).xreg r == c.xreg r + (if r == xs || r == xd then 128 else 0)) &&
    (t.core 0).v == c.v && (t.core 0).s == c.s && sameMem c (t.core 0) && t.stack == s.stack && nextBundle 0 s t
/-- Every clause of the statement has a state and operands that meet its hypotheses. -/
theorem witness_move_starts :
    ok [s.issues 0 {} (actMv 1 f s 0), after (.mcpy 0 {} f) s (fun t => starts 1 1 4 t && sameBut 0 s t),
      s.issues 0 {} (actMv 2 { f with xs := 6 } s 0), decide (2 ^ 36 - 128 + 128 ≤ 2 ^ 36),
      after (.msld 0 {} { f with xs := 6 }) s (fun t => starts 2 6 4 t && ((t.bay 0).q.map (fun r => (r.core, r.wr, r.addr, r.spad, r.data.length))) ==
        [(0, false, 2 ^ 36 - 128, 0x8000, 0), (0, false, 2 ^ 36 - 64, 0x8040, 0)]),
      w.issues 0 {} (actMv 2 { f with xs := 6 } w 0), after (.msld 0 {} { f with xs := 6 }) w (fun t =>
        ((t.bay 0).q.map (fun r => (r.addr, r.spad))) == [(2 ^ 36 - 64, 0x8000)] && ((t.bay 1).q.map (fun r => (r.addr, r.spad))) == [(2 ^ 36, 0x8040)]),
      w.issues 0 {} (actMv 3 { f with xd := 6 } w 0), after (.msst 0 {} { f with xd := 6 }) w (fun t =>
        ((t.bay 0).q.map (fun r => (r.addr, r.spad))) == [(2 ^ 36 - 64, 0x1000)] && ((t.bay 1).q.map (fun r => (r.addr, r.spad))) == [(2 ^ 36, 0x1040)]),
      g.issues 0 {} (actMv 4 { f with cls := 2 } g 0), after (.msend 0 {} { f with cls := 2 }) g (fun t =>
        ((t.core 0).xfers.map (fun x => x.dsts)) == [[(0, 1), (1, 1)]] && ((SMap.get [] (t.rtr 0).inb 0).map (fun e => (e.src, e.grp, e.cls))) == [(0, 1, 2)]),
      s.issues 0 {} (actMv 3 { f with xd := 6 } s 0),
      after (.msst 0 {} { f with xd := 6 }) s (fun t => starts 3 1 6 t && ((t.bay 0).q.map (fun r => (r.core, r.wr, r.addr, r.spad, r.data.length))) ==
        [(0, true, 2 ^ 36 - 128, 0x1000, 64), (0, true, 2 ^ 36 - 64, 0x1040, 64)]),
      s.issues 0 {} (actMv 4 f s 0), after (.msend 0 {} f) s (fun t => starts 4 1 4 t && ((SMap.get [] (t.rtr 0).inb 0).map (fun g => (g.src, g.dst, g.cls))) == [(0, 0, 1)]),
      s.issues 0 {} (actMv 5 f s 0), after (.msrd 0 {} f) s (fun t => starts 5 1 4 t && sameBut 0 s t),
      s.issues 0 {} (actMv 6 f s 0), after (.mswr 0 {} f) s (fun t => starts 6 1 4 t && sameBut 0 s t)] = true := by decide +kernel
end W_move_starts

/-! ## Engines at work -/

/-- A multiply operation of kind k with nothing named. -/
def mop (k : Nat) : MulOp := { kind := k, base := 0x1000, pitch := 256, rows := 2, fmt := 1 }

namespace W_load_and_clear_complete
def o := mop 0
def s := upc (fun c => { c with mulX := some o, mulP := some { mop 2 with n := 1 }, spad := Mem.write (at_ 0x1000 [0x80, 0x3F]) 0x1100 [0, 0x40] })
def l := upc (fun c => { c with mulX := some (mop 1), spad := Mem.write (at_ 0x1000 [0x80, 0x3F, 0, 0x40]) 0x1100 [0x40, 0x40] })
def k : MulOp := { mop 4 with reg := 62, cnt := 2, next := 1 }
def z := (upc (fun c => { c with mulX := some k, sill := Mem.write (at_ (63 * 32768) [1]) (62 * 32768) [7] })).setReg (regnReg 0 63) 0x1A001
/-- Every clause of the statement has a state and operands that meet its hypotheses. -/
theorem witness_load_and_clear_complete :
    ok [s.coreUp 0, (s.core 0).rangeFilled (loadRanges 0 o.base o.pitch o.rows o.fmt o.scale), !(s.core 0).epiBefore o,
      after (.loadComplete 0) s (fun t => (match (t.core 0).tile with
        | some w => w.fmt == 1 && w.rows == 2 && w.els == [0x3F80, 0x4000]
        | none => false) && (t.core 0).mulX == (s.core 0).mulP && (t.core 0).mulP == none && sameMem (s.core 0) (t.core 0) && sameBut 0 s t),
      (l.core 0).rangeFilled (loadRanges 1 0x1000 256 2 1 0), !(l.core 0).epiBefore (mop 1),
      after (.loadComplete 0) l (fun t => ((t.core 0).tile.map (fun w => (w.fmt, w.rows, w.els))) == some (1, 2, [0x40403F80, 0x4000]) &&
        sameMem (l.core 0) (t.core 0) && sameBut 0 l t),
      z.coreUp 0, (z.core 0).point == none, decide (k.reg + k.next < 64),
      after (.regionClearDone 0) z (fun t => (t.core 0).acc 4032 0 == 0 && (t.core 0).acc 4095 127 == 0 && (t.core 0).sill == at_ (62 * 32768) [7] &&
        t.reg (regnReg 0 63) == 0x10000 && (t.core 0).mulX == none && (t.core 0).spad == (z.core 0).spad),
      after (.loadComplete 0) (s.onCore 0 (fun c => { c with rolling := true })) (fun t => (t.core 0).mulX == none && (t.core 0).mulP == (s.core 0).mulP),
      after (.regionClearDone 0) (z.onCore 0 (fun c => { c with mulX := some { k with next := 0 } })) (fun t => (t.core 0).sill == at_ (63 * 32768) [1] &&
        (t.core 0).mulX == some k)] = true := by decide +kernel
end W_load_and_clear_complete

namespace W_column_enters
def o : MulOp := { mop 2 with n := 2, a := 4094 }
def w : Tile := { fmt := 1, rows := 2, els := [0x3F80, 0x4000], scs := [0x7F7F7F7F, 0x7F7F7F7F] }
def s := upc (fun c => { c with mulX := some o, tile := some w, spad := at_ 0x1000 [0, 0x40], sill := at_ (4094 * 512) [0, 0, 0x80, 0x3F] })
def hyps := fun (s : State) (o : MulOp) => s.coreUp 0 && !(s.core 0).rolling && (s.core 0).point == none && decide (o.next < o.n) && decide (o.a + o.next < 4096) &&
    (s.core 0).rangeFilled ((s.core 0).columnRanges o o.next) && !(s.core 0).epiBefore o
def o1 := { o with next := 1, acc := true }
def s1 := s.onCore 0 (fun c => { c with mulX := some o1, spad := at_ 0x1100 [0, 0x40], sill := at_ (4095 * 512) [0, 0, 0x80, 0x3F] })
def d : MulOp := { mop 3 with n := 1, a := 7 }
def z := upc (fun c => { c with mulX := some d, tile := some w, dq := [{ fmt := 1, els := [0x4000], scs := List.replicate 128 127, mask := 0 }] })
def x : MulOp := { mop 2 with fmt := 10, n := 2, next := 1, expl := true, scale := 0x2000 }
def mw : Tile := { fmt := 10, rows := 1, els := [2], scs := [0x7F7F7F7F] }
def y := upc (fun c => { c with mulX := some x, tile := some mw, spad := Mem.write (at_ 0x1040 [2]) 0x2004 [128, 127, 127, 127] })
def x2 := { x with next := 0 }
def y2 := upc (fun c => { c with mulX := some x2, tile := some mw, spad := Mem.write (at_ 0x1000 [2]) 0x1040 [4] |>.write 0x2000 (List.replicate 8 127) })
def q2 := fun (e : Nat) => ({ fmt := 10, els := [e], scs := List.replicate 128 127, mask := 0 } : QCol)
def y3 := upc (fun c => { c with mulX := some { x2 with kind := 3, a := 4094 }, tile := some mw, dq := [q2 2, q2 4, q2 6] })
/-- Every clause of the statement has a state and operands that meet its hypotheses. -/
theorem witness_column_enters :
    ok [hyps y2 x2, (y2.core 0).rangeFilled ((y2.core 0).columnRanges x2 1), after (.columnEnter 0) y2 (fun t => (t.core 0).acc 0 0 == 0x3F800000 &&
        (t.core 0).acc 1 0 == 0x40000000 && (t.core 0).mulX == none && (t.core 0).spad == (y2.core 0).spad),
      y3.coreUp 0, after (.columnEnter 0) y3 (fun t => (t.core 0).acc 4094 0 == 0x3F800000 && (t.core 0).acc 4095 0 == 0x40000000 &&
        (t.core 0).dq == [q2 6] && (t.core 0).mulX == none),
      hyps y x, x.next % 2 == 1, after (.columnEnter 0) y (fun t => (t.core 0).acc 1 0 == 0x40000000 && (t.core 0).mulX == none && (t.core 0).spad == (y.core 0).spad),
      z.coreUp 0, (z.core 0).dq.length == 1, after (.columnEnter 0) z (fun t => (t.core 0).acc 7 0 == 0x40000000 && (t.core 0).acc 7 1 == 0x40800000 &&
        (t.core 0).dq == [] && (t.core 0).mulX == none && (t.core 0).spad == []),
      hyps s o, after (.columnEnter 0) s (fun t => (t.core 0).acc 4094 0 == 0x40000000 && (t.core 0).acc 4094 1 == 0x40800000 &&
        memBut (4094 * 512) 8 (s.core 0).sill (t.core 0).sill && ((t.core 0).mulX.map (fun q => q.next)) == some 1 && (t.core 0).spad == (s.core 0).spad),
      hyps s1 o1, after (.columnEnter 0) s1 (fun t => (t.core 0).acc 4095 0 == 0x40400000 && (t.core 0).acc 4095 1 == 0x40800000 && (t.core 0).mulX == none)] = true := by decide +kernel
end W_column_enters

/-- An epilogue of one column into FP16 at 0x1000 from a descriptor at 0x8000, D of 5. -/
def epiOne : EpiOp := epiParse 0x8000 [0, 0, 1, 0, 128, 2, 0, 5, 0, 0x10, 0, 0, 0, 0, 0, 0, 0, 0, 0, 0x80, 0, 0, 0, 0x80] 4 0

namespace W_epilogue_attempts
def s := upc (fun c => { c with epiX := some epiOne, epiP := some { epiOne with attempt := 0, outA := 0x2000 }, sill := at_ 0 [0, 0, 0x80, 0x3F] })
def z := upc (fun c => { c with epiX := some { epiOne with attempt := 2, fmt := 3 }, sill := at_ 0 [0, 0, 0, 0x7F] })
def v := z.onCore 0 (fun c => { c with epiX := some { epiOne with attempt := 3, fmt := 3 } })
/-- Every clause of the statement has a state and operands that meet its hypotheses. -/
theorem witness_epilogue_attempts :
    ok [s.coreUp 0, (s.core 0).epiReady epiOne, ((s.core 0).epiAttempt epiOne).2.2 &&& flSaturate == 0,
      after (.epiAttemptDone 0) s (fun t => Mem.byte (t.core 0).spad 0x801F == 0 && Mem.byte (t.core 0).spad 0x801E == 5 && (t.core 0).epiX == (s.core 0).epiP &&
        (t.core 0).epiP == none && (t.core 0).sill == (s.core 0).sill),
      ((z.core 0).epiAttempt { epiOne with attempt := 2, fmt := 3 }).2.2 &&& flSaturate != 0,
      after (.epiAttemptDone 0) z (fun t => ((t.core 0).epiX.map (fun q => (q.attempt, q.cols, q.outA))) == some (3, 1, 0x1000) && (t.core 0).epiP == none &&
        t.fld (coreReg 0 1 0x14) 15 0 == 1),
      (v.core 0).epiReady { epiOne with attempt := 3, fmt := 3 }, ((v.core 0).epiAttempt { epiOne with attempt := 3, fmt := 3 }).2.2 &&& flSaturate != 0,
      (List.range 64).all (fun r => (v.core 0).regnMask r == 0), !(v.core 0).raised.contains 0x0204,
      after (.epiAttemptDone 0) v (fun t => Mem.byte (t.core 0).spad 0x801F == 3 && Mem.byte (t.core 0).spad 0x801E == BitVec.ofInt 8 (-7) &&
        (t.core 0).epiX == none && t.fld (coreReg 0 1 0x14) 23 16 == 1 && t.fld (coreReg 0 1 0x14) 15 0 == 1 &&
        (t.evPending.map (fun e => (e.code, e.payload))) == [(0x0204, [255, 255, 255, 255, 0, 0, 0, 0, BitVec.ofInt 8 (-7)])]),
      after (.epiAttemptDone 0) (z.onCore 0 (fun c => { c with epiX := some { epiOne with attempt := 0, fmt := 3 } })) (fun t =>
        ((t.core 0).epiX.map (fun q => q.attempt)) == some 1 && t.fld (coreReg 0 1 0x14) 15 0 == 0),
      after (.epiAttemptDone 0) (s.onCore 0 (fun c => { c with rolling := true })) (fun t => (t.core 0).epiX == none && (t.core 0).epiP == (s.core 0).epiP)] = true := by decide +kernel
end W_epilogue_attempts

/-- A dovetail operation with nothing but its opcode, places and count. -/
def dop (opc n mode : Nat) : DtOp := { opc := opc, xa := 0x1000, xb := 0x2000, n := n, sn := 31, mode := mode, a := 0, acc := false, desc := none }

/-- A core none of whose slots is used waits for no line of a slot. -/
theorem filled_of_no_slots (c : Core) (h : c.slots = []) (a n : Nat) : c.filled a n = true := by
  unfold Core.filled
  rw [List.all_eq_true]
  intro x _
  cases e : c.slotOf x with
  | none => rfl
  | some k => simp [Core.lineFilled, Core.slot, h, SMap.get]

namespace W_dovetail_completes
def tab : SMap (Nat × Nat) := [(8 * dtSet 7, (7, 99))]
def s := fun (o : DtOp) => upc (fun c => { c with dtX := some o, dtP := some (dop 2 0 0), dtab := tab, spad := at_ 0x1004 [7] })
def d : DtDesc := { kLen := 16, fmt := 1, tap := false, pitch := 256, scA := 0, scStride := 0, maskA := 0x3000, outSc := 0 }
def u := fun (o : DtOp) (m : Mem) => upc (fun c => { c with dtX := some o, spad := m })
def ready := fun (o : DtOp) (s : State) => (s.core 0).dtX == some o && (s.core 0).point == none && decide (o.sn < 32) && (s.core 0).slots == []
def ld := dop 1 2 0
def uld := u ld (at_ 0x1000 [7, 0, 0, 0, 1, 0, 0, 0, 7, 0, 0, 0, 5, 0, 0, 0])
def st := { dop 4 1 2 with desc := some d }
def ust := u st (Mem.write (at_ 0x1000 [0xA]) 0x2000 [0, 0, 0x80, 0x3F, 0, 0, 0, 0x40])
def ga := { dop 5 1 2 with desc := some { d with kLen := 32 } }
def uga := u ga (Mem.write (at_ 0x1000 [1]) 0x2000 [0x80, 0x3F])
def sc := dop 6 2 0
def usc := u sc (at_ 0x1000 [0, 0, 0x80, 0x3F, 0xFF, 0xFF, 7, 0, 0, 0, 0, 0x40, 1, 0, 0, 0])
def so := dop 7 1 0
def uso := u so (at_ 0x1000 [5, 0, 0, 0, 1, 0, 0, 0])
def heavy := fun (o : DtOp) => ready o (u o [])
def r : ScRec := { bank := 127, addr := 4095, val := 0x3F800000, acc := true, mask := 0 }
def z := upc (fun c => { c with scq := [r], sill := at_ (4095 * 512 + 508) [0, 0, 0, 0x40] })
/-- Every clause of the statement has a state and operands that meet its hypotheses. -/
theorem witness_dovetail_completes :
    ok [ready ld uld, after (.dovetailDone 0) uld (fun t => (setEntries (t.core 0).dtab (dtSet 7)).map (fun e => e.2) == [(7, 5)] && (t.core 0).sreg 31 == 2 &&
        (t.core 0).dtX == none && bit (t.reg (coreReg 0 3 0)).toNat 1 && sameMem (uld.core 0) (t.core 0)),
      ready st ust, decide (st.prog < ((ust.core 0).picks st d).2.1), after (.dovetailDone 0) ust (fun t =>
        ((t.core 0).dq.map (fun q => (q.fmt, q.els.take 3, q.scs.length))) == [(1, [0x3F80, 0x4000, 0], 128)] && (t.core 0).dtX == none && sameMem (ust.core 0) (t.core 0)),
      ready ga uga, after (.dovetailDone 0) uga (fun t => ((t.core 0).dq.map (fun q => (q.fmt, q.els.take 2))) == [(1, [0x3F80, 0])] && (t.core 0).sreg 31 == 1),
      ready sc usc, after (.dovetailDone 0) usc (fun t => ((t.core 0).scq.map (fun r => (r.bank, r.addr, r.val))) ==
        [(127, 4095, 0x3F800000), (0, 1, 0x40000000)] && (t.core 0).dtX == none && sameMem (usc.core 0) (t.core 0)),
      ready so uso, after (.dovetailDone 0) uso (fun t => (List.range 16).any (fun b => Mem.read (t.core 0).spad (0x2000 + 16 * b) 16 ==
        [1, 0, 0, 0, 0, 0, 0, 0, 1, 0, 0, 0, 0, 0, 0, 0]) && Mem.read (t.core 0).spad 0x2100 8 == [5, 0, 0, 0, 1, 0, 0, 0]),
      heavy { dop 8 0 0 with desc := some d }, heavy { dop 8 0 2 with desc := some d }, heavy { dop 9 0 0 with desc := some d },
      (s (dop 2 0 0)).coreUp 0,
      after (.dovetailDone 0) (s (dop 2 0 0)) (fun t => (t.core 0).dtab == [] && (t.core 0).dtX == some (dop 2 0 0) && (t.core 0).dtP == none &&
        sameMem ((s (dop 2 0 0)).core 0) (t.core 0) && sameBut 0 (s (dop 2 0 0)) t),
      after (.dovetailDone 0) (s (dop 3 2 0)) (fun t => (t.core 0).sreg 31 == 1 && (t.core 0).dtab == tab && (t.core 0).dtX == some (dop 2 0 0) &&
        Mem.read (t.core 0).spad 0x2000 8 == [1, 0, 0, 0, 99, 0, 0, 0] && memBut 0x2000 8 (t.core 0).spad (at_ 0x1004 [7])),
      ((s (dop 5 0 3)).core 0).preds.all (fun e => e.isNone),
      after (.dovetailDone 0) ((s (dop 2 0 0)).onCore 0 (fun c => { c with rolling := true })) (fun t => (t.core 0).dtab == [] && (t.core 0).dtX == none &&
        (t.core 0).dtP == some (dop 2 0 0)),
      after (.dovetailDone 0) (s (dop 5 0 3)) (fun t => bit (t.reg (coreReg 0 3 0)).toNat 7 && (t.core 0).dtX == some (dop 2 0 0) && sameMem ((s (dop 5 0 3)).core 0) (t.core 0)),
      (z.core 0).scq.find? (fun x => x.bank == r.bank) == some r,
      after (.scatterRecordTaken 0 127) z (fun t => (t.core 0).acc 4095 127 == 0x40400000 && (t.core 0).scq == [] && (t.core 0).spad == (z.core 0).spad &&
        memBut (4095 * 512 + 508) 4 (t.core 0).sill []),
      after (.scatterRecordTaken 0 127) (z.onCore 0 (fun c => { c with scq := [{ r with acc := false }] })) (fun t => (t.core 0).acc 4095 127 == 0x3F800000)] = true := by decide +kernel
end W_dovetail_completes

namespace W_moves_complete
def x : Xfer := { kind := 1, src := 0x100, dst := 0x200, lines := 2, acc := false }
def s := fun (x : Xfer) => upc (fun c => { c with xfers := [x], spad := at_ 0x100 [1, 2, 3], sill := at_ 0x100 [9] })
def two := (s x).onCore 0 (fun c => { c with xfers := [{ x with kind := 6, dst := 0x400, acc := true }, x] })
def y : Xfer := { x with kind := 4, ctr := 15, dsts := [(2879, 0), (1, 3)] }
/-- Every clause of the statement has a state and operands that meet its hypotheses. -/
theorem witness_moves_complete :
    ok [after (.moveTransferDone 0) (s { x with kind := 2 }) (fun t => (t.core 0).xfers == [] && sameMem ((s x).core 0) (t.core 0) && sameBut 0 (s { x with kind := 2 }) t),
      after (.moveTransferDone 0) (s { x with kind := 3, left := 1 }) (fun t => t == s { x with kind := 3, left := 1 }),
      after (.moveTransferDone 0) (s { x with kind := 4, dsts := [(1, 2)] }) (fun t => t == s { x with kind := 4, dsts := [(1, 2)] }),
      after (.moveTransferDone 0) (s { x with kind := 4 }) (fun t => (t.core 0).xfers == [] && sameMem ((s x).core 0) (t.core 0)),
      decide (0x400 % 64 = 0), after (.moveTransferDone 0) two (fun t => (t.core 0).xfers == [x] && (t.core 0).acc 2 0 == 0x030201 && (t.core 0).acc 2 1 == 0 &&
        memBut 0x400 128 (t.core 0).sill (two.core 0).sill && (t.core 0).spad == (two.core 0).spad),
      (s x).coreUp 0, ((s x).core 0).point == none,
      after (.moveTransferDone 0) (s x) (fun t => Mem.read (t.core 0).spad 0x200 4 == [1, 2, 3, 0] && memBut 0x200 128 (t.core 0).spad ((s x).core 0).spad &&
        (t.core 0).xfers == [] && (t.core 0).sill == ((s x).core 0).sill && sameBut 0 (s x) t),
      after (.moveTransferDone 0) (s { x with kind := 5 }) (fun t => Mem.read (t.core 0).spad 0x200 2 == [9, 0] && (t.core 0).xfers == [] && (t.core 0).sill == ((s x).core 0).sill),
      after (.msendDelivery 0 2879) ((s y).setReg (recvReg 2879 15) 0xFFFFFFFF) (fun t => t.reg (recvReg 2879 15) == 0 && t.reg (coreReg 0 0 0) == 1 &&
        ((t.core 0).xfers.map (fun z => z.dsts)) == [[(1, 3)]])] = true := by decide +kernel
end W_moves_complete

namespace W_results_and_lines_land
def s := fun (r : VRes) => upc (fun c => { c with vpipe := [r, {}], v := [(0, 1), (1, 1)], spad := at_ 10 [7, 7] })
def w : SReq := { core := 0, wr := true, addr := 2 ^ 36 - 64, spad := 0x40, data := List.replicate 63 0 ++ [5] }
def z := fun (r : SReq) => (upc (fun c => { c with spad := at_ 0x80 [6] })).onBay 0 (fun y => { y with q := [r] })
def ch := (z w).channelOf (2 ^ 36 - 64)
def g := { (z w).onBay 0 (fun y => { y with q := [{ w with wr := false }] }) with stack := at_ (2 ^ 36 - 64) [8, 9] }
def rd : SReq := { core := 40, wr := false, addr := 2 ^ 36 - 64, spad := 8, data := [], kind := 2 }
def zr := { (z w).onBay 0 (fun y => { y with q := [rd] }) with stack := at_ (2 ^ 36 - 64) [8, 9] }
/-- Every clause of the statement has a state and operands that meet its hypotheses. -/
theorem witness_results_and_lines_land :
    ok [zr.nextAccess 0 ch == some rd, !zr.bayWaits 0, after (.stackAccess 0 ⟨ch, 0⟩) zr (fun t => t.back == { data := [8, 9, 0, 0, 0, 0, 0, 0] } &&
        t.stack == zr.stack && t.cores == zr.cores && (t.bay 0).q == []),
      (z w).nextAccess 0 ch == some w, (z w).nextAccess 0 ((ch + 1) % 32) == none, after (.stackAccess 0 ⟨(ch + 1) % 32, 0⟩) (z w) (fun t => t == z w),
      after (.stackAccess 0 ⟨ch, 0⟩) ((z w).onBay 0 (fun y => { y with held := true })) (fun t => t == (z w).onBay 0 (fun y => { y with held := true })),
      (s {}).coreUp 0, after (.resultLands 0) (s { regs := [(63, 5)] }) (fun t => (t.core 0).vreg 63 == 5 && (t.core 0).vreg 1 == 1 && (t.core 0).vpipe == [{}] &&
        (t.core 0).s == [] && sameMem ((s {}).core 0) (t.core 0)),
      after (.resultLands 0) (s { spad := [(11, [0, 3])] }) (fun t => Mem.read (t.core 0).spad 10 3 == [7, 0, 3] && (t.core 0).v == [(0, 1), (1, 1)] && (t.core 0).vpipe == [{}]),
      after (.resultLands 0) (s { regs := [(63, 5)], fl := 0x81 }) (fun t => t.reg (coreReg 0 2 0x80) == 0x81),
      after (.stackAccess 0 ⟨ch, 0⟩) ((z w).onJob (fun j => { j with guard := [2 ^ 20 - 1] })) (fun t => t.stack == [] && (t.bay 0).q == [w]),
      after (.stackAccess 0 ⟨ch, 0⟩) (z { w with kind := 1, data := [1, 2, 3] }) (fun t => Mem.read t.stack (2 ^ 36 - 64) 4 == [1, 2, 3, 0] && (t.bay 0).q == []),
      (z w).bayUp 0, !((z w).bay 0).held, (z w).fld (hubReg 0 0x40C) 9 8 != 2, decide (ch < 32), !(z w).job.guard.contains ((2 ^ 36 - 64) / 65536),
      after (.stackAccess 0 ⟨ch, 0⟩) (z w) (fun t => Mem.read t.stack (2 ^ 36 - 64) 64 == w.data && memBut (2 ^ 36 - 64) 64 t.stack [] && (t.bay 0).q == [] &&
        (t.core 0).spad == at_ 0x80 [6]),
      after (.stackAccess 0 ⟨ch, 0⟩) g (fun t => Mem.read (t.core 0).spad 0x40 2 == [8, 9] && memBut 0x40 64 (t.core 0).spad (at_ 0x80 [6]) && t.stack == g.stack &&
        (t.bay 0).q == [])] = true := by decide +kernel
end W_results_and_lines_land

/-! ## Core events -/

namespace W_core_events
def s := upc (fun c => { c with relIssued := 1, slots := [(0, { used := true, beats := 256 }), (1, { used := true })] })
def e := (upc (fun c => { c with endHold := true, restart := true, v := [(1, 1)], s := [(1, 1)], x := [(1, 1)], spad := at_ 0 [1] })).setReg (coreReg 0 0 4) 0x3007
def w := ((upc (fun c => { c with wait := .mark 2 (1, 7), curRole := some 9 })).setReg (coreReg 0 0 4) 0x2000)
def g := (jobS 2 { noMan with segs := [(0xFFFFFFFF, [(3, 10, 5)])] } (upc (fun c => { c with seg := 3 })))
/-- Every clause of the statement has a state and operands that meet its hypotheses. -/
theorem witness_core_events :
    ok [s.coreUp 0, decide (256 ≤ ((s.core 0).slot 0).beats),
      after (.slotRelease 0) s (fun t => (t.core 0).relDone == 1 && (t.core 0).relCount == 1 && (t.core 0).slot 0 == {} && (t.core 0).slot 1 == (s.core 0).slot 1 &&
        sameMem (s.core 0) (t.core 0) && t.regs == s.regs),
      after (.endstepRestart 0) e (fun t => t.pc 0 == 0 && t.fld (coreReg 0 0 4) 13 13 == 0 && (t.core 0).v == [] && (t.core 0).s == [] && (t.core 0).x == [] &&
        !(t.core 0).endHold && (t.core 0).tile == none && sameMem (e.core 0) (t.core 0) && sameBut 0 e t),
      w.fld (coreReg 0 0 4) 13 13 == 1, w.fld (gloReg 0x100) 31 16 != 0, !(w.core 0).stalled, w.active != none,
      after (.markStall 0) w (fun t => (t.core 0).stalled && (t.evPending.map (fun e => (e.code, e.payload))) ==
        [(0x0202, [9, 0, 0, 0, 0, 0, 2, 0, 1, 0, 0, 0, 7, 0, 0, 0])]),
      after (.segOverrun 0 16) g (fun t => t.reg (coreReg 0 0 0x88) == 0x20000001 && regsBut [coreReg 0 0 0x88] g t),
      after (.spadPromote 0 0 0 0) s (fun t => t == s)] = true := by decide +kernel
end W_core_events

namespace W_core_run_and_store
def s := upc (fun c => { c with istore := at_ 0x3FFF8 [1, 2, 3, 4, 5] })
def z := s.setReg (coreReg 0 0 0) 0
def f := z.setReg (hubReg 0 0x504) 1
def a := s.setReg (coreReg 0 0 0x50) 0x8003FFFC
/-- Every clause of the statement has a state and operands that meet its hypotheses. -/
theorem witness_core_run_and_store :
    ok [s.bayUp 0, after (.coreRun 0 false) s (fun t => !t.running 0 && t.cores == s.cores && regsBut [coreReg 0 0 0] s t),
      after (.coreRun 0 true) z (fun t => t.running 0), f.fenced 0, after (.coreRun 0 true) f (fun t => t == f),
      z.mayIssue 0, (z.core 0).feet == [], (z.core 0).seasoned, (z.bundleAt 0 (z.pc 0)).slots 0 == [],
      after (.coreStep 0) z (fun t => bookOnly (z.core 0) (t.core 0) && sameBut 0 z t && nextBundle 0 z t && t.pc 0 == 1),
      after (.istoreData 0 (some 0x99887766)) a (fun t => Mem.read (t.core 0).istore 0x3FFF8 8 == [1, 2, 3, 4, 0x66, 0x77, 0x88, 0x99] &&
        t.fld (coreReg 0 0 0x50) 17 2 == 0 && (t.core 0).spad == (a.core 0).spad),
      after (.istoreData 0 none) (s.setReg (coreReg 0 0 0x50) 0x8003FFF8) (fun t => t.back == { data := [1, 2, 3, 4] } && t.cores == s.cores &&
        t.fld (coreReg 0 0 0x50) 17 2 == 0xFFFF)] = true := by decide +kernel
end W_core_run_and_store

/-! ## Girts, landings' arrays and the update unit -/

namespace W_planks_are_issued
def b : PlankBuf := { role := 0, idx := 0, object := 105, full := true, frames := 256, data := at_ 0 [1, 2] }
def s := (crossing 0 [ent 5 0, ent 6 0]).onLand 0 (fun x => { x with started := true, planks := [b] })
def v := { ent 5 0 with variant := 3, source := 1 }
def z := crossing 0 [v]
def sched : Sched := { (default : Sched) with fwd := [(9, 0, 0)] }
def n := s.onJob (fun j => { j with loaded := j.loaded.map (fun m => { m with scheds := [(0, some sched)] }) })
def h := z.onBay 0 (fun y => { y with held := true })
/-- Every clause of the statement has a state and operands that meet its hypotheses. -/
theorem witness_planks_are_issued :
    ok [s.mayIssuePlank 0, (s.merged 0 0)[0]? == some (ownEnt (ent 5 0)), (maskHalves 0 1 0).all (s.hasCredit 0),
      after (.plankIssue 0) s (fun t => (t.flights.map (fun f => (f.landing, f.plank, f.near, f.far, f.green, f.data))) == [(0, 5, 1, 0, false, at_ 0 [1, 2])] &&
        (t.land 0).issueIdx == 1 && t.sn == [{ typ := 1, head := 0, a := 0, b := 5 }] && t.cores == s.cores && t.stack == s.stack),
      s.schedMatch 0 0 0 5 0, !n.schedMatch 0 0 0 5 0, n.mayIssuePlank 0, after (.plankIssue 0) n (fun t => (t.land 0).faulted),
      z.stackEntry 0 5 == some v, !z.hubHolds 0, groupRoom (z.merged 0 0) (z.land 0) 0, h.hubHolds 0,
      after (.stackPlankRead 0 5) h (fun t => ((t.bay 0).q.map (fun r => (r.kind, r.core, r.spad))) == [(4, 0, 5)] && t.lands == h.lands && t.stack == h.stack),
      z.landWorks 0, (z.merged 0 0).findIdx? (fun m => m.e.plank == 5 && !z.fromStore m.e) == some 0, (z.land 0).issueIdx == 0,
      after (.stackPlankRead 0 5) z (fun t => (t.land 0).planks.map (fun b => (b.idx, b.role, b.object, b.full, b.frames)) == [(0, 0, 105, true, 256)]),
      after (.releaseCountUpdate 0 (coreHalf 0) 0 3) (s.onCore 0 (fun c => { c with relCount := 3, relDone := 3 })) (fun t => SMap.get 0 (t.land 0).relSeen 0 == 3 &&
        SMap.get 0 (t.land 0).relSeen 1 == 0 && t.flights == s.flights)] = true := by decide +kernel
end W_planks_are_issued

/-- A plank on the girt of half 0 with the given plank number. -/
def fly (n : Nat) : Flight := { landing := 0, role := 0, plank := n, fmt := 0, variant := 0, lastUse := false, grain := false, near := 1, far := 0, data := at_ 0 [1, 2] }

namespace W_taps_copy_planks
def s := { upc (fun c => { c with part := true, slots := [(1, { used := true })] }) with flights := [fly 4, fly 5] }
def z := s.onCore 0 (fun c => { c with slots := [(0, { used := true })] })
def g := s.onCore 0 (fun c => { c with passing := some (0, 254, 0), slots := [(0, { used := true, beats := 254 })] })
def h := { g with flights := [{ fly 4 with data := at_ (256 * 254) [7, 8] }] }
/-- Every clause of the statement has a state and operands that meet its hypotheses. -/
theorem witness_taps_copy_planks :
    ok [s.coreUp 0, coreHalf 0 == 0, (s.halfFlights 0)[0]? == some (0, fly 4), s.holdsTag 0 0,
      after (.plankStart 0 4) s (fun t => (t.core 0).slot 0 == { used := true, role := 0, plank := 4, fmt := 0, green := false } &&
        (t.core 0).slot 1 == (s.core 0).slot 1 && (t.core 0).nextFill == 1 && (t.core 0).passing == some (0, 0, 0) && sameMem (s.core 0) (t.core 0) && t.regs == s.regs),
      after (.plankStart 0 4) z (fun t => (t.core 0).noCopy && (t.core 0).slots == (z.core 0).slots && bit (t.reg (coreReg 0 7 4)).toNat 12 &&
        sameMem (z.core 0) (t.core 0) && regsBut [coreReg 0 7 4] z t),
      after (.forwardBeat 0 4 254) h (fun t => Mem.read (t.core 0).spad ((h.core 0).tapBase + 256 * 254) 3 == [7, 8, 0] && ((t.core 0).slot 0).beats == 255 &&
        (t.core 0).passing == some (0, 255, 0) && (t.core 0).sill == (h.core 0).sill && t.stack == h.stack),
      after (.forwardBeat 0 4 251) ({ g.onCore 0 (fun c => { c with passing := some (0, 251, 0) }) with flights := [{ fly 4 with data := at_ (65536 + 64 * 62) [9] }] })
        (fun t => (t.core 0).spad == at_ ((h.core 0).tapBase + 65536 + 64 * 62) [9] && ((t.core 0).slot 0).beats == 252)] = true := by decide +kernel
end W_taps_copy_planks

namespace W_green_planks_are_judged
def g := { fly 4 with green := true }
def s := { linked 0 up with flights := [fly 3, g, { g with plank := 5 }] }
def j := fun (v : Bool) (c : Core → Core) => { upc (fun k => c { k with openSrc := 1, slots := [(0, { used := true, plank := 4, green := true, beats := 9 })] }) with
    flights := [{ g with verdict := some v }] }
def q : Point := { bundle := 8191, v := [(1, 1)], s := [], x := [(2, 2)], loops := [{}, {}, {}, {}], strides := [1, 2, 3, 4], seg := 0, segRole := 0, lastLoad := none,
                     log := [⟨false, 64, 0x40000⟩, ⟨true, 64, 0x40040⟩], regions := [(63, 0x10007, true)] }
def logged := Mem.write (at_ 0x40000 [5]) 0x40040 [6]
def r := upc (fun c => { c with point := some q, rolling := true, spad := Mem.write logged 64 [9], sill := at_ 64 [9], v := [(3, 3)] })
/-- Every clause of the statement has a state and operands that meet its hypotheses. -/
theorem witness_green_planks_are_judged :
    ok [(s.land 0).present, s.bayUp 6, s.flights.find? (fun f => f.landing == 0 && f.green && f.verdict.isNone) == some g,
      after (.greenFrameLate 0) s (fun t => t.flights == [fly 3, { g with verdict := some false }, { g with plank := 5 }] && t == { s with flights := t.flights }),
      (j true id).judged 0 4 true == some 0,
      after (.confirm 0 4) (j true id) (fun t => ((t.core 0).slot 0).green == false && ((t.core 0).slot 0).beats == 9 && (t.core 0).openSrc == 0 && t.regs == (j true id).regs),
      (j false id).judged 0 4 false == some 0,
      after (.deny 0 4) (j false id) (fun t => (t.core 0).slot 0 == { used := true, plank := 4, denied := true } && (t.core 0).relCount == 1 && (t.core 0).openSrc == 0 &&
        !(t.core 0).rolling && t.regs == (j false id).regs),
      after (.deny 0 4) (j false (fun c => { c with point := some q })) (fun t => (t.core 0).rolling && (t.core 0).relCount == 1),
      (r.core 0).rolledOut, r.coreUp 0,
      after (.rollback 0) r (fun t => (t.core 0).v == [(1, 1)] && (t.core 0).s == [] && (t.core 0).x == [(2, 2)] && (t.core 0).strides == [1, 2, 3, 4] &&
        (t.core 0).spad == Mem.write logged 64 [5] && (t.core 0).sill == at_ 64 [6] && (t.core 0).fresh == [63] && t.reg (regnReg 0 63) == 0x10007 && t.pc 0 == 8191 && (t.core 0).point == none &&
        !(t.core 0).rolling)] = true := by decide +kernel
end W_green_planks_are_judged

/-- A last-use entry of plank n for half 0 of the backward crossing, owned by landing o. -/
def last (n o : Nat) : Entry := { ent n 1 with flags := 2, owner := o }

/-- A finite value of 2 to the power 160 − 160 times n. -/
def xv (n : Int) : XV := { val := n * 2 ^ 160 }

namespace W_return_girts_sum
def e : Export := { reg := 60, cnt := 4, bundle := 0, plank := some 5 }
def s := (crossing 1 [last 5 0]).onCore 0 (fun c => { c with part := true, exports := [e] })
def b : RetBeat := { plank := 5, b := 2046, at_ := 1, vals := List.replicate 16 (xv 1) }
def g := (s.onCore 0 (fun c => { c with part := false })).setRet 0 { plank := none, idx := 1, beats := [b] }
def z := (s.onCore 0 (fun c => { c with exports := [{ e with bands := 8, beats := 2046, bufs := [(7, at_ ((64 * 60 + 224) * 512 + 4 * 127) [0, 0, 0x80, 0x3F])] }] })).setRet 0 { plank := none, idx := 1, beats := [b] }
def z2 := (s.onCore 0 (fun c => { c with exports := [{ e with bands := 8, beats := 2047, bufs := [(7, [])] }] })).setRet 0 { plank := none, idx := 1, beats := [{ b with b := 2047 }] }
def d := s.setRet 0 { beats := [{ b with at_ := 0, b := 0 }] }
def big : RSlot := { object := 105, plank := 5, fmt := 0, own := List.replicate 8193 (0, { val := 2 ^ 300 + 1 }) }
def sp := (d.setRet 0 { beats := [{ b with at_ := 0, b := 0, vals := [] }] }).onLand 0 (fun x => { x with rslots := [big] })
/-- Every clause of the statement has a state and operands that meet its hypotheses. -/
theorem witness_return_girts_sum :
    ok [s.coreUp 0, s.job.crossing == some 1, (List.range 4).all (fun i => (s.core 0).regnMask (60 + i) == 0), (s.core 0).feet == [], decide (s.bandsHeld 0 < 2),
      after (.returnBandFill 0) s (fun t => ((t.core 0).exports.map (fun x => (x.bands, SMap.get [] x.bufs 0))) == [(1, (s.core 0).bandLines e (bandBeats (s.exportFmt 0 e)) 0)] && sameMem (s.core 0) (t.core 0) && t.regs == s.regs && t.rets == s.rets),
      (s.lineObjs 0)[0]? == some (ownEnt (last 5 0)), (s.lineCores 0).getLast? == some 103, !s.gives 103 (ownEnt (last 5 0)),
      after (.returnObjectStart 0) s (fun t => (t.ret 0).plank == some 5 && (t.ret 0).next == 0 && t == { s with rets := t.rets }),
      (g.lineCores (g.lineHalf 0)).findIdx? (fun q => q == 0) == some 0, !g.gives 0 (ownEnt (last 5 0)),
      after (.returnBeat 0) g (fun t => (t.ret 0).beats == [{ b with at_ := 0 }] && t == { g with rets := t.rets, bwAcc := t.bwAcc }),
      z.gives 0 (ownEnt (last 5 0)), ((z.readyExport 0 5 2046).map (fun x => (x.bands, x.beats))) == some (8, 2046), z.lineHalf 0 == 0, (z.core 0).badTimes == [],
      after (.returnBeat 0) z (fun t => ((t.ret 0).beats.map (fun x => x.vals.take 2)) == [[xv 2, xv 1]] && ((t.core 0).exports.map (fun x => x.beats)) == [2047] &&
        sameMem (z.core 0) (t.core 0)),
      (z2.readyExport 0 5 2047).isSome, 8 * bandBeats (z2.exportFmt 0 e) == 2048,
      after (.returnBeat 0) z2 (fun t => (t.core 0).exports == [] && (t.core 0).retM == some (z2.crossingNo 1, 5) &&
        (List.range 4).all (fun i => !t.exporting 0 (60 + i)) && sameMem (z2.core 0) (t.core 0)),
      sp.slotFor 0 (last 5 0) == some big, big.images.length == 8193, !sp.bayWaits (landingBay 0),
      after (.landingExaAdd 0 0) sp (fun t => bit (t.reg (landReg 0 0x504)).toNat 1 && t.stack == at_ (sp.redSpill 0 0) (leBytes 40 (2 ^ 300 + 1))),
      d.landWorks 0, halfLanding 0 == 0, d.slotFor 0 (last 5 0) == some { object := 105, plank := 5, fmt := 0 },
      after (.landingExaAdd 0 0) d (fun t => ((t.land 0).rslots.map (fun r => (r.plank, SMap.get {} r.own 15, SMap.get {} r.own 16, r.beats))) == [(5, xv 1, {}, [(0, 1)])] &&
        (t.ret 0).beats == [] && t.cores == d.cores && t.stack == d.stack)] = true := by decide +kernel
end W_return_girts_sum

/-- A reduction slot of plank 5 whose sums are complete. -/
def fullSlot : RSlot := { object := 105, plank := 5, fmt := 0, own := [(0, xv 3)], beats := [(0, 2048)], ring := [(0, xv 4)], ringG := List.range 128 }

namespace W_owners_round_once
def s := (crossing 1 [last 5 0]).onLand 0 (fun x => { x with rslots := [fullSlot] })
def two := fun (s : State) => linked 1 s
def f := two ((crossing 1 [last 5 1]).onLand 0 (fun x => { x with rslots := [fullSlot] }))
def d := { fullSlot with sentG := List.range 128 }
def n := (crossing 1 [last 5 0]).onLand 0 (fun x => { x with rslots := [d] })
def m : Loaded := { noMan with orders := [(1, { entries := [last 5 0] })], man := { (default : Manifest) with thinN := 2 } }
def h := n.onJob (fun j => { j with loaded := some m })
def v : Variant := { (default : Variant) with tag := 4, first := 100, objects := 9, frozen := true }
def e4 := { last 5 0 with variant := 4 }
def z := ((crossing 1 [e4]).onLand 0 (fun x => { x with rslots := [d] })).onJob (fun j =>
    { j with loaded := some { noMan with orders := [(1, { entries := [e4] })], variants := [v] } })
def x := (ringPath (snNode (2880 + f.ringAfter 0)) 220 (snNode 2880)).headD (0, 0)
def held := f.setRtr x.1 { f.rtr x.1 with delayed := [(x.2, 100)] }
/-- Every clause of the statement has a state and operands that meet its hypotheses. -/
theorem witness_owners_round_once :
    ok [held.ringHeld 0, after (.ringGroupForward 0 105 0) held (fun t => t == held), !s.ringHeld 0, !f.ringHeld 0, !f.bayWaits (landingBay 1), !s.bayWaits (landingBay 0),
      s.landWorks 0, s.objEntry 105 == some (last 5 0), s.slotFor 0 (last 5 0) == some fullSlot, s.ownDone 0 fullSlot 127, s.ownerOf (last 5 0) == 0,
      after (.ringGroupForward 0 105 0) s (fun t => ((t.land 0).rslots.map (fun q => (q.sentG, SMap.get {} q.own 0, SMap.get {} q.own 256))) == [([0], xv 7, {})]),
      after (.ringGroupForward 0 105 127) s (fun t => ((t.land 0).rslots.map (fun q => (q.sentG, SMap.get {} q.own 0))) == [([127], xv 3)]),
      f.ownerOf (last 5 1) == 1, f.ringAfter 0 == 1, f.slotFor 1 (last 5 1) == some { object := 105, plank := 5, fmt := 0 },
      after (.ringGroupForward 0 105 0) f (fun t => ((t.land 1).rslots.map (fun q => (q.ringG, SMap.get {} q.ring 0))) == [([0], xv 7)]),
      n.applies, !n.manFlag 1, n.ledgerOf 105 == none, (SMap.get {} d.own 0).round == (0x40400000, false),
      after (.ownerRounding 0) n (fun t => ((t.land 0).luuQ.map (fun k => (k.object, k.group, k.grads))) == [(105, 0, [(0, 0x40400000)])] && (t.land 0).rslots == [] &&
        t.stack == n.stack),
      z.objEntry 105 == some e4, z.frozenEnt e4, z.applies, !n.frozenEnt (last 5 0),
      after (.ownerRounding 0) z (fun t => (t.land 0).pendDone == [105] && (t.land 0).luuQ == []),
      !h.applies, after (.ownerRounding 0) h (fun t => (t.land 0).pendDone == [105] && (t.land 0).rslots == [] && t.stack == h.stack && t.regs == h.regs)] = true := by decide +kernel
end W_owners_round_once

/-! ## Update, watch, format selection -/

/-- Microcode of one program that writes the gradient as the new W. -/
def micro1 : Micro :=
  { progs := [{ count := 1, uses := 0, pass1 := 0, code := [0] }], masterForm := 0, momentForm := 0, betaP1 := 0x3F000000, betaP2 := 0x3F000000, p1Init := 0x3F800000,
    p2Init := 0x3F800000, sched := [(0, 0x3F800000, 0x3F800000)] }

/-- A tag group that holds the step on a ratio above 1 and selects its format. -/
def grp1 : TagGroup := { (default : TagGroup) with flags := 9, rhoLo := 0, rhoHi := 0x3F800000 }

namespace W_update_unit_results
def m : Loaded := { noMan with orders := [(1, { entries := [last 5 0] })], micro := some micro1, groups := [grp1], statsOff := 4096, fmtOff := 2 ^ 36 - 16 }
def o : LuuObj := { object := 105, fmt := 0, group := 0, variant := 0, grads := [(0, 0x40400000)] }
def s := ((crossing 1 [last 5 0]).onJob (fun j => { j with loaded := some m })).onLand 0 (fun x =>
    { x with luuQ := [o], sbuf := [{ object := 105, want := [0], done := [0] }] })
def w := (s.onLand 0 (fun x => { x with pendDone := [105] })).onJob (fun j => { j with watch := [(0, (xv 8, xv 4, xv 1))] })
def f := w.onJob (fun j => { j with committed := true, fmt := [(0, 5)], step := 6 })
/-- Every clause of the statement has a state and operands that meet its hypotheses. -/
theorem witness_update_unit_results :
    ok [s.applies, s.luuState 0 o == some [], s.residentAt 105 == none, s.variantOf 0 == none, s.objEntry 105 == some (last 5 0), !s.mpUndef, s.active != none,
      !w.job.watchDone, !w.manFlag 1, w.objectsDone, cmpNum (fFP32.decode (ratioOf (xv 8).round.1 (xv 4).round.1)) (fFP32.decode 0x3F800000) == .gt,
      after .watchEvaluation w (fun t => t.job.watchDone && t.job.holdStep == some 0 && t.cores == w.cores && t.stack == w.stack && (t.evPending.map (fun e => e.code)) == [0x0302] &&
        (t.evPending.map (fun e => e.payload)).take 1 == [payload [(2, 0), (8, 0), (4, ratioOf 0x41000000 0x40800000), (4, 0x41000000), (4, 0x40800000)]]),
      (List.range 60).all (fun b => !f.bayUp b || !f.hubHolds b), f.job.guard == [], f.stepOver, !f.job.formatDone, (f.mergeStats 4096 0).1.sum == 0,
      after .formatSelection f (fun t => t.job.formatDone && t.cores == f.cores && t.regs == f.regs && SMap.get 0 t.job.fmt 0 == 5 + 2 ^ 32 * 7 &&
        Mem.readNat t.stack (2 ^ 36 - 16) 16 == 5 + 2 ^ 32 * 7 && Mem.readNat t.stack (7 * 2 ^ 36 - 16) 16 == 5 + 2 ^ 32 * 7)] = true := by decide +kernel
end W_update_unit_results

/-! ## Sync network and failures of cores -/

/-- The state with one token on the sync network. -/
def tok (t : Token) : State := { up with sn := [{ typ := 9, head := 0, a := 0, b := 0 }, t] }

/-- Bay 29 runs and hosts the active root, bay 30 the standby. -/
def roots (s : State) : State := (bayOn 29 (bayOn 30 s)).setReg (gloReg 0x30C) 0x5E1D

namespace W_marks_and_alarms
def k : Token := { typ := 9, head := 0, a := 0, b := 0 }
def s := roots (linked 0 { (crossing 0 [ent 5 0, ent 9 0]) with sn := [k, { typ := 1, head := 0, a := 0, b := 8 }] })
def g := { tok { typ := 2, head := 0, a := 65535, b := 4 } with job := { (default : Job) with st := 2 } }
def f := tok { typ := 5, head := 59, a := 47, b := 0 }
def a := tok { typ := 6, head := 59, a := 1, b := 100 }
def r := { tok { typ := 6, head := 59, a := 2, b := 0 } with stackStops := [3, 59] }
/-- Every clause of the statement has a state and operands that meet its hypotheses. -/
theorem witness_marks_and_alarms :
    ok [s.sn.contains { typ := 1, head := 0, a := 0, b := 8 }, s.bayUp s.rootBay, s.rootBay == 29,
      after (.globalMarkUpdate 0 0 8) s (fun t => SMap.get none t.rootPos 0 == some 8 && t.lowestPos 0 == some 8 && SMap.get none t.rootMark 0 == some 8 &&
        t.sn.length == 2889 && t.sn.take 2 == [k, { typ := 2, head := 0, a := 0, b := 8 }] && t.cores == s.cores && t.stack == s.stack),
      after (.globalMarkUpdate 0 0 8) { s with rootMark := [(0, some 8)] } (fun t => t.sn == [k] && t.rootMark == [(0, some 8)]),
      g.sn.contains { typ := 2, head := 0, a := 65535, b := 4 }, g.coreUp 0,
      after (.globalMark 0 65535 4) g (fun t => t.sn == [k] && t.regs == g.regs && (t.core 0).gloM == some (65535, 4) && sameMem (g.core 0) (t.core 0)),
      after (.globalMark 0 65535 4) (g.onCore 0 (fun c => { c with gloM := some (0, 0) })) (fun t => (t.core 0).gloM == some (0, 0)),
      after (.fenceNotice 59 47) f (fun t => (t.land 7).fencedHere == [2879] && t.cores == f.cores && t.regs == f.regs),
      after (.alarm 59 1 100) a (fun t => t.evPending.map (fun e => (e.code, e.unit, e.payload)) == [(0x0607, 59, [59, 1, 100, 0])] && t.stackStops == [59] && t.cores == a.cores),
      after (.alarm 59 2 0) r (fun t => t.stackStops == [3] && t.regs == r.regs)] = true := by decide +kernel
end W_marks_and_alarms

namespace W_barriers_complete
def k : Token := { typ := 3, head := 0, a := 63, b := 7 }
def s := { tok k with bars := [(63, { p := 2, arr := [3], d := 65535 })] }
def s3 := { s with bars := [(63, { p := 3, arr := [3], d := 65535 })] }
def d := tok { typ := 4, head := 0, a := 0, b := 63, c := 5 }
def c := { crossing 0 [ent 5 0] with sn := [{ typ := 4, head := 0, a := 1, b := 0, c := 1 }] }
def b := c.onJob (fun j => { j with crossing := none })
/-- Every clause of the statement has a state and operands that meet its hypotheses. -/
theorem witness_barriers_complete :
    ok [s.sn.contains k, s.bayUp 0, !s.fenced 7, (s.bar 0 63).arr.length + 1 == (s.bar 0 63).p,
      after (.barArrive 0 63 7) s (fun t => t.bar 0 63 == { p := 2, arr := [], d := 0 } && t.sn.length == 49 && t.cores == s.cores && t.regs == s.regs &&
        t.sn.getLast? == some { typ := 4, head := 47, a := 0, b := 63, c := 0 }),
      after (.barArrive 0 63 7) s3 (fun t => t.bar 0 63 == { p := 3, arr := [3, 7], d := 65535 } && t.sn.length == 1),
      d.sn.contains { typ := 4, head := 0, a := 0, b := 63, c := 5 }, d.coreUp 0,
      after (.barDone 0 false 63 5) d (fun t => SMap.get 0 (t.core 0).doneB 63 == 5 && sameMem (d.core 0) (t.core 0) && t.regs == d.regs && t.job == d.job),
      c.startsRole 0 1 == none, after (.barDone 0 true 0 1) c (fun t => SMap.get 0 (t.core 0).doneB 64 == 1 && t.job == c.job),
      b.sn.contains { typ := 4, head := 0, a := 1, b := 0, c := 1 }, b.startsRole 0 1 == some 0] = true := by decide +kernel
end W_barriers_complete

namespace W_roots_and_slip
def s := { (roots up).onBay 29 (fun y => { y with dark := true }) with pathLong := true }
def z := { (roots up).onBay 30 (fun y => { y with dark := true }) with rootPos := [(0, some 4)], pathLong := true }
def c := (crossing 0 [{ ent 5 0 with offset := 1100 }]).onJob (fun j => { j with crossDone := [0], slipMax := 10, slipLanding := 7 })
/-- Every clause of the statement has a state and operands that meet its hypotheses. -/
theorem witness_roots_and_slip :
    ok [(s.bay s.rootBay).dark, !(s.bay s.standbyBay).dark, s.standbyBay == 30,
      bit (s.reg (gloReg 0x30C)).toNat 14, after .rootFailover { s with barsSb := [(63, { p := 2, arr := [], d := 7 })] } (fun t => t.rootBay == 30 && t.bars == s.bars &&
        t.sn.contains { typ := 4, head := 2887, a := 1, b := 63, c := 7 } && t.cores == s.cores),
      after .rootFailover (roots up) (fun t => t == roots up),
      after .rootFailover { z with active := none } (fun t => !bit (t.reg (gloReg 0x30C)).toNat 14 && t.rootBay == 29 && t.sn == []),
      after .rootFailover z (fun t => t.rootBay == 29 && t.rootPosSb == z.rootPos && t.bars == z.bars && t.cores == z.cores && t.sn == z.sn && t.standbyBay != 30),
      c.job.crossing == some 0, c.allIssued, c.active != none, c.fld (gloReg 0x100) 15 0 == 10,
      after .crossingEnd c (fun t => t.job.slipped && t.cores == c.cores && t.stack == c.stack && t.fld (gloReg 0x104) 27 0 == 10 && t.fld (gloReg 0x104) 30 28 == 7 &&
        (t.evPending.map (fun e => e.code)) == [0x0107]),
      after .crossingEnd (c.setReg (gloReg 0x100) 0) (fun t => t.evPending == [] && t.job.slipped)] = true := by decide +kernel
end W_roots_and_slip

namespace W_detected_failures_fence
def s := upc id
def done := fun (cause : Nat) (t : State) => t.fenced 0 && !t.running 0 && SMap.get 0 t.rep.fence 0 == cause && t.sn.contains { typ := 5, head := 0, a := 0, b := 0 } &&
    t.evPending.any (fun e => e.code == 0x0205 && e.payload == payload [(2, 0), (1, cause)])
def b := s.onCore 0 (fun c => { c with bist := true })
def l := s.onCore 0 (fun c => { c with ceTimes := List.replicate 17 0 })
/-- Every clause of the statement has a state and operands that meet its hypotheses. -/
theorem witness_detected_failures_fence :
    ok [s.coreUp 0, s.active != none, s.fld (hubReg 0 0x500) 15 0 == 1000, s.fld (hubReg 0 0x500) 23 16 == 16, s.running 0,
      after (.watchdogExpiry 0) s (done 4), after (.bistPassStart 0) s (fun t => t == b),
      after (.bistPass 0 true false) b (fun t => t == s), after (.bistPass 0 false false) b (done 1),
      after (.coreMemoryError 0 2 true) s (done 3),
      after (.coreMemoryError 0 2 false) s (fun t => t.fld (coreReg 0 0 0x48) 23 16 == 1 && !t.fenced 0 && bit (t.reg (timerStat 0)).toNat 3 &&
        sameMem (s.core 0) (t.core 0) && regsBut [coreReg 0 0 0x48, timerStat 0] s t),
      after (.eccLimit 0) l (done 2), after (.syncLinkTimeout 0) { s with pathLong := true } (done 5), after (.coreSupplyFault 0) s (done 6)] = true := by decide +kernel
end W_detected_failures_fence

namespace W_sisters_take_over
def k : Ctx := { role := some 3, v := [(1, 1)], s := [(2, 2)], x := [(3, 3)], sill := at_ 0 [1], istore := at_ 4 [2], pcReg := 0x2004 }
def s := (upc (fun c => { c with stored := some k, curRole := some 9, v := [(5, 5)], sill := at_ 8 [8] })).setReg (coreReg 0 0 4) 0x6007
def z := (jobS 2 noMan (upc (fun c => { c with roles := [2879] }))).setReg (hubReg 0 0x504) 1
/-- Every clause of the statement has a state and operands that meet its hypotheses. -/
theorem witness_sisters_take_over :
    ok [z.fenced 0, z.active != none, !z.mpUndef, (z.core 0).roles == [2879], z.sisterOf noMan 0 == some 1, s.coreUp 0, s.fld (coreReg 0 0 4) 13 13 == 1, s.fld (coreReg 0 0 4) 16 14 == 1, (s.core 0).point == none, (s.core 0).feet == [], s.ctxReady 0 k,
      after (.roleSwitch 0) s (fun t => (t.core 0).curRole == some 3 && (t.core 0).v == k.v && (t.core 0).s == k.s && (t.core 0).x == k.x && (t.core 0).sill == k.sill &&
        (t.core 0).istore == k.istore && t.reg (coreReg 0 0 4) == 0x2004 && ((t.core 0).stored.map (fun (y : Ctx) => (y.role, y.v, y.sill, y.pcReg))) ==
          some (some 9, [(5, 5)], at_ 8 [8], 0x6007) && t.fld (coreReg 0 0 0x80) 1 1 == 1)] = true := by decide +kernel
end W_sisters_take_over

/-! ## Frames and links -/

/-- Landing 7 up, taking frames; frame numbers begin at the last number. -/
def rx : State := (linked 7 up).onLand 7 (fun x => { x with rxExpect := 2 ^ 24 - 1 })

/-- The frame with the number rx expects. -/
def nf (f : Frame) : Frame := { f with seq := 2 ^ 24 - 1 }

/-- Accepted, checked. -/
def acc0 (t : State) : Bool := (t.land 7).rxExpect == 0

namespace W_data_frames_act
def b : PlankBuf := { role := 1, idx := 0, object := 105, frames := 254 }
def c := (crossing 1 [last 5 0]).onLand 0 (fun x => { x with planks := [{ b with full := true }, b] })
def p : Frame := { frame 1 0 0xAB [7, 8] with object := 105, index := 254, backward := true }
def h := nf (frame 2 1 (2 ^ 64 * (2 ^ 36 * 53 - 256 + 2 ^ 36)) [1, 2, 3])
def s := bayOn 54 rx
def cr := nf (frame 5 4 0 (List.replicate 4 9 ++ [5, 0, 0, 0] ++ List.replicate 112 0 ++ [255, 255, 255, 255]))
def hl := nf (frame 7 4 (9 + 2 ^ 64 * 77) [])
def r := s.onLand 7 (fun x => { x with replay := [{ frame 1 0 0 [] with seq := 9 }, { frame 1 0 0 [] with seq := 10 }] })
def z := s.onLand 7 (fun x => { x with partnerSeen := true })
def same := (r.onLand 7 (fun x => { x with partnerSeen := true })).setReg (landReg 7 0x20) 77
def w6 : SReq := { core := 7, wr := true, addr := 0, spad := 0, data := [], kind := 6 }
/-- Every clause of the statement has a state and operands that meet its hypotheses. -/
theorem witness_data_frames_act :
    ok [c.takes 0 p, (c.land 0).planks.find? (fun b => !b.full) == some b, c.landV 0 == 0,
      after (.plankFrame 0 p) c (fun t => (t.land 0).rxExpect == 1 && t.stack == c.stack && t.cores == c.cores && (t.land 0).planks == [{ b with full := true },
        { b with frames := 255, version := 0, data := Mem.write (at_ (256 * 254) [7, 8]) (65536 + 16 * 254) [0xAB] }]),
      after (.plankFrame 0 { p with index := 0 }) (c.onLand 0 (fun x => { x with planks := [{ b with frames := 0, version := 9 }] })) (fun t =>
        (t.land 0).planks == [{ b with frames := 1, data := Mem.write (at_ 0 [7, 8]) 65536 [0xAB] }]),
      s.hubHolds 53 == false, (s.onBay 53 (fun y => { y with held := true })).hubHolds 53,
      after (.freight 7 h) (s.onBay 53 (fun y => { y with held := true })) (fun t => acc0 t && t.stack == [] &&
        ((t.bay 53).q.map (fun r => (r.kind, r.core, r.wr, r.addr, r.data))) == [(6, 7, true, 2 ^ 36 * 54 - 256, [1, 2, 3])]),
      (s.onBay 3 (fun y => { y with q := [w6] })).inputWaits 7 == some 3,
      after (.freight 7 h) (s.onBay 3 (fun y => { y with q := [w6] })) (fun t => acc0 t && t.stack == [] && ((t.bay 53).q.map (fun r => r.kind)) == [6]),
      after (.freight 7 h) (s.onJob (fun j => { j with guard := [2 ^ 20 * 54 - 1] })) (fun t => acc0 t && t.stack == [] && (t.bay 53).q.length == 1),
      s.takes 7 h, h.sideNat 0 2 == 0, s.stackOk (2 ^ 36 * 54 - 256) 256,
      after (.freight 7 h) s (fun t => acc0 t && t.stack == at_ (2 ^ 36 * 54 - 256) [1, 2, 3] && t.cores == s.cores),
      s.takes 7 cr, after (.credit 7 cr) s (fun t => acc0 t && (t.land 7).credit == [(1, 5), (30, 0xFFFFFFFF)] && t.regs == s.regs),
      after (.holdFrame 7 (nf (frame 6 4 0x80000001 []))) s (fun t => acc0 t && t.reg (landReg 7 0xC) == 0x80000001 && regsBut [landReg 7 0xC] s t && t.cores == s.cores),
      after (.probe 7 (nf (frame 8 4 99 []))) s (fun t => (t.land 7).probeQ == [s.probeAnswer 7 99] && t.regs == s.regs && (t.land 7).rxExpect == 2 ^ 24 - 1),
      r.takes 7 hl, after (.hail 7 hl) r (fun t => t.reg64 (landReg 7 0x20) == 77 && (t.land 7).partnerSeen && !(t.land 7).halted &&
        ((t.land 7).replay.map (fun g => g.seq)) == [10]),
      same.takes 7 hl, same.reg64 (landReg 7 0x20) == 77,
      after (.hail 7 hl) same (fun t => t.reg64 (landReg 7 0x20) == 77 && (t.land 7).partnerSeen && !(t.land 7).halted && t.evPending == [] &&
        ((t.land 7).replay.map (fun g => g.seq)) == [10]),
      z.reg64 (landReg 7 0x20) == 0, after (.hail 7 hl) z (fun t => (t.land 7).halted && bit (t.reg (landReg 7 4)).toNat 20 && t.reg64 (landReg 7 0x20) == 77 &&
        (t.evPending.map (fun e => (e.code, e.payload))) == [(0x0405, [7])])] = true := by decide +kernel
end W_data_frames_act

/-- A register access record of 16 bytes for stack address a. -/
def rec16 (a op : Nat) (d : List Byte) : List Byte := leBytes 6 (a + 2 ^ 46) ++ leBytes 1 op ++ [0] ++ d ++ List.replicate (8 - d.length) 0

namespace W_control_frames_act
def s := bayOn 54 rx
def w := nf (frame 11 5 0 (rec16 (2 ^ 36 * 54) 2 [1, 2, 3, 4]))
def r := nf (frame 12 5 0 (rec16 (2 ^ 36 * 54) 1 []))
def z := { s with stack := at_ (2 ^ 36 * 54) [9, 8, 7, 6] }
def g := s.onBay 3 (fun y => { y with q := [{ core := 7, wr := true, addr := 0, spad := 0, data := [], kind := 6 }] })
def u := s.onBay 54 (fun y => { y with held := true })
def cr := { nf (frame 9 4 (1 + 2 ^ 32 * 5 + 2 ^ 64 * 3) []) with version := 1 }
def p := s.onJob (fun j => { j with st := 2, step := 5, prepared := [(7, some 3)] })
def cm := { frame 9 4 (2 + 2 ^ 32 * 5) [] with version := 1 }
def d := s.onLand 7 (fun x => { x with commitRep := some cm })
def k : Snap := { number := 4, version := 2, alt := 0, step := 9, len := 0 }
def v := (s.onJob (fun j => { j with restoring := some 4, snaps := [k] })).onLand 7 (fun x => { x with revertRep := some (revertFrame k) })
def rv := { nf (frame 9 4 (6 + 2 ^ 32 * (revertFrame k).sideNat 4 4) []) with version := (revertFrame k).version }
def k1 : Snap := { k with len := 5 }
def v1 := (linked 0 v).onJob (fun j => { j with snaps := [k1], reverted := [0], st := 2 })
def q := s.onJob (fun j => { j with snaps := [{ k with len := 5, image := [1, 2] }] })
def sf := { nf (frame 4 3 4 []) with response := true }
/-- Every clause of the statement has a state and operands that meet its hypotheses. -/
theorem witness_control_frames_act :
    ok [s.takes 7 w, s.stackOk (2 ^ 36 * 54) 4,
      s.inputWaits 7 == none, g.inputWaits 7 == some 3, after (.barrierFrame 7 (nf (frame 10 4 63 []))) g (fun t => acc0 t && t.sn == [] &&
        ((t.bay 3).q.drop 1).map (fun r => (r.kind, r.core, r.spad)) == [(5, 7, 63)]),
      u.hubHolds 54, after (.regwrite 7 w) u (fun t => acc0 t && t.stack == [] && (t.land 7).outQ == [] && ((t.bay 54).q.map (fun q => (q.kind, q.core, q.data.length))) == [(3, 7, 256)]),
      after (.regwrite 7 w) (s.onJob (fun j => { j with guard := [2 ^ 20 * 54] })) (fun t => acc0 t && t.stack == [] && (t.land 7).outQ == [] &&
        ((t.bay 54).q.map (fun q => q.kind)) == [3]),
      after (.regread 7 r) u (fun t => acc0 t && (t.land 7).outQ == [] && ((t.bay 54).q.map (fun x => x.data == r.payload ++ List.replicate (256 - r.payload.length) 0)) == [true]),
      after (.barrierFrame 7 (nf (frame 10 4 63 []))) s (fun t => acc0 t && t.sn == [{ typ := 3, head := 60, a := 63, b := 2887 }] && t.regs == s.regs),
      after (.regwrite 7 w) s (fun t => acc0 t && t.stack == at_ (2 ^ 36 * 54) [1, 2, 3, 4] &&
        ((t.land 7).outQ.map (fun g => (g.typ, g.response, num g.payload 7 1))) == [(11, true, 0)]),
      after (.regread 7 r) z (fun t => acc0 t && t.stack == z.stack &&
        ((t.land 7).outQ.map (fun g => (g.typ, g.response, (g.payload.drop 7).take 5))) == [(12, true, [0, 9, 8, 7, 6])]),
      p.namesAttempt cr, cr.sideNat 8 4 == 3, after (.commitReady 7 cr) p (fun t => acc0 t && SMap.get none t.job.readyCnt 7 == some 3 && !t.job.aborted),
      after (.commitDone 7 (nf { cm with side := cm.side + 1 })) d (fun t => acc0 t && (t.land 7).commitRep == none && t.job.doneL == [7]),
      rv.sideNat 4 4 == (revertFrame k).sideNat 4 4,
      after (.reverted 7 rv) (linked 6 v) (fun t => acc0 t && (t.land 7).revertRep == none && t.job.reverted == [7] && t.job.version == v.job.version),
      after (.reverted 7 rv) v (fun t => acc0 t && (t.land 7).revertRep == none && t.job.reverted == [7] && t.job.version == v.job.version),
      after (.reverted 7 rv) (v.onJob (fun j => { j with st := 2, need := 2 })) (fun t => t.job.reverted == [7] && t.job.version == v.job.version),
      after (.reverted 7 rv) (v.onJob (fun j => { j with st := 2, nextLoad := some noMan })) (fun t => t.job.reverted == [7] && t.job.version == v.job.version),
      v.landsUp == [7], (v1.pairLanding 0).isSome, k1.stripes == 1,
      after (.reverted 7 rv) v1 (fun t => acc0 t && (t.land 7).revertRep == none && t.job.version == 2 && t.job.restoring == some 4),
      decide ((q.job.snaps.map (fun k => k.stripes)) = [1]),
      after (.snapFrame 7 sf) q (fun t => acc0 t && (t.job.snaps.map (fun k => k.answered)) == [[3]]),
      !inboundOk (nf (frame 3 8 0 [])),
      after (.badFrame 7 (nf (frame 3 8 0 []))) s (fun t => acc0 t && t.fld (landReg 7 0x18) 15 0 == 1 && t.stack == s.stack && t.cores == s.cores && (t.land 7).outQ == []),
      after (.frameLoss ⟨7, true⟩) s (fun t => t.fld (landReg 7 0x14) 31 24 == 1 && t.reg (landReg 7 0x10) == s.reg (landReg 7 0x10) && (t.land 7).nakWanted),
      after (.frameLoss ⟨7, false⟩) s (fun t => t.fld (landReg 7 0x10) 31 16 == 1 && (t.land 7).nakWanted && (t.land 7).probeQ == [s.hailFrame 7 true] &&
        (t.land 7).rxExpect == 2 ^ 24 - 1)] = true := by decide +kernel
end W_control_frames_act

namespace W_frames_are_sent
def f := frame 2 2 5 [1]
def s := (linked 7 up).onLand 7 (fun x => { x with txSeq := 2 ^ 24 - 1 })
def r := s.onLand 7 (fun x => { x with resendIdx := some 1, replay := [frame 1 0 0 [], f] })
def p := s.onLand 7 (fun x => { x with probeQ := [{ frame 8 4 0 [] with response := true }, f] })
def q := s.onLand 7 (fun x => { x with outQ := [f], credit := [(2, 1)] })
def d := s.onLand 7 (fun x => { x with injHeldOut := [f, f] })
def due := s.onLand 7 (fun x => { x with probeQ := [frame 7 4 (2 ^ 24) [], f], rxExpect := 3 })
def hold := s.onLand 7 (fun x => { x with outQ := [frame 6 4 0x80000000 []], credit := [(4, 1)] })
def hq := (s.onLand 7 (fun x => { x with outQ := [frame 2 9 5 [1]], credit := [(9, 1)] })).setReg (landReg 7 8) 0x80000200
/-- Every clause of the statement has a state and operands that meet its hypotheses. -/
theorem witness_frames_are_sent :
    ok [r.sends 7, after (.frameSend 7) r (fun t => (t.land 7).wire == [(crcOf { f with resend := true }, { f with resend := true })] && (t.land 7).replay == (r.land 7).replay && (t.land 7).resendIdx == none),
      after (.frameSend 7) (r.onLand 7 (fun x => { x with resendIdx := some 0 })) (fun t => (t.land 7).resendIdx == some 1),
      p.sends 7, after (.frameSend 7) p (fun t => ((t.land 7).wire.map (fun w => w.2)) == [{ frame 8 4 0 [] with response := true }] && (t.land 7).probeQ == [f] && (t.land 7).replay == []),
      after (.frameSend 7) due (fun t => ((t.land 7).wire.map (fun w => (w.2.typ, w.2.sideNat 0 3, w.2.sideNat 3 1))) == [(7, 2, 0)] && (t.land 7).probeQ == [f]),
      after (.frameSend 7) (due.onLand 7 (fun x => { x with nakWanted := true })) (fun t => ((t.land 7).wire.map (fun w => w.2.sideNat 3 1)) == [1]),
      (hold.nextFrame 7).map (fun f => f.typ) == some 6,
      after (.frameSend 7) hold (fun t => ((t.land 7).wire.map (fun w => (w.2.typ, w.2.seq))) == [(6, 2 ^ 24 - 1)] && (t.land 7).replay.length == 1),
      q.sends 7, q.nextFrame 7 == some f, (hq.nextFrame 7).map (fun f => f.vc) == some 9, !hq.holdStays 7 9,
      after (.frameSend 7) hq (fun t => t.reg (landReg 7 8) == 0x80000000 && t.cores == hq.cores),
      after (.frameSend 7) q (fun t => (t.land 7).wire == [(crcOf { f with seq := 2 ^ 24 - 1 }, { f with seq := 2 ^ 24 - 1 })] && (t.land 7).replay == [{ f with seq := 2 ^ 24 - 1 }] &&
        (t.land 7).txSeq == 0 && SMap.get 0 (t.land 7).credit 2 == 0 && t.cores == q.cores),
      (d.land 7).present, d.bayUp 53,
      after (.injectedDelayEnd 7) d (fun t => (t.land 7).wire == [(crcOf f, f), (crcOf f, f)] && (t.land 7).injHeldOut == [] && t.regs == d.regs && t.cores == d.cores)] = true := by decide +kernel
end W_frames_are_sent

namespace W_links_are_kept
def s := linked 7 up
def n := s.onLand 7 (fun x => { x with nakWanted := true, ackDue := true, replay := [frame 1 0 0 []] })
def b := fun (t : State) => bit (t.reg (landReg 7 4)).toNat
def four := s.setReg (landReg 7 4) 0x1000F
def three := s.setReg (landReg 7 4) 0x8006
def held := s.onLand 7 (fun x => { x with hostHold := 1 })
/-- Every clause of the statement has a state and operands that meet its hypotheses. -/
theorem witness_links_are_kept :
    ok [s.linkLive 7, s.linkUp 7, after (.nakRepeat 7) n (fun t => (t.land 7).probeQ == [n.hailFrame 7 true] && t.regs == n.regs && (t.land 7).outQ == []),
      after (.hailAckDue 7) n (fun t => (t.land 7).probeQ == [n.hailFrame 7 false] && !(t.land 7).ackDue && t.regs == n.regs),
      after (.hailIdle 7) s (fun t => (t.land 7).probeQ == [s.hailFrame 7 false] && t.regs == s.regs),
      after (.replayTimeout 7) n (fun t => (t.land 7).resendIdx == some 0 && (t.land 7).replay == (n.land 7).replay && t.fld (landReg 7 0x10) 15 0 == 1),
      held.fld (landReg 7 0) 15 7 != 0, held.holdCause 7 3 0, !bit (held.reg (landReg 7 8)).toNat 31,
      after (.hold 7 31 3 0) held (fun t => t.reg (landReg 7 8) == 0x80000000 && regsBut [landReg 7 8] held t &&
        ((t.land 7).outQ.map (fun f => (f.typ, f.sideNat 0 4))) == [(6, 0x80000000)]),
      after (.partnerLost 7) s (fun t => b t 17 && !t.linkLive 7 && t.evPending.any (fun e => e.code == 0x0403 && e.payload == [7])),
      b four 3, after (.laneGroupDown 7 3) four (fun t => !b t 3 && (List.range 16).all (fun h => h == 3 || b t h == b four h) && !b t 16 &&
        t.evPending.any (fun e => e.code == 0x0401)),
      after (.laneGroupDown 7 4) four (fun t => !b t 4 && b t 16 && t.evPending.any (fun e => e.code == 0x0401)),
      after (.laneGroupDown 7 15) s (fun t => !b t 15 && b t 16),
      after (.linkTrained 7 0) three (fun t => b t 0 && b t 1 && !b t 3 && b t 16 && (t.land 7).credit == []),
      after (.linkTrained 7 0) (s.setReg (landReg 7 4) 6) (fun t => b t 0 && !b t 16)] = true := by decide +kernel
end W_links_are_kept

/-- A flit of class c for core 3 at scratchpad 0x40. -/
def flit (c : Nat) : Flit := { src := 0, msg := 0, dst := 3, cls := c, addr := 0x40, data := [1, 2] }

namespace W_routers_move_flits
def s := up.setRtr 2 { inb := [(4, [flit 1])] }
def e := up.setRtr 3 { inb := [(4, [flit 1])] }
def h := up.setRtr 0 { held := [(1, flit 1), (4, flit 2)] }
def r := up.setRtr 2 { retry := [(2, [flit 1, flit 0])] }
/-- Every clause of the statement has a state and operands that meet its hypotheses. -/
theorem witness_routers_move_flits :
    ok [!(s.bay 0).dark, dimRoute 0 2 3 == 2, meshNbr 2 2 == some 3, !s.outFenced 2 2, s.roomAt 2 2 1, !bit (s.reg (linkInj 2 2)).toNat 0,
      after (.flitForward 2 2) s (fun t => SMap.get [] (t.rtr 2).inb 4 == [] && SMap.get [] (t.rtr 3).inb (farPort 2) == [flit 1] && t.cores == s.cores),
      dimRoute 0 3 3 == 0, !bit (e.reg (coreReg 3 8 0)).toNat 0,
      after (.flitForward 3 0) e (fun t => SMap.get [] (t.rtr 3).inb 4 == [] && (t.core 3).spad == at_ 0x40 [1, 2] && (t.core 3).v == []),
      (h.rtr 0).held.find? (fun x => x.1 == 4 && x.2.cls == 2) == some (4, flit 2),
      after (.multicastEscape 0 4) h (fun t => (t.rtr 0).held == [(1, flit 1), (4, flit 4)] && t.cores == h.cores && t.fld (coreReg 0 8 4) 15 0 == 1),
      after (.linkRetry 2 2) r (fun t => SMap.get [] (t.rtr 2).retry 2 == [flit 0] && SMap.get [] (t.rtr 3).inb (farPort 2) == [flit 1] && t.cores == r.cores)] = true := by decide +kernel
end W_routers_move_flits

/-! ## Stacks, power, start-up and boards -/

/-- Bay 59 runs, board 0 is active and healthy channels are all on. -/
def b59 : State := bayOn 59 { active := some 0 }

namespace W_stack_events
def s := b59
def o := s.onJob (fun j => { j with st := 2 })
def ev := fun (t : State) (c : Nat) (p : List Byte) => t.evPending.any (fun e => e.code == c && e.payload == p)
def a := 59 * 2 ^ 36
def m := { s with stack := Mem.write (Mem.write [] a [1, 2]) (a + 1024) [3] }
def scr := (s.setReg (hubReg 59 0x418) 0x13).onBay 59 (fun y => { y with rowCe := [(rowKey 31 9, 2)] })
def st := fun (k : Nat) => m.setReg (hubReg 59 0x40C) (BitVec.ofNat 32 (256 * k))
def th := fun (k : Nat) (deg : Int) (P : State → Bool) => after (.stackThermal 59 deg) (st k) (fun t =>
    t.fld (hubReg 59 0x40C) 7 0 == min 255 deg.toNat && P t)
/-- Every clause of the statement has a state and operands that meet its hypotheses. -/
theorem witness_stack_events :
    ok [s.bayUp 59, s.active.isSome, bit (s.reg (hubReg 59 0x404)).toNat 31, o.attemptOpen,
      after (.stackChannelLost 59 31) o (fun t => (t.bay 59).held && (t.bay 59).failedCh == [31] && decide (2 ≤ t.job.need) && t.stack == o.stack && ev t 0x501 [59, 31]),
      after (.stackRepair 59 31 7) s (fun t => (t.bay 59).softRows == [(31, 7)] && t.stack == s.stack && t.cores == s.cores && ev t 0x502 [59, 31, 0, 0, 7, 0, 0, 0]),
      m.stackOk a 1, m.channelOf a == 0, m.channelOf (a + 1024) == 1,
      scr.fld (hubReg 59 0x418) 4 4 == 1, decide (SMap.get 0 (scr.bay 59).rowCe (rowKey 31 9) < max 1 (scr.fld (hubReg 59 0x418) 3 0)),
      after (.patrolScrub 59 31 9 1) scr (fun t => SMap.get 0 (t.bay 59).rowCe (rowKey 31 9) == 3 && t.fld (hubReg 59 0x410) 15 0 == 1 && t.stack == scr.stack),
      after (.patrolScrub 59 31 9 1) (scr.onBay 59 (fun y => { y with rowCe := [(rowKey 31 9, 3)] })) (fun t => (t.bay 59).softRows == [(31, 9)] && t.stack == scr.stack),
      after (.patrolScrub 59 31 9 1) (scr.onBay 59 (fun y => { y with rowCe := [(rowKey 31 9, 3)], scrubbed := [rowKey 31 9] })) (fun t =>
        SMap.get 0 (t.bay 59).rowCe (rowKey 31 9) == 1 && (t.bay 59).softRows == []),
      !s.bayWaits 59, (s.bay 59).q == [], after (.stackAccess 59 ⟨31, 10⟩) scr (fun t => SMap.get 0 (t.bay 59).rowCe (rowKey 31 9) == 3 && t.fld (hubReg 59 0x410) 15 0 == 1),
      after (.stackRefresh 59 31) s (fun t => t == s),
      th 0 95 (fun t => t.fld (hubReg 59 0x40C) 9 8 == 0 && t.evPending == [] && t.stack == m.stack),
      th 0 96 (fun t => t.fld (hubReg 59 0x40C) 9 8 == 1 && ev t 0x504 [59, 1, 96, 0] && t.sn == []),
      th 1 92 (fun t => t.fld (hubReg 59 0x40C) 9 8 == 1 && t.evPending == []),
      th 1 91 (fun t => t.fld (hubReg 59 0x40C) 9 8 == 0 && ev t 0x504 [59, 0, 91, 0]),
      th 1 106 (fun t => t.fld (hubReg 59 0x40C) 9 8 == 2 && t.sn == [{ typ := 6, head := 59, a := 1, b := 106 }] && t.stack == m.stack),
      th 2 99 (fun t => t.fld (hubReg 59 0x40C) 9 8 == 1 && t.sn == [{ typ := 6, head := 59, a := 2, b := 99 }]),
      th 2 100 (fun t => t.fld (hubReg 59 0x40C) 9 8 == 2 && t.evPending == []),
      th 0 116 (fun t => (t.bay 59).dark && ev t 0x504 [59, 3, 116, 0])] = true := by decide +kernel
end W_stack_events

namespace W_bays_lose_power
def s := b59
def ev := fun (t : State) (c : Nat) (p : List Byte) => t.evPending.any (fun e => e.code == c && e.payload == p)
def three := { s with rep := { s.rep with phases := [(59, 0x3FF)] } }
def p3 := three.showPhases 59
def cr := s
def tw := { s with rep := { s.rep with phases := [(59, 2 ^ 20)] } }
def d22 := (domains12.find? (fun d => decide (d.1 ≤ 22 ∧ 22 < d.1 + d.2.1))).getD domains12[0]!
/-- Every clause of the statement has a state and operands that meet its hypotheses. -/
theorem witness_bays_lose_power :
    ok [s.bayUp 59, s.active.isSome,
      after (.supplyTrip 59 6) s (fun t => (t.bay 59).dark && t.rep.darkBays == [59] && t.sn == [{ typ := 6, head := 59, a := 3, b := 6 }] && t.regs == s.regs && t.cores == []),
      (bayLanding 53).isSome, after (.supplyTrip 53 5) (bayOn 53 s) (fun t => (t.bay 53).dark && t.rep.darkBays == [53]),
      !s.phaseOff 59 19, after (.phaseLost 59 19) s (fun t => t.phaseOff 59 19 && !t.phaseOff 59 18 && t.sn == [{ typ := 6, head := 59, a := 4, b := 19 }] &&
        phaseCeil (t.vcoreW 59) (t.vsramW 59) == some 0 && t.fld (paceStat 59) 5 4 == 0 && t.bayUp 59),
      p3.vcoreW 59 == 6, after (.phaseLost 59 15) p3 (fun t => t.phaseOff 59 15 && phaseCeil (t.vcoreW 59) (t.vsramW 59) == none && (t.bay 59).dark),
      after (.phaseLost 59 0) s (fun t => t.vcoreW 59 == 15 && t.fld (paceStat 59) 5 4 == 0),
      !s.phaseOff 59 20, !s.phaseOff 59 21, !s.phaseOff 59 22, after (.phaseLost 59 20) s (fun t => t.phaseOff 59 20 && t.bayUp 59 && ev t 0x704 [59]),
      domains12.find? (fun d => decide (d.1 ≤ 22 ∧ 22 < d.1 + d.2.1)) == some d22, tw.bayUp 59, !tw.phaseOff 59 22,
      after (.phaseLost 59 22) tw (fun t => t.phaseOff 59 22 && (t.bay 59).dark && t.rep.darkBays.contains 59),
      after (.busConverterLost 59 1) s (fun t => (t.bay 59).convLost == [1] && t.bayUp 59 && t.fld (phaseReg 59) 28 28 == 1 && ev t 0x705 [59]),
      after (.crackSuspect 59 19) cr (fun t => bit (t.reg (hubReg 59 0x60C)).toNat 19 && t.sn.contains { typ := 6, head := 59, a := 8, b := 19 }),
      after (.crackSuspect 59 0) cr (fun t => bit (t.reg (hubReg 59 0x60C)).toNat 0 && t.sn.contains { typ := 6, head := 59, a := 8, b := 0 })] = true := by decide +kernel
end W_bays_lose_power

namespace W_bay_samples
def s := b59
def ev := fun (t : State) (c : Nat) (p : List Byte) => t.evPending.any (fun e => e.code == c && e.payload == p)
def pc := (s.setReg (paceStat 59) 0x400).onBay 59 (fun y => { y with target := 3, paceBy := 3 })
def hot := s.onBay 59 (fun y => { y with hot112 := 99 })
def ck := ((bayOn 58 s).setReg (clkStat 59) 8)
def noN := s.onBay 58 (fun y => { y with dark := true })
def rf := ((bayOn 25 (bayOn 34 s)).setReg (clkStat 25) 12).onBay 34 (fun y => { y with lostSrc := [4] })
def alone := noN.onBay 53 (fun y => { y with dark := true })
/-- Every clause of the statement has a state and operands that meet its hypotheses. -/
theorem witness_bay_samples :
    ok [s.fld (paceStat 59) 11 11 == 0, iLim (s.vcoreW 59) == 490,
      after (.currentGuard 59 490000) s (fun t => t.fld (hubReg 59 0x610) 9 0 == 490 && t.fld (paceStat 59) 11 11 == 0 && t.cores == [] && t.stack == []),
      after (.currentGuard 59 490001) s (fun t => t.fld (hubReg 59 0x610) 9 0 == 491 && t.fld (paceStat 59) 11 11 == 1),
      after (.currentGuard 59 479999) (s.onBay 59 (fun y => { y with guardCur := true })) (fun t => t.fld (paceStat 59) 11 11 == 0),
      after (.currentGuard 59 480000) (s.onBay 59 (fun y => { y with guardCur := true })) (fun t => t.fld (paceStat 59) 11 11 == 1),
      after (.currentGuard 59 10) ((s.setReg (paceStat 59) 0x400).onBay 59 (fun y => { y with guardCur := true, guardFail := true })) (fun t => t.fld (paceStat 59) 11 11 == 1),
      after (.currentGuard 59 10) (s.onBay 59 (fun y => { y with guardHdr := [3] })) (fun t => t.fld (paceStat 59) 11 11 == 1),
      decide (max 1 (s.fld (hubReg 59 0x614) 23 16) < 60), (s.bay 59).droopAt == none,
      after (.droop 59 60) s (fun t => t.fld (hubReg 59 0x61C) 31 16 == 1 && t.sn == [{ typ := 6, head := 59, a := 5, b := 60 }] && (t.bay 59).droopAt == some 0),
      after (.paceChange 59) pc (fun t => t.fld (paceStat 59) 1 0 == 3 && t.evPending.any (fun e => e.code == 0x703 && e.payload.take 2 == [59, 3])),
      after (.junctionSample 59 105 48) s (fun t => t.fld (hubReg 59 0x620) 7 0 == 105 && t.fld (hubReg 59 0x620) 13 8 == 48 && t.fld (paceStat 59) 7 6 == 3 &&
        t.sn == [{ typ := 6, head := 59, a := 7, b := 105 }] && t.bayUp 59),
      after (.junctionSample 59 111 0) s (fun t => t.fld (paceStat 59) 7 6 == 3 && t.bayUp 59),
      after (.junctionSample 59 112 0) hot (fun t => (t.bay 59).dark && t.sn == [{ typ := 6, head := 59, a := 3, b := 0 }]),
      ck.fld (clkStat 59) 4 4 == 0,
      after (.clockFailover 59) ck (fun t => (t.bay 59).lostSrc == [ck.fld (clkStat 59) 2 0] && t.fld (clkStat 59) 4 4 == 0 && t.fld (clkStat 59) 2 0 != ck.fld (clkStat 59) 2 0),
      rf.bayUp 34, rf.fld (clkStat 25) 2 0 == 4, rf.fld (clkStat 25) 4 4 == 0,
      after (.clockFailover 25) rf (fun t => (t.bay 25).lostSrc == [4] && t.fld (clkStat 25) 4 4 == 1 && t.fld (clkStat 34) 4 4 == 1),
      after (.clockFailover 59) alone (fun t => t.fld (clkStat 59) 3 3 == 0 && t.fld (clkStat 59) 4 4 == 1 && ev t 0x706 [59])] = true := by decide +kernel
end W_bay_samples

namespace W_header_switches
def s := b59
def p := 2879
def i := coreIdx p
def m := s.setReg (hubReg 59 0x614) 20
def hi := m.onBay 59 (fun y => { y with sample := 468001 })
def hit := m.onBay 59 (fun y => { y with sample := 468000 })
def wait := s.onBay 59 (fun y => { y with hdr := [(3, 8)], hdrDue := [3] })
def almost := s.onBay 59 (fun y => { y with hdr := [(47, 28)] })
def q := s.onBay 59 (fun y => { y with hdr := [(47, 4)], hdrQuarter := [47] })
def sp := s.setReg (hubReg 59 0x614) 0x1000000
def nosp := sp.setCore p { roles := [2879] }
/-- Every clause of the statement has a state and operands that meet its hypotheses. -/
theorem witness_header_switches :
    ok [s.coreUp p, i == 47, !(s.bay 59).powered.contains i, s.phase == 0,
      after (.hdrStage p) s (fun t => (t.bay 59).hdr == [(47, 4)] && (t.bay 59).hdrSince == 4 && (t.bay 59).hdrDue == [] && t.cores == []),
      after (.hdrStage p) hit (fun t => (t.bay 59).hdr == [(47, 4)]),
      after (.hdrStage p) hi (fun t => (t.bay 59).hdr == [(47, 0)] && (t.bay 59).hdrDue == [47] && (t.bay 59).hdrSince == 0 && t.fld (hubReg 59 0x618) 23 8 == 1),
      after (.hdrStage p) wait (fun t => (t.bay 59).hdr == [(3, 12), (47, 0)] && (t.bay 59).hdrDue == [47] && t.cores == []),
      after (.hdrStage p) almost (fun t => (t.bay 59).hdr == [] && (t.bay 59).powered == [47]),
      after (.hdrDefer p) almost (fun t => (t.bay 59).hdrQuarter == [47] && (t.bay 59).hdr == [(47, 28)] && t.cores == []),
      after (.hdrDefer p) q (fun t => (t.bay 59).guardHdr == [47] && t.fld (paceStat 59) 11 11 == 1 && t.cores == []),
      after (.spareDailyTest p true) m (fun t => t == m),
      bit (sp.reg (hubReg 59 0x614)).toNat 24, (sp.sparesOf 59).contains p, !bit (m.reg (hubReg 59 0x614)).toNat 24, after (.spareDailyTest p false) m (fun t => t == m),
      !(nosp.sparesOf 59).contains p, after (.spareDailyTest p false) nosp (fun t => t == nosp),
      after (.spareDailyTest p true) (sp.onBay 59 (fun y => { y with powered := [47], hdr := [(47, 4), (3, 4)] })) (fun t => (t.bay 59).powered == [] &&
        (t.bay 59).hdr == [(3, 4)] && t.rep == sp.rep && t.cores == [] && !t.fenced p),
      after (.spareDailyTest p false) sp (fun t => t.fenced p && SMap.get 0 t.rep.fence p == 1)] = true := by decide +kernel
end W_header_switches

namespace W_module_power
def s := (bayOn 3 b59).onBay 3 (fun y => { y with sample := 7000 })
def under := upTo 60 (fun b s => (s.onBay b (fun y => { y with modCeilCool := 1 })).setModuleCeil b) s
def ev := fun (t : State) (c : Nat) (p : List Byte) => t.evPending.any (fun e => e.code == c && e.payload == p)
def cap := s.setReg (gloReg 0x604) 21000
def low := { s with inp := { s.inp with coolLow := 49, coolant := 3, on12 := true } }
def rdy := { s with readyUp := true, inp := { s.inp with on12 := true } }
def off := fun (t : State) => t.inp.stopped && (List.range 60).all (fun b => !t.bayUp b)
/-- Every clause of the statement has a state and operands that meet its hypotheses. -/
theorem witness_module_power :
    ok [!s.mpUndef, s.active.isSome,
      bestBay (fun b => (s.bay b).sample) (((List.range 60).filter s.bayUp).filter (fun b => decide (max (s.bay b).modCeilPow (s.bay b).modCeilCool < 3))) == some 3,
      after (.powerGuard 21501 1) s (fun t => (t.reg (gloReg 0x600)).toNat == 21501 + 65536 && (t.bay 3).modCeilPow == 1 && t.fld (paceStat 3) 9 8 == 1 && (t.bay 59).modCeilPow == 0 && t.cores == []),
      (under.bay 3).modCeilCool == 1, (under.bay 3).modCeilPow == 0,
      after (.powerGuard 21501 1) under (fun t => (t.bay 3).modCeilPow == 2 && t.fld (paceStat 3) 9 8 == 2 && (t.bay 59).modCeilPow == 0),
      after (.powerGuard 65535 65535) s (fun t => (t.reg (gloReg 0x600)).toNat == 65535 + 65536 * 65535 && (t.bay 3).modCeilPow == 1),
      after (.powerGuard 20000 1001) cap (fun t => (t.bay 3).modCeilPow == 1 && (t.bay 59).modCeilPow == 0), after (.powerGuard 20000 1000) cap (fun t => (t.bay 3).modCeilPow == 0),
      s.inp.coolant == 0, coolRow3 71 24 20 20, coolRow3 72 23 20 20, coolRow3 96 24 41 0, coolRow3 96 24 0 41, !coolRow3 72 24 40 40, coolRow1 95 20 20, coolRow1 96 36 0, coolRow1 96 0 36,
      !coolRow1 96 35 35,
      after (.coolantMonitor 95 30 20 20) s (fun t => t.inp.coolant == 1 && (List.range 60).all (fun b => (t.bay b).modCeilCool == 1) && !t.inp.stopped && t.inp.cool1 == 100 && t.inp.cool3 == 0 && ev t 0x708 []),
      after (.coolantMonitor 96 24 35 35) { s with inp := { s.inp with coolant := 3, cool3 := 1, cool1 := 2 } } (fun t => t.inp.coolant == 1 && t.inp.cool3 == 0 && t.inp.cool1 == 1 &&
        (t.bay 0).modCeilCool == 1 && ev t 0x708 []),
      after (.coolantMonitor 96 24 35 35) { s with inp := { s.inp with coolant := 3, cool3 := 1, cool1 := 1 } } (fun t => t.inp.coolant == 0 && ev t 0x708 []),
      after (.coolantMonitor 31 30 20 20) low off,
      after .riskSample s (fun t => t.fld (gloReg 0x500) 7 0 == s.riskScore && t.riskBand == s.riskScore / 64 && t.cores == [] && t.stack == [] && t.evPending == []),
      after (.inputLost 0 1) s (fun t => t.inp.lost54 == [1] && t.regs == s.regs && ev t 0x701 []),
      after (.inputLost 1 3) s (fun t => t.inp.lost12 == [3] && t.regs == s.regs && ev t 0x701 []),
      !s.readyUp, decide (s.phase < 5), after (.inputLost 2 0) s (fun t => !t.inp.ok54 && t.inp.stopped == s.inp.stopped && t.bays == s.bays),
      rdy.readyUp, after (.inputLost 2 0) { s with phase := 5 } off, after (.inputLost 2 0) rdy (fun t => off t && !t.inp.ok54), after (.inputLost 3 0) rdy (fun t => off t && !t.inp.on12),
      after (.inputRestored 0 1) { s with inp := { s.inp with lost54 := [0, 1] } } (fun t => t.inp.lost54 == [0]),
      after (.inputRestored 1 3) { s with inp := { s.inp with lost12 := [3] } } (fun t => t.inp.lost12 == []),
      after (.inputOutOfRange 0 true) s (fun t => t.inp.outRange == [0] && !t.inp.ok54),
      after (.inputOutOfRange 1 false) { s with inp := { s.inp with outRange := [0, 1] } } (fun t => t.inp.outRange == [0] && t.inp.ok54 == s.inp.ok54)] = true := by decide +kernel
end W_module_power

namespace W_module_starts
def off0 : State := { State.reset with inp := { State.reset.inp with on12 := false }, rep := { State.reset.rep with fence := [(5, 2)] }, regs := [(coreReg 7 6 8, 4)] }
def cold := fun (s t : State) => t.inp.on12 && t.cores == [] && t.stack == [] && t.lands == [] && t.job.st == 0 && !t.readyUp && t.rep == s.rep &&
    [0, 1].all (fun b => (t.board b).flash == (s.board b).flash && (t.board b).secCtr == (s.board b).secCtr && (t.board b).fuseKeys == (s.board b).fuseKeys && (t.board b).revoked == (s.board b).revoked) && t.fenced 5 && t.fenced 7 && !t.shipGood 7 && t.reg (coreReg 7 6 8) == 4 && (List.range 60).all (fun b => !(t.bay b).enabled)
def off := (off0.onBoard 1 (fun y => { y with secCtr := 3, revoked := 2, fuseKeys := [List.replicate 32 7], flash := [none, some { version := 9, security := 1, advance := true }] }))
def on := { off with inp := { off.inp with on12 := true }, stack := at_ 0 [1], readyUp := true }
def p3 : State := { active := some 0, phase := 3 }
def k59 := ((p3.clkList 59).find? (fun k => p3.clkSource 59 k && !(p3.bay 59).lostSrc.contains k)).getD 9
def p4 : State := { active := some 0, phase := 4 }
def w := { p4 with inp := { p4.inp with no54 := true } }
def t6 := { b59 with phase := 6 }
def t7 := { b59 with phase := 7, stack := at_ (59 * 2 ^ 36 + 31 * 1024) [9] }
def p8 : State := { active := some 0, phase := 8, pathLong := true }
def l7 := { bayOn (landingBay 7) { active := some 0 } with phase := 7 }
/-- Every clause of the statement has a state and operands that meet its hypotheses. -/
theorem witness_module_starts :
    ok [!off.inp.on12, on.inp.on12, after .powerOn off (cold off), after .powerOn on (fun t => t == on), after .moduleReset on (cold on),
      after .moduleReset { on with inp := { on.inp with on12 := false, stopped := true } } (cold on), !p3.inp.stopped, !p4.inp.stopped, !t6.inp.stopped, !t6.startFenced.contains 2879,
      !(p3.bay 59).dark, decide (k59 < 8),
      after (.pllLock 59) p3 (fun t => t.fld (clkStat 59) 2 0 == k59 && t.fld (clkStat 59) 3 3 == 1 && t.fld (clkStat 59) 4 4 == 0 && t.bays == p3.bays),
      !p4.mpUndef, !p4.inp.no54, p4.inp.ok54, p4.bayGroups.head? == some 0,
      after .bayEnable p4 (fun t => (List.range 4).all (fun i => t.bayUp i && t.fld (paceStat i) 1 0 == 3)),
      w.inp.no54, w.inp.ok54, after .no54vResume w (fun t => !t.inp.no54 && t == { w with inp := t.inp }),
      t6.bayUp (coreBay 2879), SMap.get 0 t6.rep.fence 2879 == 0, t6.shipGood 2879, !(({ t6 with regs := [(coreReg 2878 6 8, 4)] } : State).setFld (hubReg 59 0x508) 14 14 1).shipGood 2878,
      (({ t6 with regs := [(coreReg 2878 6 8, 4)] } : State).setFld (hubReg 59 0x508) 14 14 1).fenced 2878,
      (({ t6 with regs := [(coreReg 2878 6 8, 4)] } : State).testCore 2878 (some 3)) == { t6 with regs := [(coreReg 2878 6 8, 4)] },
      t7.bayUp 59, bit (t7.reg (hubReg 59 0x404)).toNat 31, !(t7.bay 59).trainedCh.contains 31,
      after (.stackTraining 59 31 true) t7 (fun t => (t.bay 59).trainedCh == [31] && t.phase == 7 && t.stack == []),
      after (.stackTraining 59 31 true) (t7.onBay 59 (fun y => { y with trainedCh := List.range 31 })) (fun t => t.phase == 8),
      after (.stackTraining 59 31 false) t7 (fun t => !bit (t.reg (hubReg 59 0x404)).toNat 31),
      (l7.land 7).present, l7.bayUp (landingBay 7), !bit (l7.reg (landReg 7 4)).toNat 16, l7.job.st == 0,
      after (.landingTraining 7 0xFFFF) l7 (fun t => t.fld (landReg 7 4) 15 0 == 0xFFFF && t.linkUp 7),
      p8.trainingOver, decide (7 ≤ p8.phase), p8.active.isSome, !p8.mpUndef,
      after .ready p8 (fun t => t.readyUp && t.phase == 0 && t.cores == p8.cores && t.evPending.any (fun e => e.code == 3))] = true := by decide +kernel
end W_module_starts

namespace W_boards_take_roles
def s0 : State := { active := some 0, readyUp := true, inp := { on12 := true } }
def s := (s0.onBoard 0 (fun y => { y with booted := true, ready := true, mbx := at_ 3 [1] })).onBoard 1 (fun y => { y with booted := true, ready := true })
def n := ({ s with active := none }).onBoard 1 (fun y => { y with ready := false })
def rs := (s.setBreg 0 0x5014 77).onBoard 0 (fun y => { y with secCtr := 5, revoked := 1, fuseKeys := [[1]] })
/-- Every clause of the statement has a state and operands that meet its hypotheses. -/
theorem witness_boards_take_roles :
    ok [s.standsBy 1, (s.board 1).beat == none,
      after (.boardFailover ⟨0, 1⟩) s (fun t => t.active == some 1 && !(t.board 0).ready && t.readyUp && t.evPending.any (fun e => e.code == 0x801 && e.payload.take 1 == [0])),
      after (.boardFailover ⟨1, 1⟩) s (fun t => t.active == some 0 && !(t.board 1).present && t.board 0 == s.board 0 && t.regs == s.regs && t.cores == s.cores && t.evPending == []),
      after (.boardFailover ⟨1, 0⟩) s (fun t => t.active == some 1 && !(t.board 0).present && t.readyUp && t.evPending.any (fun e => e.code == 0x801 && e.payload.take 1 == [0])),
      (n.board 1).present, (n.board 1).booted, !(n.board 1).ready, !n.mpUndef,
      after (.boardReady 1) n (fun t => t.active == some 1 && (t.board 1).ready && t.evPending.any (fun e => e.code == 0x802)),
      after (.boardReset 0) rs (fun t => (t.board 0).flash == (rs.board 0).flash && (t.board 0).secCtr == 5 && (t.board 0).revoked == 1 && (t.board 0).fuseKeys == (rs.board 0).fuseKeys && (t.board 0).mbx == [] && !(t.board 0).ready && t.breg 0 0x5014 == bReset 0 0x5014 &&
        t.active == none && t.cores == [] && t.regs == []),
      after (.boardReset 1) s (fun t => t.active == some 0),
      after (.boardInserted 1 true) (s.onBoard 1 (fun y => { y with secCtr := 3 })) (fun t => (t.board 1).present && (t.board 1).booted && !(t.board 1).ready && (t.board 1).mbx == [] && t.regs == []),
      after (.heartbeat 1) { s with time := 7 } (fun t => (t.board 1).beat == some 7 && t.regs == [] && t.cores == [])] = true := by decide +kernel
end W_boards_take_roles

/-! ## Commits, snapshots, registers and the host interface -/

/-- A step at its commit: crossing 1 of an applying step, landing 0 ready. -/
def commitS : State := (jobS 2 noMan (linked 0 up)).onJob (fun j => { j with crossing := some 1, prepared := [(0, some 3)], readyCnt := [(0, some 3)], watchDone := true, step := 4, version := 65535 })

namespace W_steps_commit
def s := commitS
def f : Frame := { frame 9 4 2 [] with version := 7 }
def rp := s.onLand 0 (fun x => { x with commitRep := some f })
def st := (s.onJob (fun j => { j with readyCnt := [] })).setReg (gloReg 0x204) 5
def again := (s.onJob (fun j => { j with need := 1, aborted := true, attemptTop := [(4, 2)] })).onCore 0 (fun c => { c with roles := [1], spad := at_ 8 [1] })
def ended := (s.onJob (fun j => { j with committed := true, lossOk := true })).onCore 0 (fun c => { c with roles := [1], endHold := true })
def hl := (s.onLand 0 (fun x => { x with heldStep := true })).onJob (fun j => { j with holdStep := some 6 })
def hg := s.onJob (fun j => { j with holdStep := some 6 })
def hv := s.onJob (fun j => { j with lostIn := [(4, 4)] })
def cw := (s.onBay 2 (fun y => { y with held := true })).onJob (fun j => { j with loaded := some { noMan with variants := [{ (default : Variant) with base := 2 ^ 37, frozen := true, copyLen := 64 }] } })
def held := fun (h : State) (fs : List (Nat × Nat)) => after .commitDecision h (fun t => t.job.st == 4 && !t.job.committed && t.job.aborted &&
    t.job.version == 65535 && t.job.step == 4 && t.cores == h.cores && t.stack == h.stack && t.reg (landReg 0 8) == 15 &&
    (t.land 0).outQ.any (fun f => f.typ == 9 && f.sideNat 0 1 == 4 && f.version == 0) && (t.evPending.map (fun e => e.code)) == [0x104, 0x103] &&
    (t.evPending.map (fun e => e.payload)).drop 1 == [payload fs])
def ev := fun (t : State) (c : Nat) (p : List Byte) => t.evPending.any (fun e => e.code == c && e.payload == p)
/-- Every clause of the statement has a state and operands that meet its hypotheses. -/
theorem witness_steps_commit :
    ok [!s.mpUndef, s.active.isSome, s.job.st == 2, !s.job.committed, !s.job.aborted, s.job.crossing == some 1, s.applies, !s.copyWaits, !s.stepHeld, s.allReady, cw.copyWaits, after .commitDecision cw (fun t => t == cw),
      s.job.watchDone, !s.job.fencedSince, s.landWorks 0,
      after .commitDecision s (fun t => t.job.committed && t.job.version == 0 && t.job.lastCommit == some 4 && t.job.step == 4 && (List.range 8).all (fun l => t.landV l == 0) &&
        t.cores == s.cores && (match (t.land 0).commitRep with
          | some g => (t.land 0).outQ.contains g && g.typ == 9 && g.sideNat 0 1 == 2 && g.version == 0
          | none => false) && t.evPending.any (fun e => e.code == 0x102)),
      [hl, hg, hv].all (fun h => h.stepHeld && !h.copyWaits && h.objectsDone && h.backwardIssued && h.job.watchDone && (h.land 0).present && h.landWorks 0),
      (hl.land 0).heldStep, !(hg.land 0).heldStep,
      held hl [(8, 4), (1, 0)], held hg [(8, 4), (2, 6)], held hv [(8, 4), (1, 3)],
      (rp.land 0).present, rp.bayUp (landingBay 0), after (.commitRepeat 0) rp (fun t => (t.land 0).outQ == [f] && t.job == rp.job && t.regs == rp.regs),
      st.landsUp.find? (fun l => (SMap.get none st.job.prepared l).isSome && (SMap.get none st.job.readyCnt l).isNone) == some 0, st.fld (gloReg 0x204) 15 0 != 0,
      !st.job.stalledRaised, after .commitStalled st (fun t => t.job.stalledRaised && t.regs == st.regs && ev t 0x105 [0]),
      !again.job.between, again.job.need == 1, again.job.restoring.isNone, again.job.nextLoad.isNone, again.bays.all (fun e => e.2.failedCh.isEmpty),
      (again.core 0).roles != [], again.coreUp 0,
      !ended.job.between, ended.job.need == 0, !ended.ledgerHeld, ended.attemptOver, ended.job.atBoundary == [], !ended.snapIsDue,
      decide (ended.job.lastSnapStep + ended.snapEvery ≠ ended.job.step + 1), ended.handover.isNone, ended.liveOrder == 0, ended.mapRequests == [], ended.job.nextLoad.isNone,
      (ended.core 0).roles != [], ended.coreUp 0, (ended.core 0).endHold] = true := by decide +kernel
end W_steps_commit

namespace W_snapshots_and_restores
def k : Snap := { number := 5, version := 2, alt := 0, step := 3, len := 300, image := List.replicate 300 7 }
def s := (jobS 2 noMan (linked 0 up)).onJob (fun j => { j with snaps := [k] })
def ka := { k with sent := 1, again := [0], via := [(0, 1)] }
def ag := s.onJob (fun j => { j with snaps := [ka] })
def r : SReq := { core := 0, wr := true, addr := 65536 * 3 + 5, spad := 0, data := [1, 2] }
def y := { (up.bay 0) with q := [r] }
def g := ({ up with bays := [(0, y)] }).onJob (fun j => { j with guard := [3, 4] })
def lo := (jobS 2 noMan up).onJob (fun j => { j with committed := true })
def gh := (s.onJob (fun j => { j with guard := [2 ^ 21] })).onBay 2 (fun y => { y with held := true })
def e : LossRec := { step := 0, att := 0, core := 7, tag := 2, value := 5 }
def l1 := lo.onJob (fun j => { j with lossAtt := [(0, 1)], replayEnd := 9, mismatched := true })
def l2 := l1.onJob (fun j => { j with losses := [e], attLosses := [e], replayEnd := 1 })
def tk := { k with taken := true }
def rs := s.onJob (fun j => { j with snaps := [tk], need := 2 })
def rv := rs.onLand 0 (fun x => { x with revertRep := some (revertFrame tk) })
/-- Every clause of the statement has a state and operands that meet its hypotheses. -/
theorem witness_snapshots_and_restores :
    ok [!s.mpUndef, s.active.isSome, s.job.snaps.find? (fun k => !k.taken) == some k, decide (k.sent < k.stripes), s.pairLanding (k.sent % 4) == some 0,
      after .snapshot s (fun t => (t.land 0).outQ.length == 2 && (t.land 0).outQ.all (fun f => f.typ == 4 && f.vc == 3) && (t.job.snaps.map (fun x => x.sent)) == [1] &&
        t.stack == s.stack && (t.job.snaps.map (fun x => SMap.get 0 x.via 0)) == [1]),
      ag.snapReroute ka == ka, ka.again.head? == some 0, ag.job.snaps.find? (fun x => !x.taken) == some ka,
      after .snapshot ag (fun t => (t.land 0).outQ.length == 2 && (t.job.snaps.map (fun x => (x.sent, x.again))) == [(1, [])]),
      g.bays == [(0, { g.bay 0 with q := [r] })],
      !g.bayWaits 0, s.guardHeld == false, gh.guardHeld, after .snapshot gh (fun t => t == gh),
      (blocksOf r.addr r.span).filter g.job.guard.contains == [3], after .snapGuardWrite g (fun t => t.job.guard == [4] && t.bays == g.bays && t.stack == g.stack),
      lo.job.st == 2, !lo.job.lossOk, lo.stepOver, lo.lossesOf lo.job.step == [], decide (lo.job.replayEnd ≤ lo.job.step),
      after .lossCompare lo (fun t => t.job.lossOk && t == { lo with job := t.job }), !lo.job.askLog,
      l1.stepOver, l1.lossesOf 0 == [], after .lossCompare l1 (fun t => t.job.lossOk && t.job.mismatched && t == { l1 with job := t.job }),
      l2.lossesOf 0 == [e], lossBlock (l2.lossesOf 0) == lossBlock l2.job.attLosses, after .lossCompare l2 (fun t => t.job.lossOk && !t.job.mismatched && t == { l2 with job := t.job }),
      rs.job.restoring.isNone, rs.job.need == 2, rs.job.nextLoad.isNone, rs.restorable == some tk, rs.rolesPlaced, rs.rowsServed, rs.job.st == 2, rs.bays.all (fun e => e.2.failedCh.isEmpty), s.snapReroute k == k, rs.landWorks 0,
      after .restore rs (fun t => t.job.restoring == some 5 && t.job.need == 0 && t.cores == rs.cores && t.stack == rs.stack && (t.land 0).outQ == [revertFrame tk] &&
        (t.land 0).revertRep == some (revertFrame tk)),
      (rv.land 0).present, rv.bayUp (landingBay 0), after (.revertRepeat 0) rv (fun t => (t.land 0).outQ == [revertFrame tk] && t.job == rv.job && t.regs == rv.regs)] = true := by decide +kernel
end W_snapshots_and_restores

namespace W_registers_and_windows
def s := (bayOn 59 { active := some 0 }).setReg (hubReg 59 0x410) 0x00FF0003
def offs := [0x40C, 0x410, 0x418, 0x500, 0x50C, 0x614, 0x61C]
def p := 2879
def cs := [(0, 0x48), (0, 0x60), (0, 0x80), (1, 0), (1, 0x14), (2, 0x80), (2, 0x84), (3, 0), (3, 8), (5, 0xC), (5, 0x84), (7, 4), (7, 8), (8, 4)]
def s2 := forAll (cs.map (fun k => coreReg p k.1 k.2)) (fun a s => s.setReg a 0x55AA55AA) (bayOn 53 s)
def as := cs.map (fun k => coreReg p k.1 k.2) ++ [0x400, 0x404, 0x500, 0x504, 0x508, 0x600, 0x604, 0x700, 0x710, 0x900, 0x914].map (landReg 7) ++
    [0x100, 0x104, 0x204, 0x208, 0x504, 0x604].map gloReg
def pg := { s with memPage := [(pageKey p 73, 2)] }
def m := pg.onCore p (fun c => { c with spad := at_ 0x10010 [1, 2, 3, 4, 5, 6, 7, 8] })
/-- Every clause of the statement has a state and operands that meet its hypotheses. -/
theorem witness_registers_and_windows :
    ok [s.bayUp 59, offs.all (fun o => (regDef (hubReg 59 o)).isSome),
      offs.all (fun o => match regDef (hubReg 59 o) with
        | some d => after (.registerWrite (hubReg 59 o) 0xFFFFFFFF 73) s (fun t =>
            t.reg (hubReg 59 o) == (s.reg (hubReg 59 o) &&& ~~~(BitVec.ofNat 32 d.rw) &&& ~~~(BitVec.ofNat 32 d.w1c)) ||| BitVec.ofNat 32 d.rw &&
            regsBut [hubReg 59 o] s t && t.back == {} && t.cores == s.cores) &&
          after (.rcRead (hubReg 59 o)) s (fun t => t.back == { data := leBytes 4 (s.reg (hubReg 59 o)).toNat } && regsBut [hubReg 59 o] s t &&
            t.reg (hubReg 59 o) == s.reg (hubReg 59 o) &&& ~~~(BitVec.ofNat 32 d.rc))
        | none => false),
      (s2.land 7).present, s2.bayUp (landingBay 7), as.all (fun a => (regDef a).isSome),
      as.all (fun a => match regDef a with
        | some d => after (.registerWrite a 0xFFFFFFFF 73) s2 (fun t =>
            t.reg a == (s2.reg a &&& ~~~(BitVec.ofNat 32 d.rw) &&& ~~~(BitVec.ofNat 32 d.w1c)) ||| BitVec.ofNat 32 d.rw && regsBut [a] s2 t && t.back == {} && t.cores == s2.cores) &&
          after (.rcRead a) s2 (fun t => t.back == { data := leBytes 4 (s2.regShown a).toNat } && regsBut [a] s2 t &&
            t.reg a == s2.reg a &&& ~~~(BitVec.ofNat 32 d.rc) && t.cores == s2.cores)
        | none => false),
      after (.stackMapoutRequest 59 0x80000001) s (fun t => t.reg (hubReg 59 0x408) == 0x80000001 && regsBut [hubReg 59 0x408] s t && t.stack == []),
      after (.tapCtrl p 0x2BF6) s (fun t => t.fld (coreReg p 7 0) 11 0 == 0xBF6 || t.regs == s.regs),
      after (.tapCtrl p 0x8100) s (fun t => t.fld (coreReg p 7 0) 11 0 == 0x100 && t.fld (coreReg p 7 0) 15 12 == 8 && t.cores == []),
      decide (spadTop < 0xFFF * 4096 + 2 * slotBytes), after (.tapCtrl p 0x2FFF) s (fun t => t == s),
      after (.greenCtrl p 0xFFF0_1BE0) s (fun t => t.reg (coreReg p 0 0x70) == (s.reg (coreReg p 0 0x70) &&& ~~~0x3FFFF#32) ||| 0x1BE0 && t.cores == []),
      after (.memoryWindow 73 p 0x8010 8 none) m (fun t => t.back == { data := [1, 2, 3, 4, 5, 6, 7, 8] } && t.cores == m.cores && t.regs == m.regs),
      after (.memoryWindow 73 p 0xFFFC 4 (some 0x01020304)) m (fun t => (t.core p).spad == Mem.write (m.core p).spad 0x17FFC [4, 3, 2, 1] && (t.core p).sill == [] && t.regs == m.regs)] = true := by decide +kernel
end W_registers_and_windows

namespace W_timers_and_windows
def p := 2879
def s := (bayOn 59 { active := some 0 }).setReg (timerCtrl p) 1
def cl := s.setReg (timerStat p) 8
def run := (s.setReg (timerStat p) 1).setCore p { ceTimes := [0] }
def sp := (s.setReg (hubReg 59 0x614) 0x1000000).setReg (timerStat p) 8
def no := s.setReg (hubReg 59 0x614) 0
def a := coreReg p 5 0xC0
def w := { (s.setReg a 0x20).setReg64 (a + 16) 9 with bwAcc := [(a + 8, 7), (a + 24, 2 ^ 48 + 5)] }
/-- Every clause of the statement has a state and operands that meet its hypotheses. -/
theorem witness_timers_and_windows :
    ok [s.bayUp (coreBay p), s.fld (timerCtrl p) 0 0 == 1, s.fld (timerStat p) 3 3 == 0, s.fld (timerStat p) 0 0 == 0,
      after (.timerStart p) s (fun t => t.fld (timerStat p) 1 0 == 1 && regsBut [timerStat p] s t && t.cores == []),
      after (.timerStart p) cl (fun t => t.fld (timerStat p) 2 2 == 1 && t.fld (timerStat p) 1 0 == 0),
      after (.windowEnd p) run (fun t => t.fld (timerStat p) 1 0 == 2 && regsBut [timerStat p] run t),
      after (.timerClaim p) run (fun t => t.fld (timerStat p) 3 3 == 1 && t.fld (timerStat p) 0 0 == 0 && t.fld (timerStat p) 2 2 == 1 && regsBut [timerStat p] run t),
      run.mayClaim p, sp.mayClaim p, !no.mayClaim p, after (.timerClaim p) no (fun t => t == no), after (.timerClaim 0) s (fun t => t == s), !s.bayUp 0,
      after (.timerClaim p) sp (fun t => t.fld (timerStat p) 3 3 == 1 && t.fld (timerStat p) 2 0 == 0),
      after (.timerClaimEnd p) cl (fun t => t.fld (timerStat p) 3 0 == 0 && t.cores == []),
      after (.bwCtrl a 0xFFFFFFFF) w (fun t => t.reg a == (w.reg a &&& ~~~0x3F3F#32) ||| 0x3F3F && [8, 16, 24, 32].all (fun k => t.reg64 (a + k) == 0) && t.bwAcc == []),
      w.fld a 5 5 == 1,
      after (.bwWindowEnd a) w (fun t => t.reg64 (a + 8) == 7 && t.reg64 (a + 16) == 9 && t.reg64 (a + 24) == 5 && t.reg64 (a + 32) == 5 && t.bwAcc == [])] = true := by decide +kernel
end W_timers_and_windows

namespace W_host_accesses
def s0 : State := { active := some 0, inp := { on12 := true }, time := 200000000 }
def s := (s0.onBoard 1 (fun y => { y with booted := true, ready := true })).setReg (gloReg 0x700) 4
def n := { s with active := none, posted := [(200000000, 0, 3)] }
def n2 := { n with posted := [(200000000, 1, 63)] }
def fr := s.slotPut 1 63 8 [1]
def q := s.slotPut 1 63 0 [1, 8]
def st := { bayOn 2 s with stack := Mem.write [] (2 ^ 37 + 8) [1, 2, 3, 4, 5, 6, 7, 8] }
def hd := st.onBay 2 (fun y => { y with held := true })
def gd := st.onJob (fun j => { j with guard := [2 ^ 21] })
/-- Every clause of the statement has a state and operands that meet its hypotheses. -/
theorem witness_host_accesses :
    ok [s.boardOn 1, s.inp.on12, decide (200000000 ≤ s.inp.smbAge + s.time), !s.frozen 1 0x3FFF, after (.mailboxWrite 1 0x3FFF [9]) s (fun t => (t.board 1).mbx == at_ 0x3FFF [9] && t.regs == s.regs),
      fr.frozen 1 (63 * 256 + 0x7F), after (.mailboxWrite 1 (63 * 256 + 0x7F) [9]) fr (fun t => (t.board 1).mbx == (fr.board 1).mbx && t.bfld 1 0x6008 31 16 == 1),
      !n.mpUndef, n.slotState 1 63 == 0, after (.doorbell 1 63) n (fun t => t.slotState 1 63 == 1 && t.posted == [(200000000, 0, 3), (200000000, 1, 63)]),
      after (.doorbell 1 5) n2 (fun t => t.slotState 1 5 == 1 && t.posted == [(200000000, 1, 5), (200000000, 1, 63)]),
      after (.doorbell 1 5) { n with posted := [] } (fun t => t.posted == [(200000000, 1, 5)]),
      q.slotState 1 63 == 0, q.liveOrder == 0, q.handover.isNone, q.posted == [], queryCodes.contains (q.slotNum 1 63 0 2),
      after (.doorbell 1 63) q (fun t => t.slotState 1 63 == 2 && t.posted == [] && t.slotNum 1 63 0xC 4 == 2000),
      st.stackOk (2 ^ 37 + 8) 8, !st.hubHolds 2, hd.hubHolds 2, !gd.hubHolds 2, after (.barAccess 1 4 (2 ^ 37 + 8) false 8 []) st (fun t => t.back == { data := [1, 2, 3, 4, 5, 6, 7, 8] } && t.stack == st.stack && t.regs == st.regs),
      after (.barAccess 1 4 (2 ^ 37 + 4) true 4 [9, 8, 7, 6]) st (fun t => t.stack == Mem.write st.stack (2 ^ 37 + 4) [9, 8, 7, 6] && t.back == {} && t.regs == st.regs),
      after (.barAccess 1 4 (2 ^ 37 + 8) false 8 []) hd (fun t => t.back == {} && t.stack == hd.stack && (t.bay 2).q.map (fun r => (r.kind, r.wr, r.addr, r.spad)) == [(2, false, 2 ^ 37 + 8, 8)]),
      [hd, gd].all (fun h => after (.barAccess 1 4 (2 ^ 37 + 4) true 4 [9, 8, 7, 6]) h (fun t => t.back == {} && t.stack == h.stack &&
        (t.bay 2).q.map (fun r => (r.kind, r.wr, r.addr, r.data)) == [(1, true, 2 ^ 37 + 4, [9, 8, 7, 6])] && (t.bay 2).q.map (fun r => r.core) == [8 + st.bfld 1 0x6004 5 0])),
      after (.smbusRead 1 6) s (fun t => t.back == { data := leBytes 1 (s.smbByte 1 6) } && t == { s with back := t.back }),
      s.fld (gloReg 0x700) 2 2 == 1,
      after (.timeInEdge 1) s (fun t => t.reg64 (gloReg 0x710) == 200000000 + 2 ^ 63 && t.cores == [] && t.boards == s.boards)] = true := by decide +kernel
end W_host_accesses

namespace W_events_are_delivered
def e : Event := { code := 0x801, board := 0, seq := 1, time := 2, step := 3, version := 4, payload := [5] }
def s0 : State := { active := some 0, evPending := [e, { e with code := 1 }] }
def s := (((s0.setBreg 1 0x5008 0x10A).setBreg 1 0x500C 1023).setBreg 1 0x5010 5)
def un := ((s.onBoard 1 (fun y => { y with unsig := 2 })).setBreg 1 0x5008 0x300).setBreg 1 0x800C 0
/-- Every clause of the statement has a state and operands that meet its hypotheses. -/
theorem witness_events_are_delivered :
    ok [(s.board 1).present, !s.mpUndef, s.ringOn 1, !s.ringFull 1, (s.board 1).held == [], (s.board 1).lost == 0, s.ringSize 1 == 1024,
      after .eventDelivery s (fun t => t.evPending == [{ e with code := 1 }] && SMap.get [] (t.board 1).ring 1023 == eventRecord e && t.breg 1 0x500C == 0),
      after (.evqCons 1 77) s (fun t => t.breg 1 0x5010 == 77 && t.regs == [] && t.cores == []),
      after (.evqCtrl 1 0x21F) s (fun t => t.breg 1 0x5008 == 0x21F && t.breg 1 0x500C == 0 && t.breg 1 0x5010 == 0 && t.regs == []),
      bit (un.breg 1 0x5008).toNat 9, !bit (un.breg 1 0x800C).toNat 0,
      after (.evqCoalesceTimer 1) un (fun t => (t.board 1).unsig == 0 && (t.board 1).msix0 == (un.board 1).msix0 + 1 && t.regs == [])] = true := by decide +kernel
end W_events_are_delivered

/-! ## Commands -/

/-- Slot 63 of board 1 holds an executing command of a code with argument bytes from offset 0x10; board 0 is active. -/
def sv (code : Nat) (args : List Byte) (s : State) : State :=
  ((((({ s with active := some 0 }).onBoard 0 (fun y => { y with booted := true, ready := true })).onBoard 1 (fun y => { y with booted := true, ready := true })).slotPut 1 63 0
    (leBytes 2 code)).slotPut 1 63 8 [2]).slotPut 1 63 0x10 args

/-- Finished as a Bool for slot 63 of board 1. -/
def fin63 (status : Nat) (res : List Byte) (t : State) : Bool :=
  t.slotState 1 63 == 3 && t.slotNum 1 63 9 1 == status && Mem.read (t.board 1).mbx (256 * 63 + 0x80) res.length == res

/-- Every bay runs. -/
def allOn : State := { active := some 0, bays := (List.range 60).map (fun b => (b, { enabled := true })) }

/-- A smallest manifest: one logical core in bay 0, one empty bundle, one tag group, no planks, one alternate; its digest and checksums were computed outside the model. -/
def smallManifest : List Byte :=
  [87, 82, 88, 77, 65, 78, 73, 70, 1, 0, 0, 0, 0, 1, 0, 0, 128, 3] ++
  List.replicate 6 0 ++
  [5, 0, 0, 0, 1, 0, 0, 0, 1] ++
  List.replicate 11 0 ++
  [1, 0, 0, 0, 1] ++
  List.replicate 63 0 ++
  [11, 5, 36, 9, 11, 128] ++
  List.replicate 10 0 ++
  [1, 2, 3, 4, 5, 6, 7, 8, 9, 10, 11, 12, 13, 14, 15, 16] ++
  List.replicate 64 0 ++
  [137, 80, 148, 131, 7, 107, 159, 92, 88, 25, 185, 117, 225, 218, 93, 232, 222, 149, 222, 252, 230, 152, 81, 33, 96, 112, 64, 220, 197, 189, 98, 194, 23, 214, 120, 13, 149, 155, 85, 248, 105, 160, 107, 62, 211, 133, 231, 254, 1, 0, 1, 0, 0, 0, 0, 0, 192, 1] ++
  List.replicate 6 0 ++
  [32] ++
  List.replicate 7 0 ++
  [170, 54, 145, 138, 0, 0, 0, 0, 2, 0, 1] ++
  List.replicate 6 0 ++
  [2] ++
  List.replicate 6 0 ++
  [16] ++
  List.replicate 7 0 ++
  [234, 154, 112, 66, 0, 0, 0, 0, 8, 0, 1, 0, 0, 0, 0, 0, 64, 2] ++
  List.replicate 6 0 ++
  [192] ++
  List.replicate 7 0 ++
  [239, 110, 33, 133, 0, 0, 0, 0, 9, 0, 1] ++
  List.replicate 6 0 ++
  [3] ++
  List.replicate 6 0 ++
  [4] ++
  List.replicate 7 0 ++
  [199, 75, 103, 72, 0, 0, 0, 0, 13, 0, 1, 0, 1, 0, 0, 0, 64, 3] ++
  List.replicate 6 0 ++
  [8] ++
  List.replicate 7 0 ++
  [196, 72, 80, 30] ++
  List.replicate 164 0 ++
  [1, 0, 0, 0, 1, 0, 1] ++
  List.replicate 249 0 ++
  [2] ++
  List.replicate 63 0

/-- The loader accepts the smallest manifest: JOB_LOAD and JOB_ALTERNATE have a manifest that loads. -/
theorem test_small_manifest_loads :
    (let s := sv 0x101 (List.replicate 8 0 ++ leBytes 8 896) allOn
     let a := sv 0x107 (List.replicate 8 0 ++ leBytes 8 896) (jobS 1 { noMan with man := { noMan.man with mid := (List.range 16).map (fun i => BitVec.ofNat 8 (i + 1)) } } allOn)
     let good := fun (r : Except Nat Loaded) => (match r with
       | .ok m => m.place == [(0, 0)]
       | .error _ => false)
     ok [s.serves 1 63 0x101, s.job.st == 0, s.arg 1 63 0x18 8 == 896, smallManifest.length == 896, good (s.checkLoad 1 63 0x101 smallManifest),
         a.serves 1 63 0x107, a.job.st == 1, a.arg 1 63 0x18 8 == 896, good (a.checkLoad 1 63 0x107 smallManifest)]) = true := by decide +kernel

namespace W_job_commands
def st := List.replicate 16 0 ++ leBytes 8 9 ++ leBytes 8 5 ++ leBytes 2 65535 ++ [3, 15, 3]
def s1 := sv 0x102 st (jobS 1 noMan up)
def h := sv 0x103 [] ((jobS 2 noMan up).onJob (fun j => { j with between := true, step := 3 }))
def w := sv 0x103 [] (jobS 2 noMan up)
def rl := sv 0x104 [] ((jobS 3 noMan up).onJob (fun j => { j with between := true, step := 3, attemptTop := [(3, 2)] }))
def d := fun (a : Nat) => sv 0x105 [BitVec.ofNat 8 a, 3] ((jobS 4 noMan up).onJob (fun j => { j with step := 3, attemptTop := [(3, 2)] }))
def d6 := fun (a : Nat) => (d a).onJob (fun j => { j with st := 6 })
def sp := fun (k : Nat) => sv 0x106 [1] (jobS k noMan up)
/-- Every clause of the statement has a state and operands that meet its hypotheses. -/
theorem witness_job_commands :
    ok [s1.serves 1 63 0x102, s1.job.loaded == some noMan, s1.arg 1 63 0x32 1 == 3, s1.arg 1 63 0x33 1 == 15, s1.arg 1 63 0x34 1 == 3, s1.arg 1 63 0x40 4 == 0, s1.carryOk noMan [], carryOf 0 [] == [], s1.servesRows noMan, s1.cores.all (fun e => e.2.roles.isEmpty || !s1.fenced e.1),
      h.serves 1 63 0x103, after (.jobHold 1 63) h (fun t => t.job.st == 3 && t.job.holding && t.job.step == 3 && t.cores == h.cores && fin63 0 (leBytes 8 3) t),
      w.serves 1 63 0x103, after (.jobHold 1 63) w (fun t => t.slotState 1 63 == 2 && t.job.atBoundary == [{ board := 1, slot := 63, code := 0x103 }] && t.cores == w.cores),
      rl.serves 1 63 0x104, rl.job.restoring.isNone, rl.liveOrder == 0, rl.handover.isNone, rl.mapRequests == [], rl.job.atBoundary == [], rl.job.nextLoad.isNone,
      (d 0).serves 1 63 0x105, (d 0).arg 1 63 0x11 1 == 3, (d 0).applies, (d 0).job.need == 0, (d 0).job.nextLoad.isNone,
      after (.jobDirect 1 63) ((d 1).onJob (fun j => { j with nextLoad := some noMan })) (fun t => t.job.st == 2 && t.job.step == 3 && decide (1 ≤ t.job.need) && t.job.nextLoad == some noMan &&
        fin63 0 (leBytes 4 2) t),
      after (.jobDirect 1 63) (d 2) (fun t => t.job.st == 2 && t.job.need == 2 && t.job.restoreNo == 0 && fin63 0 (leBytes 4 2) t),
      !((d 1).onJob (fun j => { j with loaded := none })).applies, after (.jobDirect 1 63) ((d 1).onJob (fun j => { j with loaded := none })) (fun t =>
        t.job.st == 2 && t.job.need == 2 && (List.range 8).all (fun l => t.fld (landReg l 0x500) 1 0 == 3) && fin63 0 (leBytes 4 2) t),
      (d6 2).serves 1 63 0x105, after (.jobDirect 1 63) (d6 2) (fun t => t.job.st == 2 && t.job.need == 2 && t.job.restoreNo == 0 && fin63 0 (leBytes 4 2) t),
      after (.jobDirect 1 63) ((d 0).onJob (fun j => { j with need := 2 })) (fun t => t.job.st == 2 && t.job.need == 2 && fin63 0 (leBytes 4 2) t),
      (sp 2).serves 1 63 0x106, (sp 6).serves 1 63 0x106, (sp 2).arg 1 63 0x10 1 == 1, (sp 2).job.atBoundary == []] = true := by decide +kernel
end W_job_commands

/-- A sistering of core 2,879 is under way. -/
def busyCore (s : State) : State := ((jobS 2 noMan s).onCore 2879 (fun c => { c with roles := [2879] })).setReg (hubReg 59 0x508) 0x8000

namespace W_unit_commands
def on := bayOn 59 up
def l7 := landReg 7 4
def cf := sv 0x201 (leBytes 2 (59 * 64 + 47)) on
def bs := sv 0x301 [59, 16] on
def mo := sv 0x401 [59, 31] { on with stack := Mem.write (at_ 3 [1]) (59 * 2 ^ 36) [1] }
def la := sv 0x501 [7] (((linked 7 up).setFld l7 20 20 1).onLand 7 (fun x => { x with halted := true }))
def rt := sv 0x502 [7] (((linked 7 up).setFld l7 17 17 1).onLand 7 (fun x => { x with txSeq := 5, rxExpect := 6, credit := [(1, 2)] }))
def lh := sv 0x503 ([7, 0, 0, 0] ++ leBytes 4 0x80000001) ((linked 7 up).setReg (landReg 7 8) 4)
def lr := sv 0x504 ([7, 0, 0, 0] ++ leBytes 4 0x80000001) (((linked 7 up).setReg (landReg 7 8) 0x80000006).onLand 7 (fun x => { x with hostHold := 0x80000002 }))
def lt := fun (m : Nat) => sv 0x505 ([7, 0] ++ leBytes 2 m) (linked 7 up)
def pp := sv 0x601 [3] on
def pc := sv 0x602 [59, 3] on
def cw := sv 0x201 (leBytes 2 (59 * 64 + 47)) (busyCore on)
def bw := fun (code : Nat) (x : Nat) => sv code [59, BitVec.ofNat 8 x] (on.onBay 59 (fun y => { y with lossDue := true }))
def mw := sv 0x401 [59, 31] ((jobS 2 noMan on).onBay 59 (fun y => { y with failedCh := [3], held := true }))
def pl := sv 0x603 (leBytes 2 25000) on
/-- Every clause of the statement has a state and operands that meet its hypotheses. -/
theorem witness_unit_commands :
    ok [cf.serves 1 63 0x201, cf.arg 1 63 0x10 2 == 59 * 64 + 47, coreArg (59 * 64 + 47) == 2879, !(cf.bay 59).dark, !(cf.bay 59).lossDue, !cf.fenced 2879,
      cw.coreBusy 2879, cw.serves 1 63 0x201, after (.coreFence 1 63) cw (fun t => t == cw),
      [(bw 0x301 16, Instr.baySpares 1 63), (bw 0x602 3, .powerCeiling 1 63)].all (fun x => x.1.bayBusy 59 && after x.2 x.1 (fun t => t == x.1)),
      mw.serves 1 63 0x401, mw.stackBusy 59, after (.stackMapout 1 63) mw (fun t => t == mw), !bs.bayBusy 59, !mo.stackBusy 59, !pc.bayBusy 59,
      bs.serves 1 63 0x301, after (.baySpares 1 63) bs (fun t => t.fld (hubReg 59 0x500) 29 25 == 16 && regsBut [hubReg 59 0x500] bs t && fin63 0 [] t),
      mo.serves 1 63 0x401, mo.bayUp 59, bit (mo.reg (hubReg 59 0x404)).toNat 31, decide (mo.job.st < 2),
      after (.stackMapout 1 63) mo (fun t => !bit (t.reg (hubReg 59 0x404)).toNat 31 && t.stack == at_ 3 [1] && fin63 0 [] t),
      la.serves 1 63 0x501, bit (la.reg l7).toNat 20, (la.land 7).halted, after (.landingAccept 1 63) la (fun t => !(t.land 7).halted && !bit (t.reg l7).toNat 20 && fin63 0 [] t),
      rt.serves 1 63 0x502, bit (rt.reg l7).toNat 17, rt.job.st == 0,
      after (.landingRetake 1 63) rt (fun t => !bit (t.reg l7).toNat 17 && (t.land 7).txSeq == 0 && (t.land 7).rxExpect == 0 && (t.land 7).credit == [] && fin63 0 [] t),
      lh.serves 1 63 0x503, after (.landingHold 1 63) lh (fun t => t.reg (landReg 7 8) == 0x80000005 && (t.land 7).hostHold == 0x80000001 && fin63 0 [] t),
      lr.serves 1 63 0x504, (lr.land 7).hostHold &&& 0x80000001 != 0,
      after (.landingRelease 1 63) lr (fun t => (t.land 7).hostHold == 2 && t.reg (landReg 7 8) == 6 && fin63 0 [] t),
      (lt 0xFFF0).serves 1 63 0x505, after (.landingRetrain 1 63) (lt 0xFFF0) (fun t => t.fld l7 15 0 == 15 && bit (t.reg l7).toNat 16 && fin63 0 [] t),
      after (.landingRetrain 1 63) (lt 0xFFF8) (fun t => t.fld l7 15 0 == 7 && !bit (t.reg l7).toNat 16 && fin63 0 [] t),
      pp.serves 1 63 0x601, after (.powerPace 1 63) pp (fun t => (List.range 60).all (fun y => t.fld (paceStat y) 3 2 == 3) && t.cores == pp.cores && fin63 0 [] t),
      pc.serves 1 63 0x602, after (.powerCeiling 1 63) pc (fun t => t.fld (paceCtrl 59) 1 0 == 3 && t.cores == pc.cores && fin63 0 [] t),
      pl.serves 1 63 0x603, after (.powerLimit 1 63) pl (fun t => t.fld (gloReg 0x604) 15 0 == 25000 && regsBut [gloReg 0x604] pl t && fin63 0 [] t)] = true := by decide +kernel
end W_unit_commands

/-- A query changes nothing but its slot. -/
def quietQ (s t : State) : Bool := t.cores == s.cores && t.regs == s.regs && t.stack == s.stack && t.job == s.job && t.lands == s.lands && t.bays == s.bays

namespace W_service_commands
def on := bayOn 59 up
def k : Snap := { number := 4, version := 2, alt := 0, step := 8, len := 1, taken := true }
def hs := (jobS 3 noMan on).onJob (fun j => { j with snaps := [k], snapNext := 5 })
def sn := sv 0x701 [] hs
def sr := sv 0x702 [0, 0, 0, 0] hs
def cq := sv 0x202 (leBytes 2 (59 * 64 + 47)) (on.onCore 2879 (fun c => { c with roles := [300] }))
def bq := sv 0x302 [59] on
def sq := sv 0x402 [59] on
def cqw := sv 0x202 (leBytes 2 (59 * 64 + 47)) (busyCore on)
def bqw := sv 0x302 [59] (on.onBay 59 (fun y => { y with lossDue := true }))
def sqw := sv 0x402 [59] ((jobS 2 noMan on).onBay 59 (fun y => { y with failedCh := [3], held := true }))
def qs := sv 0x801 [] hs
def qi := sv 0x802 [] on
def qc := sv 0x803 [] on
def fw := sv 0x901 [2] on
def act := (sv 0x902 [1] on).onBoard 1 (fun y => { y with staged := true, flash := [y.flash[0]!, some { version := 7, security := 0, advance := false }] })
def ho := sv 0x903 [] on
def il := sv 0xA01 ([7, 0, 0, 0] ++ leBytes 4 0 ++ leBytes 4 0xFFFF0003 ++ leBytes 4 0xFFFFFFFF) on
def ik := sv 0xA02 (leBytes 2 (59 * 64 + 47) ++ [4, 0] ++ leBytes 4 6) on
def f0 := sv 0xA03 ([0, 0] ++ leBytes 2 (59 * 64 + 47)) on
def f1 := sv 0xA03 ([1, 0] ++ leBytes 2 59) on
/-- Every clause of the statement has a state and operands that meet its hypotheses. -/
theorem witness_service_commands :
    ok [sn.serves 1 63 0x701, sn.job.loaded == some noMan, sn.job.snaps.all (fun x => x.taken),
      sr.serves 1 63 0x702, (sr.job.snaps.filter (fun x => x.taken)).getLast? == some k, sr.arg 1 63 0x10 4 == 0,
      after (.snapRestore 1 63) sr (fun t => t.job.st == 2 && decide (2 ≤ t.job.need) && t.job.restoreNo == 0 && fin63 0 (leBytes 8 8) t),
      !cq.coreBusy 2879, !(cq.bay 59).lossDue, !(cq.bay 59).dark, !bq.bayBusy 59, !sq.stackBusy 59, cqw.coreBusy 2879, after (.coreQuery 1 63) cqw (fun t => t == cqw),
      bqw.serves 1 63 0x302, bqw.bayBusy 59, after (.bayQuery 1 63) bqw (fun t => t == bqw), sqw.serves 1 63 0x402, sqw.stackBusy 59, after (.stackQuery 1 63) sqw (fun t => t == sqw),
      cq.serves 1 63 0x202, after (.coreQuery 1 63) cq (fun t => quietQ cq t && fin63 0 (leBytes 4 300 ++ leBytes 4 0xFFFFFFFF ++ [0]) t),
      bq.serves 1 63 0x302, after (.bayQuery 1 63) bq (fun t => quietQ bq t && fin63 0 [64, 0, 0, 48, 0] t),
      sq.serves 1 63 0x402, sq.bayUp 59, after (.stackQuery 1 63) sq (fun t => quietQ sq t && fin63 0 ([255, 255, 255, 255] ++ leBytes 4 0) t),
      qs.serves 1 63 0x801, after (.queryStatus 1 63) qs (fun t => quietQ qs t && t.slotNum 1 63 0x80 1 == 3 && t.slotNum 1 63 0x88 8 == 0 && fin63 0 [] t),
      qi.serves 1 63 0x802, after (.queryIdentity 1 63) qi (fun t => quietQ qi t && t.slotNum 1 63 0x80 4 == 0 && t.slotNum 1 63 0x86 1 == 2 && t.slotNum 1 63 0x88 2 == 2880 &&
        fin63 0 [] t),
      qc.serves 1 63 0x803, fw.serves 1 63 0x901, fw.arg 1 63 0x10 1 == 2, (boardsOf 2).all (fun i => (fw.board i).present), fw.arg 1 63 0x20 8 == 0,
      act.serves 1 63 0x902, act.standsBy 1, act.arg 1 63 0x10 1 == 1, act.liveOrder == 0, act.handover.isNone, ((act.board 1).stagedImage).isSome,
      acceptsMirror (act.board 0).image ((act.board 1).stagedImage),
      after (.fwActivate 1 63) act (fun t => t.liveOrder == 1 && t.liveBoard == 1 && t.liveCmd == some (1, 63) && (t.board 1).slotRun == 1 && t.slotState 1 63 == 2),
      ho.serves 1 63 0x903, ho.standsBy 1, ho.job.st != 2,
      after (.fwHandover 1 63) ho (fun t => t.handover == some ho.time && t.handCmd == some (1, 63) && t.slotState 1 63 == 2 && t.cores == ho.cores),
      il.serves 1 63 0xA01, after (.injectLanding 1 63) il (fun t => t.fld (landReg 7 0x900) 0 0 == 1 && t.fld (landReg 7 0x904) 15 0 == 3 && t.fld (landReg 7 0x908) 16 0 == 0x1FFFF && fin63 0 [] t),
      ik.serves 1 63 0xA02, !ik.coreBusy 2879, !(ik.bay 59).lossDue, !(f0.bay 59).lossDue, !f1.bayBusy 59, after (.injectLink 1 63) ik (fun t => t.reg (linkInj 2879 4) == 7 && t.cores == ik.cores && fin63 0 [] t),
      f0.serves 1 63 0xA03, f0.coreUp 2879, f1.serves 1 63 0xA03, f1.bayUp 59,
      after (.injectFailure 1 63) f1 (fun t => (t.bay 59).dark && fin63 0 [] t)] = true := by decide +kernel
end W_service_commands

/-! ## Words of the encodings, ill-formed commands, and the machine as a whole -/

/-- Slots written out bit by bit from Tables 7.6 to 7.14: LDS of X0 with 128 rows in format 4, VADD V2 := V0 + V1, DTSCT with X1, X2, X3, S5, mode 1
and sill address 9 in form 1, MCPY of 2 lines, WAITM of kind 2 on LM 0 with base 9, and SADD S3 := S1 + S2. -/
theorem test_written_slots_decode :
    ok [decodeAr 7 {} (0b000001000000010010111111101001000000000000000000 : BitVec 48) ==
           some (.lds 7 {} { xb := 0, xp := 1, xs := 2, rows := 127, fmt := 4, inc := true }),
        decodeVx 7 {} (0b000010000010000000000001000000000000000000000000 : BitVec 48) ==
           some (.vadd 7 {} { vd := 2, vs1 := 0, vs2 := 1, vs3 := 0, rnd := 0, ty := 0, ms := false, md := false, inc := false, sx := 0 }),
        decodeDt 7 {} (0b000110000100100011001010001000000001001100000000 : BitVec 48) ==
           some (.dtsct 7 {} { xa := 1, xb := 2, xc := 3, sn := 5, mode := 1, a := 9, form := true }),
        decodeMv 7 {} (0b000001000100100000000000000001000000000000000000 : BitVec 48) ==
           some (.mcpy 7 {} { xs := 1, xd := 2, len := 1, st := 0, ctr := 0, cls := 0, inc := false, form := false }),
        decodeCt 7 {} (0b000001100000000000000000000000000000000000001001 : BitVec 48) == some (.waitm 7 {} { kind := 2, role := false, lm := 0, base := 9 }),
        decodeCt 7 {} (0b010000000011000001000010000000000000000000000000 : BitVec 48) == some (.sadd 7 {} { d := 3, a := 1, b := 2 })] = true := by decide +kernel

/-- A header word of Table 7.2, and reserved opcodes of every slot (R167). -/
theorem test_header_and_reserved_opcodes :
    ok [decodeHdr 0b0001100001111111 == { group := true, predReg := 1, predEn := true, predNeg := true },
        decodeAr 0 {} (8 <<< 42) == none, decodeVx 0 {} (27 <<< 42) == none, decodeDt 0 {} (10 <<< 42) == none, decodeMv 0 {} (7 <<< 42) == none,
        decodeCt 0 {} (12 <<< 42) == none, decodeCt 0 {} (33 <<< 42) == none, decodeCt 0 {} 0 == none, decodeTableWord 16 5 == none] = true := by decide +kernel

/-- Bundle layout of Table 7.1: each field of a bundle number with one byte set. -/
theorem test_bundle_fields :
    ok [(bundleOf (2 ^ 4)).hdr == 16, (bundleOf (2 ^ 16)).ar == 1, (bundleOf (2 ^ 64)).vx == 1, (bundleOf (2 ^ 112)).dt == 1, (bundleOf (2 ^ 160)).mv == 1,
        (bundleOf (2 ^ 208)).ct == 1, (bundleOf (2 ^ 255)).ct == 2 ^ 47] = true := by decide +kernel

/-- One ill-formed command for each kind of check, beside a well-formed one at the boundary. -/
theorem test_ill_formed_commands :
    ok [!(Instr.trel 2880 {}).wf, (Instr.trel 2879 {}).wf, !(Instr.plankIssue 8).wf, (Instr.plankIssue 7).wf, !(Instr.bayLoss 60).wf, (Instr.bayLoss 59).wf,
        !(Instr.doorbell 2 0).wf, !(Instr.doorbell 1 64).wf, (Instr.doorbell 1 63).wf, !(Instr.msendDelivery 0 2880).wf, !(Instr.scatterRecordTaken 0 128).wf,
        (Instr.scatterRecordTaken 0 127).wf, !(Instr.coreMemoryError 0 3 false).wf, !(Instr.stackPlankRead 2 0).wf, !(Instr.stackPlankRead 0 (2 ^ 32)).wf,
        !(Instr.forwardBeat 0 0 256).wf, !(Instr.returnObjectStart 96).wf, !(Instr.globalMarkUpdate 0 0 1024).wf, !(Instr.globalMark 2888 0 0).wf,
        !(Instr.globalMark 0 65536 0).wf, !(Instr.barArrive 61 0 0).wf, !(Instr.barArrive 0 64 0).wf, !(Instr.fenceNotice 0 48).wf, !(Instr.flitForward 0 5).wf,
        !(Instr.credit 0 { frame 3 8 0 [] with vc := 32 }).wf, !(Instr.credit 0 (frame 3 8 0 (List.replicate 257 0))).wf, (Instr.credit 0 (frame 3 8 0 [])).wf,
        !(Instr.hold 0 32 0 0).wf, !(Instr.laneGroupDown 0 16).wf, !(Instr.stackAccess 0 ⟨32, 0⟩).wf, !(Instr.stackAccess 0 ⟨0, (2 ^ 20 + 1)⟩).wf, !(Instr.stackRepair 0 0 (2 ^ 20)).wf, !(Instr.stackUe 0 0 0 188).wf,
        !(Instr.patrolScrub 0 0 0 (2 ^ 16)).wf, !(Instr.supplyTrip 0 7).wf, !(Instr.phaseLost 0 37).wf, !(Instr.busConverterLost 0 2).wf, !(Instr.crackSuspect 0 20).wf,
        !(Instr.junctionSample 0 0 49).wf, !(Instr.powerGuard 65536 0).wf, !(Instr.coolantMonitor 256 0 0 0).wf, !(Instr.inputLost 4 0).wf, !(Instr.boardFailover ⟨3, 0⟩).wf,
        !(Instr.startUpTest [(0, 2)]).wf, !(Instr.startUpTest [(2880, 1)]).wf, !(Instr.landingTraining 0 65536).wf, !(Instr.mailboxWrite 0 0x4000 []).wf,
        !(Instr.barAccess 0 1 0 false 4 []).wf, !(Instr.barAccess 0 4 0 false 3 []).wf, !(Instr.memoryWindow 74 0 0 4 none).wf, !(Instr.bwCtrl (2 ^ 32) 0).wf,
        !(Instr.registerWrite 0 0 74).wf, !(Instr.inputRestored 2 0).wf] = true := by decide +kernel

/-- Values after reset at the boundaries of their ranges (R505, R527). -/
theorem test_reset_values :
    (let s := State.reset
     ok [s.pending == [], s.wf, !s.running 2879, s.pc 2879 == 0, s.reg (coreReg 2879 0 0x40) == 16, s.reg (coreReg 2879 1 0x10) == 4, s.reg (regnReg 2879 63) == 0,
         s.reg (hubReg 59 0x404) == 0xFFFFFFFF, s.reg (hubReg 59 0x500) == 0x051003E8, s.reg (landReg 7 0) == 0x19143220, s.reg (gloReg 0x604) == 25000]) = true := by
  decide +kernel

namespace W_step_runs_the_front_command
def s : State := { pending := [.inputRestored 0 1, .heartbeat 0], inp := { lost54 := [1] } }
def e : State := { time := 5 }
/-- Every clause of the statement has a state and operands that meet its hypotheses. -/
theorem witness_step_runs_the_front_command :
    ok [s.pending != [], (match step s with
        | .next t => t.pending == [.heartbeat 0] && t.inp.lost54 == []
        | _ => false), e.pending == [], (match step e with
        | .next t => t.time == 6 && t.pending == []
        | _ => false)] = true := by decide +kernel
end W_step_runs_the_front_command

namespace W_decoding_undoes_encoding
def i : Instr := .dtsct 3 {} { xa := 15, xb := 15, xc := 15, sn := 31, mode := 15, a := 4095, form := true }
def w : Slot := (0xFFFFFFFFFFFF : BitVec 48)
/-- Every clause of the statement has a state and operands that meet its hypotheses. -/
theorem witness_decoding_undoes_encoding :
    ok [(match encodeSlot i with
        | some (k, v) => k == 2 && v.op == 6 && decodeSlot 2 3 {} v == some i
        | none => false),
      (decodeSlot 4 0 {} ((32 <<< 42) ||| (w >>> 6))).isSome, (decodeSlot 1 0 {} ((26 <<< 42) ||| (w >>> 6))).isSome, w.op == 63] = true := by decide +kernel
end W_decoding_undoes_encoding

namespace W_steps_keep_memories_canonical
def s := { upc (fun c => { c with spad := at_ 5 [1, 0, 2], sill := at_ 0 [3], istore := at_ 1 [4], stored := some { spad := at_ 1 [1] } }) with
    pending := [.registerWrite (hubReg 0 0x40C) 0 0], stack := at_ (2 ^ 36) [7] }
/-- Every clause of the statement has a state and operands that meet its hypotheses. -/
theorem witness_steps_keep_memories_canonical :
    ok [s.wf, (match step s with
        | .next t => t.wf && t.stack == s.stack
        | _ => false)] = true := by decide +kernel
end W_steps_keep_memories_canonical

/-- An outcome is this fault or this refusal. -/
def stops (o : Res) (f : Option Fault) (r : Option Refusal) : Bool := match o with
  | .next _ => false
  | .fault g => f == some g
  | .refused q => r == some q

namespace W_stops_are_named
def undef : State := ({ active := some 1 } : State).onBoard 1 (fun y => { y with mpBad := true })
def s : State := { active := some 1 }
/-- Every clause of the statement has a state and operands that meet its hypotheses. -/
theorem witness_stops_are_named :
    ok [undef.mpUndef, stops (exec .commitDecision undef) (some .mpUndefined) none, stops (exec (.doorbell 1 63) undef) (some .mpUndefined) none, !s.mpUndef,
      (Instr.supplyTrip 59 6).wf, after (.supplyTrip 59 6) s (fun t => t == s), stops (exec (.sadd 2880 {} { d := 3, a := 1, b := 2 }) s) none (some .noSuchUnit),
      stops (exec (.bayLoss 60) s) none (some .noSuchUnit), isBw (coreReg 2879 5 0xC0), !isBw (coreReg 2879 5 0xC4), after (.bwCtrl (coreReg 2879 5 0xC0) 1) s (fun t => t.back.err),
      after (.bwWindowEnd (landReg 7 0x500C0)) s (fun t => t == s)] = true := by decide +kernel
end W_stops_are_named

end Sys2Proof.Tests
end

section
/-! Register addresses: the fields of an address that names a register of a core, a bay hub, a landing or the global block (Table 20.1), and
the definition that such an address has (R505 to R508). -/

namespace Sys2Proof.Machine

/-! ## Address fields -/

theorem aBay_mkAddr {bay unit blk off : Nat} (hu : unit < 64) (hb : blk < 16) (ho : off < 65536) : aBay (mkAddr bay unit blk off) = bay := by
  simp only [aBay, mkAddr]; omega

theorem aUnit_mkAddr {bay unit blk off : Nat} (hu : unit < 64) (hb : blk < 16) (ho : off < 65536) : aUnit (mkAddr bay unit blk off) = unit := by
  simp only [aUnit, mkAddr]; omega

theorem aBlk_mkAddr {bay unit blk off : Nat} (hb : blk < 16) (ho : off < 65536) : aBlk (mkAddr bay unit blk off) = blk := by
  simp only [aBlk, mkAddr]; omega

theorem aOff_mkAddr {bay unit blk off : Nat} (ho : off < 65536) : aOff (mkAddr bay unit blk off) = off := by
  simp only [aOff, mkAddr]; omega

theorem coreIdx_lt (p : Nat) : coreIdx p < 48 := Nat.mod_lt _ (by decide)

theorem coreBay_lt {p : Nat} (hp : p < 2880) : coreBay p < 60 := by simp only [coreBay]; omega

@[simp] theorem aBay_coreReg {p blk off : Nat} (hb : blk < 16) (ho : off < 65536) : aBay (coreReg p blk off) = coreBay p :=
  aBay_mkAddr (Nat.lt_trans (coreIdx_lt p) (by decide)) hb ho
@[simp] theorem aUnit_coreReg {p blk off : Nat} (hb : blk < 16) (ho : off < 65536) : aUnit (coreReg p blk off) = coreIdx p :=
  aUnit_mkAddr (Nat.lt_trans (coreIdx_lt p) (by decide)) hb ho
@[simp] theorem aBlk_coreReg {p blk off : Nat} (hb : blk < 16) (ho : off < 65536) : aBlk (coreReg p blk off) = blk := aBlk_mkAddr hb ho
@[simp] theorem aOff_coreReg {p blk off : Nat} (ho : off < 65536) : aOff (coreReg p blk off) = off := aOff_mkAddr ho

@[simp] theorem aBay_hubReg {b off : Nat} (ho : off < 65536) : aBay (hubReg b off) = b := aBay_mkAddr (by decide) (by decide) ho
@[simp] theorem aUnit_hubReg {b off : Nat} (ho : off < 65536) : aUnit (hubReg b off) = 48 := aUnit_mkAddr (by decide) (by decide) ho
@[simp] theorem aBlk_hubReg {b off : Nat} (ho : off < 65536) : aBlk (hubReg b off) = 0 := aBlk_mkAddr (by decide) ho
@[simp] theorem aOff_hubReg {b off : Nat} (ho : off < 65536) : aOff (hubReg b off) = off := aOff_mkAddr ho

@[simp] theorem aBay_landReg {l off : Nat} (hl : l < 8) (ho : off < 65536) : aBay (landReg l off) = 60 := aBay_mkAddr (by omega) (by decide) ho
@[simp] theorem aUnit_landReg {l off : Nat} (hl : l < 8) (ho : off < 65536) : aUnit (landReg l off) = l := aUnit_mkAddr (by omega) (by decide) ho
@[simp] theorem aBlk_landReg {l off : Nat} (ho : off < 65536) : aBlk (landReg l off) = 0 := aBlk_mkAddr (by decide) ho
@[simp] theorem aOff_landReg {l off : Nat} (ho : off < 65536) : aOff (landReg l off) = off := aOff_mkAddr ho

@[simp] theorem aBay_gloReg {off : Nat} (ho : off < 65536) : aBay (gloReg off) = 63 := aBay_mkAddr (by decide) (by decide) ho
@[simp] theorem aUnit_gloReg {off : Nat} (ho : off < 65536) : aUnit (gloReg off) = 0 := aUnit_mkAddr (by decide) (by decide) ho
@[simp] theorem aBlk_gloReg {off : Nat} (ho : off < 65536) : aBlk (gloReg off) = 0 := aBlk_mkAddr (by decide) ho
@[simp] theorem aOff_gloReg {off : Nat} (ho : off < 65536) : aOff (gloReg off) = off := aOff_mkAddr ho

/-- Two hub registers are one only as the same offset of the same bay. -/
theorem hubReg_ne_of_off {b c o x : Nat} (ho : o < 65536) (hx : x < 65536) (h : o ≠ x) : hubReg b o ≠ hubReg c x := by
  intro e; exact h (by simpa [ho, hx] using congrArg aOff e)

theorem hubReg_ne_of_bay {b c o x : Nat} (ho : o < 65536) (hx : x < 65536) (h : b ≠ c) : hubReg b o ≠ hubReg c x := by
  intro e; exact h (by simpa [ho, hx] using congrArg aBay e)

/-! ## Definitions of registers -/

/-- regDef by the fields of the address. -/
theorem regDef_fields (a : Nat) : regDef a =
    if aOff a % 4 ≠ 0 then none
    else if aBay a < 60 then
      if aUnit a < 48 then
        if aBlk a = 6 then (identReset (aBay a) (aUnit a) (aOff a)).map (fun r => ⟨6, aOff a, 1, 4, r, 0, 0, 0⟩)
        else if aBlk a = 2 ∧ aOff a = 0 then some ⟨2, 0, 1, 4, vecLat fusedStepping, 0, 0, 0⟩
        else if aBlk a ≤ 4 then findReg coreDefsA (aBlk a) (aOff a)
        else findReg coreDefsB (aBlk a) (aOff a)
      else if aUnit a = 48 then
        if aBlk a = 6 then (identReset (aBay a) (aUnit a) (aOff a)).map (fun r => ⟨6, aOff a, 1, 4, r, 0, 0, 0⟩)
        else if aBlk a = 0 ∧ aOff a = 0x624 then some ⟨0, 0x624, 1, 4, clkDefault (aBay a), 0xFFF, 0, 0⟩
        else findReg hubDefs (aBlk a) (aOff a)
      else none
    else if aBay a = 60 then (if aUnit a < 8 then findReg landDefs (aBlk a) (aOff a) else none)
    else if aBay a = 63 then
      if aUnit a = 0 then
        if aBlk a = 6 then
          (match aOff a with
           | 0 => some ⟨6, 0, 1, 4, 0, 0, 0, 0⟩
           | 4 => some ⟨6, 4, 1, 4, fusedStepping * 128 + 2880 * 2048, 0, 0, 0⟩
           | 8 => some ⟨6, 8, 1, 4, 3840, 0, 0, 0⟩
           | _ => none)
        else findReg gloDefs (aBlk a) (aOff a)
      else none
    else none := rfl

/-- A core register of blocks 0 to 4 is the one its table gives (VEC_LAT apart). -/
theorem regDef_coreReg {p blk off : Nat} (hp : p < 2880) (hb : blk ≤ 4) (ho : off < 65536) (h4 : off % 4 = 0) (hv : ¬ (blk = 2 ∧ off = 0)) :
    regDef (coreReg p blk off) = findReg coreDefsA blk off := by
  have hb' : blk < 16 := by omega
  rw [regDef_fields, aBay_coreReg hb' ho, aUnit_coreReg hb' ho, aBlk_coreReg hb' ho, aOff_coreReg ho]
  simp [h4, coreBay_lt hp, coreIdx_lt p, hv, hb, show blk ≠ 6 by omega]

/-- A bay hub register is the one its table gives (CLK_CTRL apart). -/
theorem regDef_hubReg {b off : Nat} (hb : b < 60) (ho : off < 65536) (h4 : off % 4 = 0) (hc : off ≠ 0x624) :
    regDef (hubReg b off) = findReg hubDefs 0 off := by
  rw [regDef_fields, aBay_hubReg ho, aUnit_hubReg ho, aBlk_hubReg ho, aOff_hubReg ho]
  simp [h4, hb, hc]

/-- A landing register is the one its table gives. -/
theorem regDef_landReg {l off : Nat} (hl : l < 8) (ho : off < 65536) (h4 : off % 4 = 0) : regDef (landReg l off) = findReg landDefs 0 off := by
  rw [regDef_fields, aBay_landReg hl ho, aUnit_landReg hl ho, aBlk_landReg ho, aOff_landReg ho]
  simp [h4, hl]

end Sys2Proof.Machine
end

section
/-! The state after reset (R17, R505, R527). -/

namespace Sys2Proof.Machine

/-- The reset value that a search of a register table gives. -/
def RegDef.resetIn (d : Option RegDef) : W32 := (d.map (fun d => BitVec.ofNat 32 d.reset)).getD 0

theorem resetOf_eq (a : Nat) : resetOf a = RegDef.resetIn (regDef a) := by
  rw [resetOf, RegDef.resetIn]; cases regDef a <;> rfl

/-- No register is listed at reset, so each reads as its reset value. -/
theorem reg_reset (a : Nat) : State.reset.reg a = resetOf a := rfl

theorem reg_reset_coreReg {p : Nat} (blk off : Nat) (hp : p < 2880) (h : blk ≤ 4 ∧ off < 65536 ∧ off % 4 = 0 ∧ ¬ (blk = 2 ∧ off = 0)) :
    State.reset.reg (coreReg p blk off) = RegDef.resetIn (findReg coreDefsA blk off) := by
  obtain ⟨hb, ho, h4, hv⟩ := h
  rw [reg_reset, resetOf_eq, regDef_coreReg hp hb ho h4 hv]

theorem reg_reset_hubReg {b : Nat} (off : Nat) (hb : b < 60) (h : off < 65536 ∧ off % 4 = 0 ∧ off ≠ 0x624) :
    State.reset.reg (hubReg b off) = RegDef.resetIn (findReg hubDefs 0 off) := by
  obtain ⟨ho, h4, hc⟩ := h
  rw [reg_reset, resetOf_eq, regDef_hubReg hb ho h4 hc]

theorem reg_reset_landReg {l : Nat} (off : Nat) (hl : l < 8) (h : off < 65536 ∧ off % 4 = 0) :
    State.reset.reg (landReg l off) = RegDef.resetIn (findReg landDefs 0 off) := by
  rw [reg_reset, resetOf_eq, regDef_landReg hl h.1 h.2]

/-- The 64 state words of a core's sill regions are one row of the table (Table 3.7). -/
theorem resetIn_sillRegion : ∀ n < 64, RegDef.resetIn (findReg coreDefsA 1 (0x400 + 4 * n)) = 0 := by decide

theorem reset_core {p : Nat} (hp : p < 2880) :
    State.reset.running p = false ∧ State.reset.pc p = 0 ∧ State.reset.reg (coreReg p 0 0x40) = 16 ∧ State.reset.reg (coreReg p 1 0x10) = 4 ∧
    State.reset.reg (coreReg p 0 8) = 0 ∧ (State.reset.core p).spad = [] ∧ (State.reset.core p).sill = [] ∧
    ∀ n, n < 64 → State.reset.reg (regnReg p n) = 0 := by
  refine ⟨?_, ?_, ?_, ?_, ?_, rfl, rfl, fun n hn => ?_⟩
  · rw [State.running, reg_reset_coreReg 0 0 hp (by decide)]; decide
  · rw [State.pc, State.fld, reg_reset_coreReg 0 4 hp (by decide)]; decide
  · rw [reg_reset_coreReg 0 0x40 hp (by decide)]; decide
  · rw [reg_reset_coreReg 1 0x10 hp (by decide)]; decide
  · rw [reg_reset_coreReg 0 8 hp (by decide)]; decide
  · rw [regnReg, reg_reset_coreReg 1 _ hp ⟨by decide, by omega, by omega, by omega⟩]; exact resetIn_sillRegion n hn

theorem reset_hub {b : Nat} (hb : b < 60) :
    State.reset.reg (hubReg b 0x404) = 0xFFFFFFFF ∧ State.reset.reg (hubReg b 0x418) = 0x13 ∧ State.reset.reg (hubReg b 0x500) = 0x051003E8 ∧
    State.reset.bayUp b = false := by
  refine ⟨?_, ?_, ?_, rfl⟩
  · rw [reg_reset_hubReg 0x404 hb (by decide)]; decide
  · rw [reg_reset_hubReg 0x418 hb (by decide)]; decide
  · rw [reg_reset_hubReg 0x500 hb (by decide)]; decide

theorem reset_landing {l : Nat} (hl : l < 8) :
    State.reset.reg (landReg l 0) = 0x19143220 ∧ State.reset.reg (landReg l 0x604) = 0x3F800000 ∧ State.reset.linkUp l = false := by
  refine ⟨?_, ?_, Bool.and_false _⟩
  · rw [reg_reset_landReg 0 hl (by decide)]; decide
  · rw [reg_reset_landReg 0x604 hl (by decide)]; decide

theorem reset_global :
    State.reset.reg (gloReg 0x100) = 0x01F4000A ∧ State.reset.reg (gloReg 0x204) = 100 ∧ State.reset.reg (gloReg 0x604) = 25000 := by decide

/-- Settles O57: every register reads as its reset value, which the register tables give; the rest of the state is empty. -/
theorem resetState : Obligations.reset_state :=
  ⟨rfl, rfl, rfl, rfl, rfl, rfl, rfl, rfl, reg_reset, fun _ => reset_core, fun _ => reset_hub, fun _ => reset_landing, reset_global⟩

end Sys2Proof.Machine
end

section
/-! Register accesses and the memory window: what a write and a read of a plain register do, TAP_CTRL, GREEN_CTRL and STACK_MAPOUT_REQUEST, and the
scratchpad page of MEMORY_WINDOW (R17, R80, R403, R423, R506, R509, R510). -/

namespace Sys2Proof.Machine

/-! ## Plain registers -/

/-- A register with definition d that answers and has no effect beyond the access codes of its bits (R17). -/
structure State.PlainReg (s : State) (a : Nat) (d : RegDef) : Prop where
  regDef : regDef a = some d
  write : ∀ master v, s.regWrite master a v = (false, s.plainWrite a v)
  read : ∀ master, s.regRead master a = ({ data := leBytes 4 (s.regShown a).toNat }, s.setReg a (s.reg a &&& ~~~(BitVec.ofNat 32 d.rc)))

theorem plainWrite_eq {a : Nat} {d : RegDef} (h : regDef a = some d) (s : State) (v : W32) :
    s.plainWrite a v = s.setReg a (writeBits d (s.reg a) v) := by
  simp only [State.plainWrite, h]

theorem completes_write_plain {s : State} {a : Nat} {d : RegDef} (h : s.PlainReg a d) (v : W32) (master : Nat) :
    Completes (.registerWrite a v master) s (fun t =>
      t.reg a = (s.reg a &&& ~~~(BitVec.ofNat 32 d.rw) &&& ~~~(v &&& BitVec.ofNat 32 d.w1c)) ||| (v &&& BitVec.ofNat 32 d.rw) ∧
      (∀ x, x ≠ a → t.reg x = s.reg x) ∧ t.back = {} ∧ t.cores = s.cores) := by
  refine ⟨{ (s.plainWrite a v).cnNote master a 1 false with back := {} }, ?_, ?_⟩
  · change execRegisterWrite a v master s = _
    rw [execRegisterWrite, h.write]
  · rw [plainWrite_eq h.regDef]
    exact ⟨s.reg_setReg_same a _, fun x hx => s.reg_setReg_ne _ hx, rfl, rfl⟩

theorem completes_read_plain {s : State} {a : Nat} {d : RegDef} (h : s.PlainReg a d) :
    Completes (.rcRead a) s (fun t => t.back = { data := leBytes 4 (s.regShown a).toNat } ∧
      t.reg a = s.reg a &&& ~~~(BitVec.ofNat 32 d.rc) ∧ (∀ x, x ≠ a → t.reg x = s.reg x) ∧ t.cores = s.cores) := by
  refine ⟨{ (s.setReg a (s.reg a &&& ~~~(BitVec.ofNat 32 d.rc))).cnNote s.mpNo a 0 false with
    back := { data := leBytes 4 (s.regShown a).toNat } }, ?_, ?_⟩
  · change execRcRead a s = _
    rw [execRcRead, h.read]
  · exact ⟨rfl, s.reg_setReg_same a _, fun x hx => s.reg_setReg_ne _ hx, rfl⟩

/-- A write outside the landing spaces reaches one register (R506). -/
theorem regWrite_one {a : Nat} (h : aBay a ≤ 60 ∨ aBay a = 63) (s : State) (master : Nat) (v : W32) :
    s.regWrite master a v = s.regWrite1 master a v := by
  have hf : s.fanOut a = none := by
    rw [State.fanOut, if_neg (by omega), if_neg (by omega)]
  rw [State.regWrite, hf]

/-- A register that answers, outside the blocks whose reads have effects of their own, reads as shown, and its RC bits clear (R17). -/
theorem regRead_eq {s : State} {a : Nat} {d : RegDef} (hd : regDef a = some d) (hr : s.decodes a = true)
    (hb : aBay a < 60 → aUnit a < 48 → aBlk a ≠ 4 ∧ ¬ (aBlk a = 0 ∧ aOff a = 0x54)) (master : Nat) :
    s.regRead master a = ({ data := leBytes 4 (s.regShown a).toNat }, s.setReg a (s.reg a &&& ~~~(BitVec.ofNat 32 d.rc))) := by
  by_cases hc : aBay a < 60 ∧ aUnit a < 48
  · obtain ⟨h4, h54⟩ := hb hc.1 hc.2
    simp [State.regRead, hr, hd, hc, h4, h54]
  · simp [State.regRead, hr, hd, hc]

/-- Bay hub registers whose writes act on their bits alone and whose bits none shows live state. -/
def plainHub : List Nat := [0x40C, 0x410, 0x418, 0x500, 0x50C, 0x614, 0x61C]
/-- Blocks and offsets of core registers whose writes act on their bits alone. -/
def plainCore : List (Nat × Nat) :=
  [(0, 0x48), (0, 0x60), (0, 0x80), (1, 0), (1, 0x14), (2, 0x80), (2, 0x84), (3, 0), (3, 8), (5, 0xC), (5, 0x84), (7, 4), (7, 8), (8, 4)]
/-- Landing registers whose writes act on their bits alone. -/
def plainLand : List Nat := [0x400, 0x404, 0x500, 0x504, 0x508, 0x600, 0x604, 0x700, 0x710, 0x900, 0x914]
/-- Global registers whose writes act on their bits alone. -/
def plainGlo : List Nat := [0x100, 0x104, 0x204, 0x208, 0x504, 0x604]

theorem plainHub_off : ∀ o ∈ plainHub, o < 65536 ∧ 0x300 ≤ o ∧ o ≠ 0x600 ∧ o ≠ 0x624 := by decide
theorem plainCore_off : ∀ k ∈ plainCore, k.1 < 16 ∧ k.2 < 65536 ∧ k.1 ≠ 4 ∧ k ≠ (0, 0x54) := by decide
theorem plainLand_off : ∀ o ∈ plainLand, o < 65536 ∧ o ≠ 0 := by decide
theorem plainGlo_off : ∀ o ∈ plainGlo, o < 65536 ∧ ¬ (0x300 ≤ o ∧ o < 0x30C) ∧ ¬ (0x400 ≤ o ∧ o < 0x500) ∧ o ≠ 0x700 := by decide

theorem plainReg_hub {s : State} {b o : Nat} {d : RegDef} (hb : b < 60) (ho : o ∈ plainHub) (hu : s.bayUp b = true)
    (hd : regDef (hubReg b o) = some d) : s.PlainReg (hubReg b o) d := by
  obtain ⟨hlt, h3, h6, hc⟩ := plainHub_off o ho
  have hr : s.decodes (hubReg b o) = true := by simp [State.decodes, hlt, hb, hu]
  refine ⟨hd, fun master v => ?_, fun master => regRead_eq hd hr (by simp [hlt]) master⟩
  rw [regWrite_one (.inl (by rw [aBay_hubReg hlt]; omega))]
  simp [State.regWrite1, hlt, hr, hd, hb, h6, hc, show ¬ o < 0x300 by omega]

/-- No plain core register is one of those with effects beyond their bits. -/
theorem writeCore_plain {k : Nat × Nat} (hk : k ∈ plainCore) (s : State) (master p a : Nat) (v : W32) :
    s.writeCore master p k.1 k.2 a v = s.plainWrite a v := by
  simp only [plainCore, List.mem_cons, List.not_mem_nil, or_false] at hk
  obtain rfl | rfl | rfl | rfl | rfl | rfl | rfl | rfl | rfl | rfl | rfl | rfl | rfl | rfl := hk
  all_goals rfl

theorem plainReg_core {s : State} {p : Nat} {k : Nat × Nat} {d : RegDef} (hp : p < 2880) (hu : s.bayUp (coreBay p) = true) (hk : k ∈ plainCore)
    (hd : regDef (coreReg p k.1 k.2) = some d) : s.PlainReg (coreReg p k.1 k.2) d := by
  obtain ⟨hb, ho, h4, h54⟩ := plainCore_off k hk
  have hr : s.decodes (coreReg p k.1 k.2) = true := by simp [State.decodes, hb, ho, coreBay_lt hp, hu]
  refine ⟨hd, fun master v => ?_, fun master => regRead_eq hd hr (fun _ _ => ?_) master⟩
  · rw [regWrite_one (.inl (by rw [aBay_coreReg hb ho]; exact Nat.le_of_lt (coreBay_lt hp)))]
    simp [State.regWrite1, hb, ho, hr, hd, coreBay_lt hp, coreIdx_lt p, h4, writeCore_plain hk]
  · rw [aBlk_coreReg hb ho, aOff_coreReg ho]
    exact ⟨h4, fun h => h54 (Prod.ext h.1 h.2)⟩

theorem plainReg_land {s : State} {l o : Nat} {d : RegDef} (hl : l < 8) (hpr : (s.land l).present = true)
    (hu : s.bayUp (landingBay l) = true) (ho : o ∈ plainLand) (hd : regDef (landReg l o) = some d) : s.PlainReg (landReg l o) d := by
  obtain ⟨hlt, h0⟩ := plainLand_off o ho
  have hr : s.decodes (landReg l o) = true := by simp [State.decodes, hlt, hl, hpr, hu]
  refine ⟨hd, fun master v => ?_, fun master => regRead_eq hd hr (by simp [hl, hlt]) master⟩
  rw [regWrite_one (.inl (Nat.le_of_eq (aBay_landReg hl hlt)))]
  simp [State.regWrite1, hlt, hl, hr, hd, h0]

theorem plainReg_glo {s : State} {o : Nat} {d : RegDef} (ho : o ∈ plainGlo) (hd : regDef (gloReg o) = some d) : s.PlainReg (gloReg o) d := by
  obtain ⟨hlt, h3, h4, h7⟩ := plainGlo_off o ho
  have hr : s.decodes (gloReg o) = true := by simp [State.decodes, hlt]
  refine ⟨hd, fun master v => ?_, fun master => regRead_eq hd hr (by simp [hlt]) master⟩
  rw [regWrite_one (.inr (aBay_gloReg hlt))]
  simp only [State.regWrite1, aBay_gloReg hlt, aUnit_gloReg hlt, aBlk_gloReg hlt, aOff_gloReg hlt]
  simp [hr, hd, h3, h4, h7]

theorem and_not_zero (x : W32) : x &&& ~~~0#32 = x := by
  rw [show ~~~0#32 = BitVec.allOnes 32 by decide, BitVec.and_allOnes]

/-- A plain hub register shows its stored bits. -/
theorem regShown_hub {b o : Nat} (hb : b < 60) (ho : o ∈ plainHub) (s : State) : s.regShown (hubReg b o) = s.reg (hubReg b o) := by
  obtain ⟨hlt, h3, -, -⟩ := plainHub_off o ho
  rw [State.regShown, aBay_hubReg hlt, aUnit_hubReg hlt, aBlk_hubReg hlt, aOff_hubReg hlt]
  have hlive : s.liveHub b 0 o = (0, 0) := by simp [State.liveHub, show ¬ o < 0x300 by omega]
  simp only [hb, if_true, show ¬ (48 : Nat) < 48 by decide, if_false, hlive, BitVec.and_zero, BitVec.or_zero, and_not_zero]

/-! ## Registers with a rule of their own -/

/-- A write of a register of RW bits only keeps the bits outside its mask (R17). -/
theorem writeBits_rw (blk off n stride reset rw : Nat) (old v : W32) :
    writeBits ⟨blk, off, n, stride, reset, rw, 0, 0⟩ old v = (old &&& ~~~(BitVec.ofNat 32 rw)) ||| (v &&& BitVec.ofNat 32 rw) := by
  simp only [writeBits, BitVec.and_zero, and_not_zero]

theorem writeBits_allRw (blk off n stride reset : Nat) (old v : W32) : writeBits ⟨blk, off, n, stride, reset, 0xFFFFFFFF, 0, 0⟩ old v = v := by
  rw [writeBits_rw, show BitVec.ofNat 32 0xFFFFFFFF = BitVec.allOnes 32 by decide, BitVec.and_allOnes, BitVec.not_allOnes, BitVec.and_zero,
    BitVec.zero_or]

theorem completes_stackMapoutRequest {s : State} {b : Nat} (hb : b < 60) (hu : s.bayUp b = true) (v : W32) :
    Completes (.stackMapoutRequest b v) s (fun t =>
      t.reg (hubReg b 0x408) = v ∧ (∀ a, a ≠ hubReg b 0x408 → t.reg a = s.reg a) ∧ t.stack = s.stack) := by
  have hd : regDef (hubReg b 0x408) = some ⟨0, 0x408, 1, 4, 0, 0xFFFFFFFF, 0, 0⟩ :=
    (regDef_hubReg hb (by decide) rfl (by decide)).trans (by decide)
  refine ⟨s.plainWrite (hubReg b 0x408) v, ?_, ?_⟩
  · change execStackMapoutRequest b v s = _
    rw [execStackMapoutRequest, if_neg (by omega), if_pos hu]
  · rw [plainWrite_eq hd, writeBits_allRw]
    exact ⟨s.reg_setReg_same _ _, fun a ha => s.reg_setReg_ne _ ha, s.stack_setReg _ _⟩

/-- The two fields of TAP_CTRL in one word (R80). -/
theorem field_tapWord {base slots : Nat} (hb : base < 4096) (hs : slots < 16) :
    field (BitVec.ofNat 32 (base + 4096 * slots)) 11 0 = base ∧ field (BitVec.ofNat 32 (base + 4096 * slots)) 15 12 = slots := by
  simp only [field, bits, BitVec.toNat_ofNat, Nat.shiftRight_eq_div_pow]
  omega

theorem field_lt (v : W32) (hi lo : Nat) : field v hi lo < 2 ^ (hi + 1 - lo) := Nat.mod_lt _ (Nat.two_pow_pos _)

theorem completes_tapCtrl {s : State} {p : Nat} (hp : p < 2880) (hu : s.bayUp (coreBay p) = true) (v : W32) (h2 : 2 ≤ field v 15 12)
    (h8 : field v 15 12 ≤ 8) (hfit : field v 11 0 * 4096 + field v 15 12 * slotBytes ≤ spadTop) :
    Completes (.tapCtrl p v) s (fun t =>
      t.fld (coreReg p 7 0) 11 0 = field v 11 0 ∧ t.fld (coreReg p 7 0) 15 12 = field v 15 12 ∧ t.cores = s.cores) := by
  refine ⟨s.setReg (coreReg p 7 0) (BitVec.ofNat 32 (field v 11 0 + 4096 * field v 15 12)), ?_, ?_⟩
  · change execTapCtrl p v s = _
    rw [execTapCtrl, if_neg (by omega), if_pos hu]
    simp [State.writeTapCtrl, h2, h8, hfit]
  · have hw := field_tapWord (field_lt v 11 0) (slots := field v 15 12) (by omega)
    simpa [State.fld] using hw

theorem completes_tapCtrl_ignored {s : State} {p : Nat} (hp : p < 2880) (hu : s.bayUp (coreBay p) = true) (v : W32)
    (hfit : spadTop < field v 11 0 * 4096 + field v 15 12 * slotBytes) (h2 : 2 ≤ field v 15 12) (h8 : field v 15 12 ≤ 8) :
    Completes (.tapCtrl p v) s (fun t => t = s) := by
  refine ⟨s, ?_, rfl⟩
  change execTapCtrl p v s = _
  rw [execTapCtrl, if_neg (by omega), if_pos hu]
  simp [State.writeTapCtrl, h2, h8, show ¬ field v 11 0 * 4096 + field v 15 12 * slotBytes ≤ spadTop by omega]

theorem completes_greenCtrl {s : State} {p : Nat} (hp : p < 2880) (hu : s.bayUp (coreBay p) = true) (v : W32)
    (hfit : field v 11 0 * 4096 + min 32 (field v 17 12) * 65536 ≤ spadTop) :
    Completes (.greenCtrl p v) s (fun t =>
      t.reg (coreReg p 0 0x70) = (s.reg (coreReg p 0 0x70) &&& ~~~0x3FFFF#32) ||| (v &&& 0x3FFFF#32) ∧ t.cores = s.cores) := by
  have hd : regDef (coreReg p 0 0x70) = some ⟨0, 0x70, 1, 4, 0, 0x3FFFF, 0, 0⟩ :=
    (regDef_coreReg hp (by decide) (by decide) rfl (by decide)).trans (by decide)
  refine ⟨s.plainWrite (coreReg p 0 0x70) v, ?_, ?_⟩
  · change execGreenCtrl p v s = _
    rw [execGreenCtrl, if_neg (by omega), if_pos hu, State.writeGreenCtrl, if_pos hfit]
  · rw [plainWrite_eq hd, writeBits_rw]
    exact ⟨s.reg_setReg_same _ _, s.cores_setReg _ _⟩

/-! ## The memory window (R510) -/

/-- The state with the answer of an access to be read back. -/
def State.answer (s : State) (r : ReadBack) : State := { s with back := r }

@[simp] theorem back_answer (s : State) (r : ReadBack) : (s.answer r).back = r := (rfl)
@[simp] theorem core_answer (s : State) (r : ReadBack) (p : Nat) : (s.answer r).core p = s.core p := (rfl)
@[simp] theorem cores_answer (s : State) (r : ReadBack) : (s.answer r).cores = s.cores := (rfl)
@[simp] theorem regs_answer (s : State) (r : ReadBack) : (s.answer r).regs = s.regs := (rfl)

/-- A window access that answers is an access to the core's memories at the master's page. -/
theorem exec_memoryWindow {s : State} {master p off n : Nat} (hp : p < 2880) (hu : s.bayUp (coreBay p) = true) (hm : master ≤ 73)
    (hlo : 0x8000 ≤ off) (hn : n = 4 ∨ n = 8) (hhi : off + n ≤ 0x10000) (wr : Option Nat) :
    exec (.memoryWindow master p off n wr) s = .next ((s.window master p (off - 0x8000) n wr).2.answer (s.window master p (off - 0x8000) n wr).1) := by
  change execMemoryWindow master p off n wr s = _
  rw [execMemoryWindow, if_neg (by omega), if_neg]
  · rfl
  · simp only [hu, winOff]; simp; omega

/-- The core after n bytes of v are written at scratchpad address o. -/
def Core.storeSpad (c : Core) (o n v : Nat) : Core := { c with spad := Mem.write c.spad o (leBytes n v) }

theorem memAccess_read_spad {o n : Nat} (hn : n ≠ 0) (ha : o % n = 0) (ho : o + n ≤ spadTop) (s : State) (p : Nat) :
    s.memAccess p o n none = ({ data := Mem.read (s.core p).spad o n }, s) := by
  simp [State.memAccess, hn, ha, ho]

theorem memAccess_write_spad {o n : Nat} (hn : n ≠ 0) (ha : o % n = 0) (ho : o + n ≤ spadTop) (s : State) (p v : Nat) :
    s.memAccess p o n (some v) = ({}, s.onCore p (·.storeSpad o n v)) := by
  simp [State.memAccess, State.onCore, Core.storeSpad, hn, ha, ho]

theorem completes_memoryWindow {s : State} {p master off n : Nat} (v : Nat) (hp : p < 2880) (hu : s.bayUp (coreBay p) = true) (hm : master ≤ 73)
    (hlo : 0x8000 ≤ off) (hn : n = 4 ∨ n = 8) (hhi : off + n ≤ 0x10000) (ha : off % n = 0) :
    let o := SMap.get 0 s.memPage (pageKey p master) * 32768 + (off - 0x8000)
    o + n ≤ spadTop →
    Completes (.memoryWindow master p off n none) s (fun t => t.back = { data := Mem.read (s.core p).spad o n } ∧ t.cores = s.cores ∧ t.regs = s.regs) ∧
    Completes (.memoryWindow master p off n (some v)) s (fun t => (t.core p).spad = Mem.write (s.core p).spad o (leBytes n v) ∧
      (t.core p).sill = (s.core p).sill ∧ (t.core p).v = (s.core p).v ∧ t.regs = s.regs) := by
  intro o ho
  have hn0 : n ≠ 0 := by omega
  have hoa : o % n = 0 := by rcases hn with rfl | rfl <;> omega
  refine ⟨⟨_, exec_memoryWindow hp hu hm hlo hn hhi none, ?_⟩, ⟨_, exec_memoryWindow hp hu hm hlo hn hhi (some v), ?_⟩⟩
  · rw [State.window, memAccess_read_spad hn0 hoa ho]
    exact ⟨rfl, rfl, rfl⟩
  · rw [State.window, memAccess_write_spad hn0 hoa ho]
    simp [Core.storeSpad, o]

/-- Settles O49: the listed registers are plain, and the others follow their own rules. -/
theorem registersAndWindows : Obligations.registers_and_windows := by
  intro s
  refine ⟨fun b o d v master hb ho hu hd => ?_, fun a d v master ha hd => ?_, fun b v hb hu => completes_stackMapoutRequest hb hu v,
    fun p hp hu => ⟨fun v => completes_tapCtrl hp hu v, fun v => completes_tapCtrl_ignored hp hu v, fun v => completes_greenCtrl hp hu v,
      fun master off n v hm hlo hn hhi ha => completes_memoryWindow v hp hu hm hlo hn hhi ha⟩⟩
  · have hplain := plainReg_hub hb ho hu hd
    obtain ⟨t, he, hback, hreg, hother, -⟩ := completes_read_plain hplain
    exact ⟨completes_write_plain hplain v master, t, he, regShown_hub hb ho s ▸ hback, hreg, hother⟩
  · have hplain : s.PlainReg a d := by
      obtain ⟨p, k, hp, hu, hk, rfl⟩ | ⟨l, o, hl, hpr, hu, ho, rfl⟩ | ⟨o, ho, rfl⟩ := ha
      · exact plainReg_core hp hu hk hd
      · exact plainReg_land hl hpr hu ho hd
      · exact plainReg_glo ho hd
    exact ⟨completes_write_plain hplain v master, completes_read_plain hplain⟩

end Sys2Proof.Machine
end

section
/-! Mailbox slots, events and the completion of a host command: what raising an event leaves alone, what a finished slot holds, and the two
answers a command that executes can give (R486 to R488, R495). -/

namespace Sys2Proof

namespace Mem

/-- Two memories with the same bytes in a range read alike there. -/
theorem read_congr {m k : Mem} {a n : Nat} (h : ∀ i < n, byte m (a + i) = byte k (a + i)) : read m a n = read k a n := by
  apply List.ext_getElem (by simp)
  intro i hi _
  have hn : i < n := by simpa using hi
  have e := h i hn
  rw [← read_getD m a n i hn, ← read_getD k a n i hn] at e
  simpa [List.getD_eq_getElem?_getD, hn] using e

theorem readNat_write_outside (m : Mem) {a n x : Nat} {bs : List Byte} (h : a + n ≤ x ∨ x + bs.length ≤ a) :
    readNat (write m x bs) a n = readNat m a n := by
  rw [readNat, readNat, read_congr fun i hi => byte_write_outside m x bs (a + i) (by omega)]

/-- One byte as a number. -/
theorem readNat_one (m : Mem) (a : Nat) : readNat m a 1 = (byte m a).toNat := by
  have h := read_getD m a 1 0 (by decide)
  obtain ⟨b, hb⟩ : ∃ b, read m a 1 = [b] := List.length_eq_one_iff.1 (read_length m a 1)
  rw [hb] at h
  simp only [readNat, hb, leNat, Nat.mul_zero, Nat.add_zero]
  exact congrArg BitVec.toNat h

theorem readNat_lt (m : Mem) (a n : Nat) : readNat m a n < 256 ^ n := by
  have h : ∀ bs : List Byte, leNat bs < 256 ^ bs.length := by
    intro bs
    induction bs with
    | nil => simp [leNat]
    | cons b bs ih =>
      have hb := b.isLt
      simp only [leNat, List.length_cons, Nat.pow_succ]
      omega
  simpa [readNat] using h (read m a n)

/-- A byte that is 0 is 0 in what is left of a memory after some cells are dropped. -/
theorem byte_filter_zero (m : Mem) (f : Host.Cell → Bool) (x : Nat) (h : ∀ e ∈ m, e.1 = x → f e = false) : byte (m.filter f) x = 0 :=
  byte_none _ x fun e he hx => by
    have := List.mem_filter.1 he
    simp [h e this.1 hx] at this

theorem byte_zero_inside (m : Mem) {a n x : Nat} (h : a ≤ x ∧ x < a + n) : byte (zero m a n) x = 0 :=
  byte_filter_zero m _ x fun e _ hx => by simp only [decide_eq_false_iff_not]; omega

theorem byte_zero_outside (m : Mem) {a n x : Nat} (h : x < a ∨ a + n ≤ x) : byte (zero m a n) x = byte m x :=
  byte_filter m _ x fun _ => by simpa using h

/-- Zeroing makes no byte nonzero. -/
theorem byte_zero_of_zero {m : Mem} (a n : Nat) {x : Nat} (h : byte m x = 0) : byte (zero m a n) x = 0 := by
  by_cases hx : a ≤ x ∧ x < a + n
  · exact byte_zero_inside m hx
  · rw [byte_zero_outside m (by omega), h]

end Mem

namespace Machine

/-! ## Events -/

/-- All of a state but what an event touches: the boards and the queue of events (R495, R526). -/
def State.unevented (s : State) : State := { s with boards := [], evPending := [], evSeq := 0, evLost := 0 }

/-- What reads nothing that an event touches reads the same in two states that differ only there. -/
theorem eq_of_unevented {β : Type} (g : State → β) (hg : ∀ u : State, g u.unevented = g u) {s t : State} (h : t.unevented = s.unevented) :
    g t = g s := by
  rw [← hg t, h, hg]

theorem unevented_onBoard (s : State) (b : Nat) (f : Board → Board) : (s.onBoard b f).unevented = s.unevented := rfl

theorem unevented_traceOut (s : State) (code seq : Nat) : (s.traceOut code seq).unevented = s.unevented :=
  State.upTo_keeps State.unevented _ _ s fun b u => by
    simp only
    split
    · exact unevented_onBoard u b _
    · rfl

theorem unevented_raise (s : State) (code : Nat) (fs : List (Nat × Nat)) : (s.raise code fs).unevented = s.unevented := by
  unfold State.raise
  simp only
  split
  · rfl
  · split
    · rfl
    · exact unevented_traceOut _ _ _

/-- The trace of an event leaves the mailbox area alone. -/
theorem mbx_traceOut (s : State) (code seq b : Nat) : ((s.traceOut code seq).board b).mbx = (s.board b).mbx :=
  State.upTo_keeps (fun u => (u.board b).mbx) _ _ s fun c u => by
    simp only
    split
    · by_cases h : b = c
      · subst h
        rw [State.board_onBoard_same]
        split <;> rfl
      · rw [State.board_onBoard_ne _ _ h]
    · rfl

@[simp] theorem mbx_raise (s : State) (code : Nat) (fs : List (Nat × Nat)) (b : Nat) : ((s.raise code fs).board b).mbx = (s.board b).mbx := by
  unfold State.raise
  simp only
  split
  · rfl
  · split
    · rfl
    · exact mbx_traceOut _ _ _ b

@[simp] theorem reg_raise (s : State) (code : Nat) (fs : List (Nat × Nat)) (a : Nat) : (s.raise code fs).reg a = s.reg a :=
  eq_of_unevented (State.reg · a) (fun _ => rfl) (unevented_raise s code fs)
@[simp] theorem stack_raise (s : State) (code : Nat) (fs : List (Nat × Nat)) : (s.raise code fs).stack = s.stack :=
  eq_of_unevented State.stack (fun _ => rfl) (unevented_raise s code fs)
@[simp] theorem rep_raise (s : State) (code : Nat) (fs : List (Nat × Nat)) : (s.raise code fs).rep = s.rep :=
  eq_of_unevented State.rep (fun _ => rfl) (unevented_raise s code fs)

/-! ## The completion of a command (R488) -/

theorem mbx_slotPut (s : State) (b k o : Nat) (bs : List Byte) : ((s.slotPut b k o bs).board b).mbx = Mem.write (s.board b).mbx (256 * k + o) bs := by
  rw [State.slotPut, State.board_onBoard_same]

theorem unevented_slotPut (s : State) (b k o : Nat) (bs : List Byte) : (s.slotPut b k o bs).unevented = s.unevented :=
  unevented_onBoard s b _

theorem unevented_finish (s : State) (b k status : Nat) (res : List Byte) : (s.finish b k status res).unevented = s.unevented := by
  have hput : (((s.slotPut b k 0x80 res).slotPut b k 9 (leBytes 1 status)).slotPut b k 8 [3]).unevented = s.unevented := by
    rw [unevented_slotPut, unevented_slotPut, unevented_slotPut]
  unfold State.finish
  split
  · rfl
  · simp only
    split
    · exact hput
    · rw [unevented_raise, hput]

@[simp] theorem reg_finish (s : State) (b k status : Nat) (res : List Byte) (a : Nat) : (s.finish b k status res).reg a = s.reg a :=
  eq_of_unevented (State.reg · a) (fun _ => rfl) (unevented_finish s b k status res)
@[simp] theorem fld_finish (s : State) (b k status : Nat) (res : List Byte) (a hi lo : Nat) : (s.finish b k status res).fld a hi lo = s.fld a hi lo :=
  eq_of_unevented (State.fld · a hi lo) (fun _ => rfl) (unevented_finish s b k status res)
@[simp] theorem cores_finish (s : State) (b k status : Nat) (res : List Byte) : (s.finish b k status res).cores = s.cores :=
  eq_of_unevented State.cores (fun _ => rfl) (unevented_finish s b k status res)
@[simp] theorem land_finish (s : State) (b k status : Nat) (res : List Byte) (l : Nat) : (s.finish b k status res).land l = s.land l :=
  eq_of_unevented (State.land · l) (fun _ => rfl) (unevented_finish s b k status res)
@[simp] theorem stack_finish (s : State) (b k status : Nat) (res : List Byte) : (s.finish b k status res).stack = s.stack :=
  eq_of_unevented State.stack (fun _ => rfl) (unevented_finish s b k status res)
@[simp] theorem rep_finish (s : State) (b k status : Nat) (res : List Byte) : (s.finish b k status res).rep = s.rep :=
  eq_of_unevented State.rep (fun _ => rfl) (unevented_finish s b k status res)
@[simp] theorem fenced_finish (s : State) (b k status : Nat) (res : List Byte) (p : Nat) : (s.finish b k status res).fenced p = s.fenced p :=
  eq_of_unevented (State.fenced · p) (fun _ => rfl) (unevented_finish s b k status res)
@[simp] theorem groupsUp_finish (s : State) (b k status : Nat) (res : List Byte) (l : Nat) : (s.finish b k status res).groupsUp l = s.groupsUp l :=
  eq_of_unevented (State.groupsUp · l) (fun _ => rfl) (unevented_finish s b k status res)

/-- The mailbox area of the board after an executing command has completed. -/
theorem mbx_finish {s : State} {b k : Nat} (h : s.slotState b k = 2) (status : Nat) (res : List Byte) :
    ((s.finish b k status res).board b).mbx =
      Mem.write (Mem.write (Mem.write (s.board b).mbx (256 * k + 0x80) res) (256 * k + 9) [BitVec.ofNat 8 status]) (256 * k + 8) [3] := by
  have hput : ((((s.slotPut b k 0x80 res).slotPut b k 9 (leBytes 1 status)).slotPut b k 8 [3]).board b).mbx =
      Mem.write (Mem.write (Mem.write (s.board b).mbx (256 * k + 0x80) res) (256 * k + 9) (leBytes 1 status)) (256 * k + 8) [3] := by
    rw [mbx_slotPut, mbx_slotPut, mbx_slotPut]
  unfold State.finish
  rw [if_neg (by simp [h])]
  simp only
  split
  · exact hput
  · rw [mbx_raise]; exact hput

/-- An executing slot is done after completion, and holds the status and the result (R488, Table 19.5). -/
theorem finished_finish {s : State} {b k status : Nat} (h : s.slotState b k = 2) (hs : status < 256) (res : List Byte) :
    Finished b k status res (s.finish b k status res) := by
  refine ⟨?_, ?_, fun i hi => ?_⟩
  · rw [State.slotState, State.slotNum, mbx_finish h, Mem.readNat_one, ← Nat.add_zero (256 * k + 8), Mem.byte_write_inside _ _ _ _ (by simp)]
    rfl
  · rw [State.slotNum, mbx_finish h, Mem.readNat_write_outside _ (by simp), Mem.readNat_one, ← Nat.add_zero (256 * k + 9),
      Mem.byte_write_inside _ _ _ _ (by simp)]
    simp [Nat.mod_eq_of_lt hs]
  · rw [mbx_finish h, Mem.byte_write_outside _ _ _ _ (by simp; omega), Mem.byte_write_outside _ _ _ _ (by simp; omega),
      Mem.byte_write_inside _ _ _ _ hi]

/-! ## What a command that executes answers (R488) -/

/-- What a command that executes answers by its meaning, completed unless it waits. -/
def Ans.settle (x : Ans) (b k : Nat) : State := match x with
  | (t, none) => t
  | (t, some r) => t.finish b k r.1 r.2

/-- A command that executes runs its meaning. -/
theorem cmd_serves {s : State} {b k code : Nat} (h : s.serves b k code = true) (f : State → Ans) :
    cmd b k code f s = .next ((f s).settle b k) := by
  simp only [State.serves, Bool.and_eq_true, decide_eq_true_eq, Bool.not_eq_true', beq_iff_eq] at h
  obtain ⟨⟨⟨⟨hbk, hmp⟩, hrun⟩, hflag⟩, hres⟩ := h
  simp only [cmd, mpRow]
  rw [if_neg (by omega), if_neg (by simp [hmp]), if_neg (by simp [hrun]), if_neg (by omega)]
  rfl

theorem slotState_of_serves {s : State} {b k code : Nat} (h : s.serves b k code = true) : s.slotState b k = 2 := by
  simp only [State.serves, State.canRun, Bool.and_eq_true, beq_iff_eq] at h
  exact h.1.1.2.1.1.2

theorem slotState_congr {s t : State} {b : Nat} (h : (t.board b).mbx = (s.board b).mbx) (k : Nat) : t.slotState b k = s.slotState b k := by
  simp only [State.slotState, State.slotNum, h]

/-- A command that waits changes nothing. -/
theorem completes_waiting {i : Instr} {s : State} {b k code : Nat} {f : State → Ans} (hi : exec i s = cmd b k code f s)
    (h : s.serves b k code = true) (hf : f s = (s, none)) : Completes i s (fun t => t = s) :=
  ⟨s, by rw [hi, cmd_serves h, hf]; rfl, rfl⟩

/-- A command whose meaning leaves the mailboxes alone completes with status OK. -/
theorem completes_done {i : Instr} {s t : State} {b k code : Nat} {f : State → Ans} {P : State → Prop} (hi : exec i s = cmd b k code f s)
    (h : s.serves b k code = true) (hf : f s = t.done 0) (hm : (t.board b).mbx = (s.board b).mbx)
    (hP : Finished b k 0 [] (t.finish b k 0 []) → P (t.finish b k 0 [])) : Completes i s P :=
  ⟨t.finish b k 0 [], by rw [hi, cmd_serves h, hf]; rfl,
    hP (finished_finish ((slotState_congr hm k).trans (slotState_of_serves h)) (by decide) [])⟩

end Machine

end Sys2Proof
end

section
/-! What the sequences of the continuity chapter leave alone: registers outside the ones they write, the mailboxes, and stack bytes, which they
only erase (R315, R402, R431 to R443). -/

namespace Sys2Proof.Machine

/-- What a sequence may write beside what nothing reads here: registers, and the causes of fences. -/
structure Scope where
  regs : Nat → Prop
  fences : Prop

/-- From s to t at most registers of the scope are written, the causes of fences change only if the scope says so, no mailbox byte changes, and
no stack byte becomes nonzero. -/
structure Within (W : Scope) (s t : State) : Prop where
  reg : ∀ a, ¬ W.regs a → t.reg a = s.reg a
  fence : ¬ W.fences → t.rep.fence = s.rep.fence
  mbx : ∀ b, (t.board b).mbx = (s.board b).mbx
  stack : ∀ x, Mem.byte s.stack x = 0 → Mem.byte t.stack x = 0

namespace Within

variable {W : Scope} {s t u : State}

/-! ## Composition -/

theorem refl : Within W s s := ⟨fun _ _ => rfl, fun _ => rfl, fun _ => rfl, fun _ h => h⟩

theorem trans (h : Within W s t) (k : Within W t u) : Within W s u :=
  ⟨fun a ha => (k.reg a ha).trans (h.reg a ha), fun hf => (k.fence hf).trans (h.fence hf), fun b => (k.mbx b).trans (h.mbx b), fun x hx => k.stack x (h.stack x hx)⟩

theorem mono {V : Scope} (h : Within V s t) (hr : ∀ a, V.regs a → W.regs a) (hf : V.fences → W.fences) : Within W s t :=
  ⟨fun a ha => h.reg a (mt (hr a) ha), fun h0 => h.fence (mt hf h0), h.mbx, h.stack⟩

/-- An update of other fields. -/
theorem other (h : Within W s t) (hr : u.regs = t.regs) (hb : u.boards = t.boards) (hs : u.stack = t.stack) (hf : u.rep.fence = t.rep.fence) :
    Within W s u :=
  h.trans ⟨fun a _ => congrArg (SMap.get (resetOf a) · a) hr, fun _ => hf, fun b => congrArg (fun m => (SMap.get ({} : Board) m b).mbx) hb, fun _ hx => hs ▸ hx⟩

theorem ite {c : Prop} [Decidable c] (ht : c → Within W s t) (hu : ¬ c → Within W s u) : Within W s (if c then t else u) := by
  split
  · next h => exact ht h
  · next h => exact hu h

theorem foldl {α : Type} {f : State → α → State} (xs : List α) (h : Within W s t) (hf : ∀ u, ∀ x ∈ xs, Within W u (f u x)) :
    Within W s (xs.foldl f t) := by
  induction xs generalizing t with
  | nil => exact h
  | cons x xs ih => exact ih (h.trans (hf t x List.mem_cons_self)) (fun u y hy => hf u y (List.mem_cons_of_mem _ hy))

theorem forAll {α : Type} {f : α → State → State} {xs : List α} (h : Within W s t) (hf : ∀ x ∈ xs, ∀ u, Within W u (f x u)) :
    Within W s (forAll xs f t) := foldl xs h fun u x hx => hf x hx u

theorem upTo {f : Nat → State → State} {n : Nat} (h : Within W s t) (hf : ∀ i < n, ∀ u, Within W u (f i u)) : Within W s (upTo n f t) :=
  foldl _ h fun u i hi => hf i (List.mem_range.1 hi) u

/-! ## One update -/

theorem setReg (h : Within W s t) {a : Nat} (ha : W.regs a) (v : W32) : Within W s (t.setReg a v) :=
  h.trans ⟨fun _ hx => t.reg_setReg_ne v (fun e => hx (e ▸ ha)), fun _ => rfl, fun _ => rfl, fun _ h0 => h0⟩

theorem setFld (h : Within W s t) {a : Nat} (ha : W.regs a) (hi lo v : Nat) : Within W s (t.setFld a hi lo v) := h.setReg ha _

theorem orReg (h : Within W s t) {a : Nat} (ha : W.regs a) (m : W32) : Within W s (t.orReg a m) := h.setReg ha _

theorem fldMp (h : Within W s t) {a : Nat} (ha : W.regs a) (hi lo v : Nat) : Within W s (t.fldMp a hi lo v) := (h.setFld ha hi lo v).other rfl rfl rfl rfl

theorem onJob (h : Within W s t) (f : Job → Job) : Within W s (t.onJob f) := h.other rfl rfl rfl rfl

theorem onBay (h : Within W s t) (b : Nat) (f : Bay → Bay) : Within W s (t.onBay b f) := h.other rfl rfl rfl rfl

theorem onLand (h : Within W s t) (l : Nat) (f : Landing → Landing) : Within W s (t.onLand l f) := h.other rfl rfl rfl rfl

theorem setRep (h : Within W s t) (r : Repair) (hf : r.fence = t.rep.fence) : Within W s { t with rep := r } := h.other rfl rfl rfl hf

theorem setStartFenced (h : Within W s t) (ps : List Nat) : Within W s { t with startFenced := ps } := h.other rfl rfl rfl rfl

theorem setSn (h : Within W s t) (ts : List Token) : Within W s { t with sn := ts } := h.other rfl rfl rfl rfl

theorem sendAlarm (h : Within W s t) (bay code detail : Nat) : Within W s (t.sendAlarm bay code detail) := h.setSn _

theorem setRtr (h : Within W s t) (p : Nat) (r : Router) : Within W s (t.setRtr p r) := h.other rfl rfl rfl rfl

theorem risk (h : Within W s t) (kind detail : Nat) : Within W s (t.risk kind detail) := h.other rfl rfl rfl rfl

theorem raise (h : Within W s t) (code : Nat) (fs : List (Nat × Nat)) : Within W s (t.raise code fs) :=
  h.trans ⟨fun a _ => reg_raise t code fs a, fun _ => by rw [rep_raise], mbx_raise t code fs, fun _ hx => by rwa [stack_raise]⟩

theorem pushFrame (h : Within W s t) (l : Nat) (f : Frame) : Within W s (t.pushFrame l f) := h.onLand l _

theorem sendHold (h : Within W s t) {l : Nat} (hl : W.regs (landReg l 8)) (m k bayByte : Nat) : Within W s (t.sendHold l m k bayByte) :=
  (h.pushFrame l _).setReg hl _

end Within

/-! ## Containment (Table 17.4, order 7; R11) -/

/-- The registers that containment and the end-of-service floor write: those of cores, HOLD_SENT and the two powers of the landings, and
EOS_STATUS. -/
def containReg (a : Nat) : Prop := (aBay a < 60 ∧ aUnit a < 48) ∨ (aBay a = 60 ∧ aOff a ∈ [8, 0x604, 0x608]) ∨ a = gloReg 0x510

/-- The scope of containment. -/
def containing : Scope := ⟨containReg, False⟩

theorem containReg_coreReg {p blk off : Nat} (hp : p < 2880) (hb : blk < 16) (ho : off < 65536) : containReg (coreReg p blk off) :=
  .inl ⟨by rw [aBay_coreReg hb ho]; exact coreBay_lt hp, by rw [aUnit_coreReg hb ho]; exact coreIdx_lt p⟩

theorem containReg_landReg {l off : Nat} (hl : l < 8) (ho : off ∈ [8, 0x604, 0x608]) : containReg (landReg l off) := by
  have hlt : off < 65536 := by simp at ho; omega
  exact .inr (.inl ⟨aBay_landReg hl hlt, by rwa [aOff_landReg hlt]⟩)

theorem not_containReg_hubReg {b off : Nat} (hb : b < 60) (ho : off < 65536) : ¬ containReg (hubReg b off) := by
  rintro (h | h | h)
  · have := h.2; simp [ho] at this
  · have := h.1; simp [ho] at this; omega
  · have := congrArg aUnit h; simp [ho] at this

theorem not_containReg_landStatus {l : Nat} (hl : l < 8) : ¬ containReg (landReg l 4) := by
  rintro (h | h | h)
  · have := h.1; simp [hl] at this
  · have := h.2; simp at this
  · have := congrArg aBay h; simp [hl] at this

namespace Within

variable {W : Scope} {s t : State}

theorem holdAll (h : Within containing s t) (m k : Nat) : Within containing s (t.holdAll m k) :=
  ite (fun _ => h) fun _ => h.upTo fun _ hl _ => ite (fun _ => refl.sendHold (containReg_landReg hl (by decide)) _ _ _) fun _ => refl

theorem stopCores (h : Within containing s t) : Within containing s t.stopCores :=
  h.upTo fun _ hp _ => ite (fun _ => refl.fldMp (containReg_coreReg hp (by decide) (by decide)) _ _ _) fun _ => refl

theorem abortAttempt (h : Within containing s t) : Within containing s t.abortAttempt :=
  ite (fun _ => h) fun _ =>
    ((((h.forAll fun l _ _ => refl.pushFrame l _).onJob _).upTo fun _ hl _ => ite (fun _ =>
      ((refl.setReg (containReg_landReg hl (by decide)) _).setReg (containReg_landReg hl (by decide)) _).onLand _ _) fun _ => refl).raise _ _)

theorem contain (h : Within containing s t) : Within containing s t.contain :=
  ite (fun _ => h.abortAttempt.stopCores.holdAll _ _) fun _ => h

theorem want (h : Within W s t) (k : Nat) : Within W s (t.want k) := by
  unfold State.want
  exact h.onJob _

theorem replayStep (h : Within W s t) : Within W s t.replayStep := ite (fun _ => h) fun _ => h.want 1

theorem floorCheck (h : Within containing s t) : Within containing s t.floorCheck := by
  unfold State.floorCheck
  simp only
  split
  · exact h
  · have k := h.orReg (.inr (.inr rfl) : containing.regs (gloReg 0x510))
    split
    · exact k _
    · exact (k _).raise _ _

theorem endOfService (h : Within containing s t) : Within containing s t.endOfService := ite (fun _ => h.floorCheck) fun _ => h

theorem askAlternate (h : Within containing s t) (names : List (Nat × Nat)) : Within containing s (t.askAlternate names) :=
  have k : Within containing s ((t.raise 0x010A names).holdAll 15 2) := (h.raise _ _).holdAll _ _
  ite (fun _ => k.onJob _) fun _ => k

theorem seekPlace (h : Within containing s t) (restore : Bool) (names : List (Nat × Nat)) : Within containing s (t.seekPlace restore names) := by
  have ask : Within containing s (if restore then t.want 2 else t.replayStep) := ite (fun _ => h.want 2) fun _ => h.replayStep
  unfold State.seekPlace
  split
  · exact h
  · split
    · exact ask.askAlternate _
    · exact ite (fun _ => ask) fun _ => ite (fun _ => (h.onJob _).want 2) fun _ => (h.onJob _).replayStep

theorem mpPlace (h : Within containing s t) (restore : Bool) (names : List (Nat × Nat)) : Within containing s (t.mpPlace restore names) :=
  ite (fun _ => h.seekPlace _ _) fun _ => h.other rfl rfl rfl rfl

/-- What a landing that has stopped starts: paired service, or the loss of its rows (R22, R443). -/
theorem landingStopped (h : Within containing s t) (l : Nat) : Within containing s (t.landingStopped l) :=
  ite (fun _ => h.endOfService) fun _ =>
    have k := h.onJob fun j => { j with fencedSince := j.fencedSince || j.crossing.isSome }
    (ite (fun _ => k.contain.mpPlace _ _) fun _ => ite (fun _ => k.abortAttempt.replayStep) fun _ => k).endOfService

end Within

/-! ## Fences and the loss of a bay (R431, R435, R442) -/

/-- Any register but those of bay hubs, and of bay hubs those at the offsets listed. -/
def hubOnly (offs : List Nat) (a : Nat) : Prop := aBay a < 60 → aUnit a = 48 → aOff a ∈ offs

theorem hubOnly_hubReg {offs : List Nat} {o : Nat} (b : Nat) (ho : o < 65536) (h : o ∈ offs) : hubOnly offs (hubReg b o) :=
  fun _ _ => by rwa [aOff_hubReg ho]

theorem hubOnly_coreReg (offs : List Nat) (p : Nat) {blk off : Nat} (hb : blk < 16) (ho : off < 65536) : hubOnly offs (coreReg p blk off) :=
  fun _ h => by rw [aUnit_coreReg hb ho] at h; exact absurd h (Nat.ne_of_lt (coreIdx_lt p))

theorem hubOnly_landReg (offs : List Nat) (l off : Nat) : hubOnly offs (landReg l off) := by
  intro h
  simp only [aBay, landReg, mkAddr] at h
  omega

theorem hubOnly_containReg (offs : List Nat) {a : Nat} (h : containReg a) : hubOnly offs a := by
  rintro hb hu
  obtain ⟨-, h⟩ | ⟨h, -⟩ | rfl := h
  · omega
  · omega
  · simp at hb

theorem not_hubOnly {offs : List Nat} {b o : Nat} (hb : b < 60) (ho : o < 65536) (h : o ∉ offs) : ¬ hubOnly offs (hubReg b o) :=
  fun k => h (by simpa [ho] using k (by rwa [aBay_hubReg ho]) (aUnit_hubReg ho))

theorem hubOnly_subset {offs more : List Nat} (h : offs ⊆ more) (a : Nat) (k : hubOnly offs a) : hubOnly more a := fun hb hu => h (k hb hu)

/-- The scope of those writes. -/
def hubs (offs : List Nat) : Scope := ⟨hubOnly offs, False⟩

/-- The bits of a bay hub that fence a core, beside the ones that contain it: FENCE_LAST, PACE_STATUS.GUARD and HDR_STATUS. -/
def isolateOffs : List Nat := [0x50C, 0x604, 0x618]

/-- The first act of an isolation: RUN cleared, and the core's bit of FENCE_LO or FENCE_HI set (R435, orders 1 and 2). -/
def State.markFenced (s : State) (p : Nat) : State :=
  let t := s.setFld (coreReg p 0 0) 0 0 0
  if coreIdx p < 32 then t.setFld (hubReg (coreBay p) 0x504) (coreIdx p) (coreIdx p) 1
  else t.setFld (hubReg (coreBay p) 0x508) (coreIdx p - 32) (coreIdx p - 32) 1

namespace Within

variable {W : Scope} {s t : State}

theorem setBar (h : Within W s t) (hub ctr : Nat) (b : BarSt) : Within W s (t.setBar hub ctr b) :=
  ite (fun _ => h.other rfl rfl rfl rfl) fun _ => h.other rfl rfl rfl rfl

theorem barCheck (h : Within W s t) (hub ctr : Nat) : Within W s (t.barCheck hub ctr) :=
  ite (fun _ => h) fun _ => ite (fun _ => h.setBar _ _ _) fun _ => (h.setBar _ _ _).other rfl rfl rfl rfl

theorem roleParts (h : Within W s t) (p n : Nat) (add : Bool) : Within W s (t.roleParts p n add) := h.forAll fun _ _ _ => refl.setBar _ _ _

theorem dropFromBars (h : Within W s t) (p : Nat) : Within W s (t.dropFromBars p) :=
  (h.forAll fun _ _ _ => refl.roleParts _ _ _).forAll fun _ _ _ => (refl.setBar _ _ _).barCheck _ _

theorem writeEscapes (h : Within W s t) : Within W s t.writeEscapes := h.other rfl rfl rfl rfl

theorem checkPaths (h : Within W s t) : Within W s t.checkPaths := by
  unfold State.checkPaths
  extract_lets u ok units short sb v
  have k : Within W s u := h.other rfl rfl rfl rfl
  clear_value u
  split
  · exact k
  · split
    · exact k
    · exact (k.raise 0x0608 []).other rfl rfl rfl rfl

theorem mpRewrite (h : Within W s t) : Within W s t.mpRewrite := ite (fun _ => h.writeEscapes.checkPaths) fun _ => h.other rfl rfl rfl rfl

theorem fenceOutputs (h : Within (hubs offs) s t) (p : Nat) : Within (hubs offs) s (t.fenceOutputs p) :=
  h.forAll fun q _ _ => refl.setFld (hubOnly_coreReg _ q (by decide) (by decide)) _ _ _

theorem showHdr (h : Within (hubs offs) s t) (b : Nat) (ho : 0x618 ∈ offs) : Within (hubs offs) s (t.showHdr b) := by
  unfold State.showHdr
  simp only
  split
  · exact h.setFld (hubOnly_hubReg b (by decide) ho) _ _ _
  · exact h.setFld (hubOnly_hubReg b (by decide) ho) _ _ _

theorem showGuard (h : Within (hubs offs) s t) (b : Nat) (ho : 0x604 ∈ offs) : Within (hubs offs) s (t.showGuard b) :=
  h.setFld (hubOnly_hubReg b (by decide) ho) _ _ _

theorem countDoubles (h : Within (hubs offs) s t) (b : Nat) (ho : 0x50C ∈ offs) : Within (hubs offs) s (t.countDoubles b) :=
  (h.onBay b _).setFld (hubOnly_hubReg b (by decide) ho) _ _ _

theorem showDouble (h : Within (hubs offs) s t) (k : Nat) : Within (hubs offs) s (t.showDouble k) :=
  h.setFld (hubOnly_landReg _ _ _) _ _ _

end Within

/-- A core marked as fenced, its cause noted: what an isolation starts from. -/
def State.noteCause (s : State) (p cause : Nat) : State :=
  let t := ((s.markFenced p).setFld (coreReg p 8 0) 0 0 1).setFld (hubReg (coreBay p) 0x50C) 10 0 (coreIdx p + 64 * cause + 1024)
  { t with rep := { t.rep with fence := SMap.set 0 t.rep.fence p cause } }

namespace Within

/-- What an isolation does once the core is marked as fenced and its cause noted. -/
theorem isolate_noteCause (s : State) (p cause : Nat) : Within (hubs isolateOffs) (s.noteCause p cause) (s.isolate p cause) := by
  have start : ∀ u : State, Within (hubs isolateOffs) u (if 5 ≤ u.phase then { u with startFenced := insNat u.startFenced p } else u) :=
    fun u => ite (fun _ => refl.setStartFenced _) fun _ => refl
  have doubles : ∀ u : State, Within (hubs isolateOffs) u
      (if (u.core p).stored.isSome then (u.countDoubles (coreBay p)).showDouble (coreHalf p) else u) :=
    fun u => ite (fun _ => (refl.countDoubles _ (by decide)).showDouble _) fun _ => refl
  unfold State.isolate
  refine .risk (.dropFromBars (.trans ?_ (doubles _)) p) 5 1
  refine .setRtr (.forAll (.trans ?_ (start _)) fun _ _ _ => refl.onBay _ _) _ _
  exact .showGuard (.showHdr (.onBay refl _ _) _ (by decide)) _ (by decide)

end Within

end Sys2Proof.Machine
end

section
/-! The fence of a core, the loss of a bay and a stack channel mapped out, by what they write and what they leave alone (R402, R431, R435, R442,
Table 15.2). -/

namespace Sys2Proof.Machine

/-! ## Bits of registers -/

theorem bit_eq_testBit (n i : Nat) : bit n i = n.testBit i := by
  simp only [bit, Nat.testBit_eq_decide_div_mod_eq, Nat.shiftRight_eq_div_pow]
  rfl

/-- The bits of a register after a field of it is written. -/
theorem bit_setField (r : W32) {hi : Nat} (lo v i : Nat) (h : hi < 32) :
    bit (setField r hi lo v).toNat i = if lo ≤ i ∧ i ≤ hi then v.testBit (i - lo) else bit r.toNat i := by
  rw [bit_eq_testBit, bit_eq_testBit, testBit_setField r hi lo v i h]

theorem bit_setField_one (r : W32) {i : Nat} (v : Nat) (h : i < 32) : bit (setField r i i v).toNat i = v.testBit 0 := by
  rw [bit_setField r i v i h, if_pos ⟨Nat.le_refl i, Nat.le_refl i⟩, Nat.sub_self]

/-! ## The fence of a core (R435, Table 17.4) -/

theorem fenced_markFenced (s : State) (p : Nat) : (s.markFenced p).fenced p = true := by
  have hp := coreIdx_lt p
  unfold State.markFenced State.fenced
  dsimp only
  split
  · next h => rw [State.reg_setFld, if_pos rfl, bit_setField_one _ _ h]; rfl
  · next h => rw [State.reg_setFld, if_pos rfl, bit_setField_one _ _ (by omega)]; rfl

/-- Writes that leave FENCE_LO and FENCE_HI alone leave the fence of a core. -/
theorem Within.fenced {W : Scope} {s t : State} (h : Within W s t) {p : Nat} (hlo : ¬ W.regs (hubReg (coreBay p) 0x504))
    (hhi : ¬ W.regs (hubReg (coreBay p) 0x508)) : t.fenced p = s.fenced p := by
  simp only [State.fenced, h.reg _ hlo, h.reg _ hhi]

/-- The registers and fences that an isolation may change. -/
def fencing : Scope := ⟨hubOnly (0x504 :: 0x508 :: isolateOffs), True⟩

namespace Within

variable {s t : State}

theorem markFenced_fencing (s : State) (p : Nat) : Within fencing s (s.markFenced p) :=
  have k : Within fencing s (s.setFld (coreReg p 0 0) 0 0 0) := refl.setFld (hubOnly_coreReg _ p (by decide) (by decide)) _ _ _
  ite (fun _ => k.setFld (hubOnly_hubReg _ (by decide) (by decide)) _ _ _) fun _ => k.setFld (hubOnly_hubReg _ (by decide) (by decide)) _ _ _

/-- The causes of fences change. -/
theorem setFence {W : Scope} (h : Within W s t) (hW : W.fences) (m : SMap Nat) : Within W s { t with rep := { t.rep with fence := m } } :=
  h.trans ⟨fun _ _ => rfl, fun h0 => absurd hW h0, fun _ => rfl, fun _ h0 => h0⟩

/-- What noting the cause of a fence writes beside the cause. -/
theorem noteCause_regs (s : State) (p cause : Nat) : Within ⟨hubOnly isolateOffs, True⟩ (s.markFenced p) (s.noteCause p cause) := by
  unfold State.noteCause
  refine .setFence (.setFld (.setFld .refl ?_ _ _ _) ?_ _ _ _) trivial _
  · exact hubOnly_coreReg _ p (by decide) (by decide)
  · exact hubOnly_hubReg _ (by decide) (by decide)

theorem isolate_fencing (s : State) (p cause : Nat) : Within fencing s (s.isolate p cause) :=
  ((markFenced_fencing s p).trans ((noteCause_regs s p cause).mono (hubOnly_subset (by decide)) id)).trans
    ((isolate_noteCause s p cause).mono (hubOnly_subset (by decide)) False.elim)

end Within

theorem fenced_isolate (s : State) {p : Nat} (hp : p < 2880) (cause : Nat) : (s.isolate p cause).fenced p = true := by
  have hb := coreBay_lt hp
  rw [(Within.isolate_noteCause s p cause).fenced (not_hubOnly hb (by decide) (by decide)) (not_hubOnly hb (by decide) (by decide)),
    (Within.noteCause_regs s p cause).fenced (not_hubOnly hb (by decide) (by decide)) (not_hubOnly hb (by decide) (by decide))]
  exact fenced_markFenced s p

theorem cause_isolate (s : State) (p cause : Nat) : SMap.get 0 (s.isolate p cause).rep.fence p = cause := by
  rw [(Within.isolate_noteCause s p cause).fence id]
  unfold State.noteCause
  rw [SMap.get_set_same]

/-- After its isolation the fence of a core changes neither fences nor causes (Table 17.4, orders 4 to 8). -/
theorem Within.fenceCore_isolate {s : State} {p cause : Nat} (hf : s.fenced p = false) (hc : cause ≠ 5) :
    Within containing (s.isolate p cause) (s.fenceCore p cause) := by
  unfold State.fenceCore
  rw [if_neg (by simp [hf])]
  have held (u : State) : Within containing u (if u.jobOn then (u.contain.want 2).onJob (fun j => { j with fencedSince := true }) else u) :=
    ite (fun _ => (refl.contain.want 2).onJob _) fun _ => refl
  refine .endOfService (.trans (.raise (.sendAlarm (.setSn ?_ _) _ _ _) _ _) (held _))
  exact ite (fun h => absurd h hc) fun _ => ite (fun h => absurd h hc) fun _ => refl

theorem fenceCore_spec {s : State} {p cause : Nat} (hp : p < 2880) (hf : s.fenced p = false) (hc : cause ≠ 5) :
    (s.fenceCore p cause).fenced p = true ∧ SMap.get 0 (s.fenceCore p cause).rep.fence p = cause ∧
      ∀ b, ((s.fenceCore p cause).board b).mbx = (s.board b).mbx := by
  have k := Within.fenceCore_isolate hf hc
  have hb := coreBay_lt hp
  refine ⟨?_, ?_, fun b => (k.mbx b).trans ((Within.isolate_fencing s p cause).mbx b)⟩
  · rw [k.fenced (not_containReg_hubReg hb (by decide)) (not_containReg_hubReg hb (by decide)), fenced_isolate s hp]
  · rw [k.fence id, cause_isolate]

/-! ## The loss of a bay, and a channel mapped out (R402 to R404, R442, Table 15.2) -/

/-- What the loss of a bay and the end of a mapping out may change. -/
def losing : Scope := ⟨hubOnly (0x400 :: 0x408 :: 0x504 :: 0x508 :: isolateOffs), True⟩

namespace Within

variable {s t : State}

theorem losing_of_containing (h : Within containing s t) : Within losing s t := h.mono (fun _ => hubOnly_containReg _) False.elim

theorem losing_of_hubs {offs : List Nat} (h : Within (hubs offs) s t) (ho : offs ⊆ 0x400 :: 0x408 :: 0x504 :: 0x508 :: isolateOffs) : Within losing s t :=
  h.mono (hubOnly_subset ho) False.elim

/-- Bytes of a stack are erased, beside an update of other fields. -/
theorem erase {W : Scope} {u : State} {a n : Nat} (h : Within W s t) (hs : u.stack = Mem.zero t.stack a n) (hr : u.regs = t.regs)
    (hb : u.boards = t.boards) (hf : u.rep.fence = t.rep.fence) : Within W s u :=
  have k : Within W s { t with stack := Mem.zero t.stack a n } :=
    h.trans ⟨fun _ _ => rfl, fun _ => rfl, fun _ => rfl, fun _ h0 => Mem.byte_zero_of_zero a n h0⟩
  k.other hr hb hs hf

theorem openDisconnect {W : Scope} (h : Within W s t) (b : Nat) : Within W s (t.openDisconnect b) := h.erase rfl rfl rfl rfl

/-- The loss of a bay writes no list of healthy channels (Table 17.5). -/
theorem bayLoss (h : Within losing s t) (b : Nat) : Within losing s (bayLoss b t) := by
  refine h.trans ?_
  have isolates (u : State) (p : Nat) : Within losing u (if u.fenced p then u else u.isolate p 9) :=
    ite (fun _ => refl) fun _ => (isolate_fencing u p 9).mono (hubOnly_subset (by decide)) id
  have mp (c : Bool) (u : State) (names : List (Nat × Nat)) : Within losing u (if c then u.mpPlace true names else u) :=
    ite (fun _ => losing_of_containing (refl.mpPlace _ _)) fun _ => refl
  have held (c : Bool) (u : State) : Within losing u (if c then u.contain.onJob (fun j => { j with fencedSince := true }) else u) :=
    ite (fun _ => .onJob (losing_of_containing refl.contain) _) fun _ => refl
  unfold Machine.bayLoss
  refine ite (fun _ => refl) fun _ => .trans ?_ (losing_of_containing refl.endOfService)
  refine .trans ?_ (mp _ _ _)
  refine .mpRewrite (.setFld (.trans ?_ (held _ _)) (hubOnly_hubReg b (by decide) (by decide)) _ _ _)
  refine .forAll (.setSn (.forAll (.forAll (.onBay ?_ _ _) fun p _ u => isolates u p)
    fun p _ u => losing_of_hubs (offs := []) (refl.fenceOutputs p) (by decide)) _) fun _ _ _ => refl.onBay _ _
  exact ite (fun _ => refl) fun _ => refl.openDisconnect b

theorem losePlanks {W : Scope} (h : Within W s t) (b : Nat) : Within W s (t.losePlanks b) := h.other rfl rfl rfl rfl

theorem bwCount {W : Scope} (h : Within W s t) (a k : Nat) (sel : Option Nat) (n : Nat) : Within W s (t.bwCount a k sel n) :=
  ite (fun _ => h.other rfl rfl rfl rfl) fun _ => h

end Within

/-- A channel mapped out of a bay that runs: its bit of the healthy list is cleared, the bay's range is erased, and what follows restores neither
(Table 15.2, orders 4 and 5). -/
theorem mapOut_steps {s : State} {b ch : Nat} (hbit : bit (s.reg (hubReg b 0x404)).toNat ch = true) (hu : s.bayUp b = true) :
    ∃ z, z.stack = Mem.zero s.stack (b * 2 ^ 36) (2 ^ 36) ∧ Within losing (s.setFld (hubReg b 0x404) ch ch 0) z ∧ Within losing z (s.mapOut b ch) := by
  have lost (c : Nat) (u : State) : Within losing u (if c = 0 then bayLoss b u else u) :=
    .ite (fun _ => .bayLoss .refl b) fun _ => .refl
  have erased (u : State) (led : SMap Nat) (out : SMap Nat) (soft : SMap (List (Nat × Nat))) :
      Within losing u { u with
        stack := Mem.zero u.stack (b * 2 ^ 36) (2 ^ 36), ledEsc := led, rep := { u.rep with chOut := out, softRows := soft } } :=
    .setRep (.erase (u := { u with stack := Mem.zero u.stack (b * 2 ^ 36) (2 ^ 36), ledEsc := led }) .refl rfl rfl rfl rfl)
      { u.rep with chOut := out, softRows := soft } rfl
  have counted (u : State) : (forAll (u.healthy b) (fun k s => s.bwCount (mkAddr b 48 5 0xC0) 1 (some k) (2 ^ 31)) (u.losePlanks b)).stack = u.stack :=
    State.forAll_keeps State.stack _ _ _ fun _ _ => by unfold State.bwCount; dsimp only; split <;> rfl
  unfold State.mapOut
  rw [if_neg (by simp [hbit, hu])]
  refine ⟨_, ?_, ?_, .trans (.onBay .refl _ _) (.trans (lost _ _) (.losing_of_containing (.endOfService .refl)))⟩
  · dsimp only
    rw [counted, State.stack_setFld, State.stack_setFld, State.stack_setFld, State.stack_setFld]
  · generalize hX : forAll _ _ _ = X
    refine .trans ?_ (erased X _ _ _)
    rw [← hX]
    refine .forAll (.losePlanks (.setFld (.setFld (.setFld .refl ?_ _ _ _) ?_ _ _ _) ?_ _ _ _) _) fun _ _ _ => .bwCount .refl _ _ _ _
    all_goals exact hubOnly_hubReg b (by decide) (by decide)

/-- A channel mapped out of a bay that runs leaves the list of healthy channels, the bay's range is erased, and no mailbox changes. -/
theorem mapOut_spec {s : State} {b ch : Nat} (hb : b < 60) (hc : ch < 32) (hbit : bit (s.reg (hubReg b 0x404)).toNat ch = true) (hu : s.bayUp b = true) :
    bit ((s.mapOut b ch).reg (hubReg b 0x404)).toNat ch = false ∧ (∀ x, x / 2 ^ 36 = b → Mem.byte (s.mapOut b ch).stack x = 0) ∧
      ∀ i, ((s.mapOut b ch).board i).mbx = (s.board i).mbx := by
  obtain ⟨z, hz, hbefore, hafter⟩ := mapOut_steps hbit hu
  have hout : ¬ losing.regs (hubReg b 0x404) := not_hubOnly hb (by decide) (by decide)
  refine ⟨?_, fun x hx => hafter.stack x ?_, fun i => ?_⟩
  · rw [hafter.reg _ hout, hbefore.reg _ hout, State.reg_setFld, if_pos rfl, bit_setField_one _ _ hc]
    rfl
  · rw [hz]
    exact Mem.byte_zero_inside _ (by omega)
  · rw [hafter.mbx, hbefore.mbx, State.board_setFld]

end Sys2Proof.Machine
end

section
/-! The commands on cores, bays, stacks, landings and power (Table 19.8). -/

namespace Sys2Proof.Machine

/-! ## Fields written by the active MP -/

section

variable (s : State)

@[simp] theorem board_fldBy (m a hi lo v j : Nat) : (s.fldBy m a hi lo v).board j = s.board j := (rfl)
@[simp] theorem cores_fldBy (m a hi lo v : Nat) : (s.fldBy m a hi lo v).cores = s.cores := (rfl)
theorem reg_fldBy (m a hi lo v j : Nat) : (s.fldBy m a hi lo v).reg j = (s.setFld a hi lo v).reg j := (rfl)

theorem reg_fldBy_ne (m : Nat) {a j : Nat} (hi lo v : Nat) (h : j ≠ a) : (s.fldBy m a hi lo v).reg j = s.reg j := by
  rw [reg_fldBy, State.reg_setFld_ne s hi lo v h]

/-- A value that fits a field is what the field then holds. -/
theorem fld_setFld (a : Nat) {hi lo v : Nat} (h : hi < 32) (hl : lo ≤ hi) (hv : v < 2 ^ (hi + 1 - lo)) : (s.setFld a hi lo v).fld a hi lo = v := by
  rw [State.fld, State.reg_setFld, if_pos rfl, field_setField _ _ _ _ h hl, Nat.mod_eq_of_lt hv]

theorem fld_fldBy (m a : Nat) {hi lo v : Nat} (h : hi < 32) (hl : lo ≤ hi) (hv : v < 2 ^ (hi + 1 - lo)) : (s.fldBy m a hi lo v).fld a hi lo = v :=
  fld_setFld s a h hl hv

theorem arg_lt (b k o n : Nat) : s.arg b k o n < 256 ^ n := Mem.readNat_lt _ _ _

end

/-! ## Cores and bays -/

theorem coreArg_lt {v : Nat} (hv : v < 3840) (hc : v % 64 < 48) : coreArg v < 2880 := by
  simp only [coreArg]
  omega

theorem coreBay_coreArg {v : Nat} (hc : v % 64 < 48) : coreBay (coreArg v) = v / 64 := by
  simp only [coreBay, coreArg]
  omega

section

variable {s : State} {b k : Nat}

/-- CORE_FENCE of a core that is not fenced, in a bay that is neither dark nor lost. -/
theorem completes_coreFence (h : s.serves b k 0x201 = true) (hv : s.arg b k 0x10 2 < 3840) (hc : s.arg b k 0x10 2 % 64 < 48)
    (hd : (s.bay (s.arg b k 0x10 2 / 64)).dark = false) (hl : (s.bay (s.arg b k 0x10 2 / 64)).lossDue = false)
    (hf : s.fenced (coreArg (s.arg b k 0x10 2)) = false) :
    Completes (.coreFence b k) s (fun t => t.fenced (coreArg (s.arg b k 0x10 2)) = true ∧
      SMap.get 0 t.rep.fence (coreArg (s.arg b k 0x10 2)) = 8 ∧ Finished b k 0 [] t) := by
  obtain ⟨hfenced, hcause, hmbx⟩ := fenceCore_spec (s := s) (cause := 8) (coreArg_lt hv hc) hf (by decide)
  refine completes_done (t := s.fenceCore (coreArg (s.arg b k 0x10 2)) 8) rfl h ?_ (hmbx b)
    fun hfin => ⟨by rw [fenced_finish, hfenced], by rw [rep_finish, hcause], hfin⟩
  unfold coreFence
  dsimp only
  rw [if_neg (by omega), coreBay_coreArg hc, hd, hl, hf, if_neg (by simp [State.coreBusy, hf]), if_neg (by decide), if_neg (by decide)]

theorem coreFence_waits (hv : s.arg b k 0x10 2 < 3840) (hc : s.arg b k 0x10 2 % 64 < 48) (hb : s.coreBusy (coreArg (s.arg b k 0x10 2)) = true) :
    coreFence b k s = (s, none) := by
  unfold coreFence
  dsimp only
  rw [if_neg (by omega), if_pos (.inl hb)]

theorem baySpares_waits (hy : s.arg b k 0x10 1 < 60) (hv : s.arg b k 0x11 1 ≤ 16) (hb : s.bayBusy (s.arg b k 0x10 1) = true) :
    baySpares b k s = (s, none) := by
  unfold baySpares
  dsimp only
  rw [if_neg (by omega), if_pos hb]

theorem stackMapout_waits (hy : s.arg b k 0x10 1 < 60) (hv : s.arg b k 0x11 1 < 32) (hb : s.stackBusy (s.arg b k 0x10 1) = true) :
    stackMapout b k s = (s, none) := by
  unfold stackMapout
  dsimp only
  rw [if_neg (by omega), if_pos hb]

theorem powerCeiling_waits (hy : s.arg b k 0x10 1 < 60) (hv : s.arg b k 0x11 1 ≤ 3) (hb : s.bayBusy (s.arg b k 0x10 1) = true) :
    powerCeiling b k s = (s, none) := by
  unfold powerCeiling
  dsimp only
  rw [if_neg (by omega), if_pos hb]

theorem completes_baySpares (h : s.serves b k 0x301 = true) (hy : s.arg b k 0x10 1 < 60) (hv : s.arg b k 0x11 1 ≤ 16)
    (hb : s.bayBusy (s.arg b k 0x10 1) = false) :
    Completes (.baySpares b k) s (fun t => t.fld (hubReg (s.arg b k 0x10 1) 0x500) 29 25 = s.arg b k 0x11 1 ∧
      (∀ r, r ≠ hubReg (s.arg b k 0x10 1) 0x500 → t.reg r = s.reg r) ∧ Finished b k 0 [] t) := by
  refine completes_done (t := s.fldBy (8 + k) (hubReg (s.arg b k 0x10 1) 0x500) 29 25 (s.arg b k 0x11 1)) rfl h ?_ (by rw [board_fldBy])
    fun hfin => ⟨?_, fun r hr => ?_, hfin⟩
  · unfold baySpares
    dsimp only
    rw [if_neg (by omega), hb, if_neg (by decide)]
  · rw [fld_finish, fld_fldBy _ _ _ (by decide) (by decide) (by omega)]
  · rw [reg_finish, reg_fldBy_ne _ _ _ _ _ hr]

theorem completes_stackMapout (h : s.serves b k 0x401 = true) (hy : s.arg b k 0x10 1 < 60) (hv : s.arg b k 0x11 1 < 32)
    (hu : s.bayUp (s.arg b k 0x10 1) = true) (hbit : bit (s.reg (hubReg (s.arg b k 0x10 1) 0x404)).toNat (s.arg b k 0x11 1) = true)
    (hb : s.stackBusy (s.arg b k 0x10 1) = false) (hj : s.job.st < 2) :
    Completes (.stackMapout b k) s (fun t => bit (t.reg (hubReg (s.arg b k 0x10 1) 0x404)).toNat (s.arg b k 0x11 1) = false ∧
      (∀ x, x / 2 ^ 36 = s.arg b k 0x10 1 → Mem.byte t.stack x = 0) ∧ Finished b k 0 [] t) := by
  obtain ⟨hclear, hzero, hmbx⟩ := mapOut_spec hy hv hbit hu
  refine completes_done (t := s.mapOut (s.arg b k 0x10 1) (s.arg b k 0x11 1)) rfl h ?_ (hmbx b)
    fun hfin => ⟨by rw [reg_finish, hclear], by rwa [stack_finish], hfin⟩
  unfold stackMapout
  dsimp only
  rw [if_neg (by omega), hb, hu, hbit, if_neg (by decide), if_neg (by decide), if_neg (by decide), if_neg (by simp [State.jobOn]; omega)]

end

end Sys2Proof.Machine
end

section
/-! The commands on landings (R367, R388, R391). -/

namespace Sys2Proof.Machine

/-! ## The lane groups of a landing -/

/-- The lane groups named by a mask leave service, one after another. -/
def State.dropGroups (s : State) (l m : Nat) : State := forAll ((List.range 16).filter (bit m)) (fun g s => s.setFld (landReg l 4) g g 0) s

theorem bit_dropped (a : Nat) {xs : List Nat} (hx : ∀ g ∈ xs, g < 32) (s : State) (i : Nat) :
    bit ((forAll xs (fun g s => s.setFld a g g 0) s).reg a).toNat i = (bit (s.reg a).toNat i && !xs.contains i) := by
  induction xs generalizing s with
  | nil => simp [forAll]
  | cons g xs ih =>
    have hg : bit ((s.setFld a g g 0).reg a).toNat i = (bit (s.reg a).toNat i && !(i == g)) := by
      rw [State.reg_setFld, if_pos rfl, bit_setField _ _ _ _ (hx g List.mem_cons_self)]
      by_cases e : i = g
      · simp [e]
      · rw [if_neg (by omega)]
        simp [e]
    have htail := ih (fun j hj => hx j (List.mem_cons_of_mem _ hj)) (s.setFld a g g 0)
    simp only [forAll, List.foldl_cons] at htail ⊢
    rw [htail, hg, List.contains_cons, Bool.not_or, Bool.and_assoc]

theorem bit_dropGroups (s : State) (l m i : Nat) :
    bit ((s.dropGroups l m).reg (landReg l 4)).toNat i = (bit (s.reg (landReg l 4)).toNat i && !(decide (i < 16) && bit m i)) := by
  have hlt : ∀ g ∈ (List.range 16).filter (bit m), g < 32 := fun g hg => by
    have := List.mem_range.1 (List.mem_filter.1 hg).1
    omega
  rw [State.dropGroups, bit_dropped _ hlt]
  congr 2
  rw [Bool.eq_iff_iff]
  simp

/-- The groups that work are read from LINK_STATUS alone. -/
theorem groupsUp_congr {s t : State} {l : Nat} (h : ∀ g, g < 16 → bit (t.reg (landReg l 4)).toNat g = bit (s.reg (landReg l 4)).toNat g) :
    t.groupsUp l = s.groupsUp l := by
  rw [State.groupsUp, State.groupsUp, List.filter_congr fun g hg => h g (List.mem_range.1 hg)]

theorem mbx_dropGroups (s : State) (l m b : Nat) : ((s.dropGroups l m).board b).mbx = (s.board b).mbx :=
  State.forAll_keeps (fun u => (u.board b).mbx) _ _ _ fun _ _ => by rw [State.board_setFld]

/-- With no job that waits, a landing that comes back starts nothing. -/
theorem landingBack_idle {s : State} (h : s.job.st ≠ 5) : s.landingBack = s := by
  unfold State.landingBack
  split
  · rfl
  · rw [if_pos h]

/-! ## The commands -/

section

variable {s : State} {b k : Nat}

theorem completes_landingAccept (h : s.serves b k 0x501 = true) (hl : s.arg b k 0x10 1 < 8) (hh : (s.land (s.arg b k 0x10 1)).halted = true) :
    Completes (.landingAccept b k) s (fun t => (t.land (s.arg b k 0x10 1)).halted = false ∧
      bit (t.reg (landReg (s.arg b k 0x10 1) 4)).toNat 20 = false ∧ Finished b k 0 [] t) := by
  refine completes_done (t := (s.setFld (landReg (s.arg b k 0x10 1) 4) 20 20 0).onLand (s.arg b k 0x10 1) (fun x => { x with halted := false })) rfl h ?_
    (by rw [State.board_onLand, State.board_setFld]) fun hfin => ⟨?_, ?_, hfin⟩
  · unfold landingAccept
    dsimp only
    rw [if_neg (by omega), hh, if_neg (by decide)]
  · rw [land_finish, State.land_onLand_same]
  · rw [reg_finish, State.reg_onLand, State.reg_setFld, if_pos rfl, bit_setField_one _ _ (by decide)]
    rfl

theorem completes_landingRetake (h : s.serves b k 0x502 = true) (hl : s.arg b k 0x10 1 < 8)
    (hbit : bit (s.reg (landReg (s.arg b k 0x10 1) 4)).toNat 17 = true) (hj : s.job.st = 0) :
    Completes (.landingRetake b k) s (fun t => bit (t.reg (landReg (s.arg b k 0x10 1) 4)).toNat 17 = false ∧
      (t.land (s.arg b k 0x10 1)).txSeq = 0 ∧ (t.land (s.arg b k 0x10 1)).rxExpect = 0 ∧ (t.land (s.arg b k 0x10 1)).credit = [] ∧ Finished b k 0 [] t) := by
  have idle (f : Landing → Landing) (l : Nat) (u : State) (hu : u.job = s.job) : (u.onLand l f).landingBack = u.onLand l f :=
    landingBack_idle (by rw [State.job_onLand, hu, hj]; decide)
  refine completes_done (t := s.retake (s.arg b k 0x10 1)) rfl h ?_ ?_ fun hfin => ⟨?_, ?_, ?_, ?_, hfin⟩
  · unfold landingRetake
    dsimp only
    rw [if_neg (by omega), hbit, if_neg (by decide), if_pos (by simp [State.noAttempt, hj])]
  all_goals
    unfold State.retake
    dsimp only
    rw [idle _ _ _ (State.job_setFld ..)]
  · rw [State.board_onLand, State.board_setFld]
  · rw [reg_finish, State.reg_onLand, State.reg_setFld, if_pos rfl, bit_setField_one _ _ (by decide)]
    rfl
  all_goals rw [land_finish, State.land_onLand_same, Landing.freshCredit]

theorem completes_landingHold (h : s.serves b k 0x503 = true) (hl : s.arg b k 0x10 1 < 8) :
    Completes (.landingHold b k) s (fun t =>
      (t.reg (landReg (s.arg b k 0x10 1) 8)).toNat = (s.reg (landReg (s.arg b k 0x10 1) 8)).toNat ||| s.arg b k 0x14 4 ∧
      (t.land (s.arg b k 0x10 1)).hostHold = (s.land (s.arg b k 0x10 1)).hostHold ||| BitVec.ofNat 32 (s.arg b k 0x14 4) ∧ Finished b k 0 [] t) := by
  have hlt : (s.reg (landReg (s.arg b k 0x10 1) 8)).toNat ||| s.arg b k 0x14 4 < 2 ^ 32 := Nat.or_lt_two_pow (BitVec.isLt _) (arg_lt s b k 0x14 4)
  refine completes_done (t := (s.onLand (s.arg b k 0x10 1) (fun x => { x with hostHold := x.hostHold ||| BitVec.ofNat 32 (s.arg b k 0x14 4) })).sendHold
    (s.arg b k 0x10 1) ((s.reg (landReg (s.arg b k 0x10 1) 8)).toNat ||| s.arg b k 0x14 4) 3 0) rfl h ?_ ?_ fun hfin => ⟨?_, ?_, hfin⟩
  · unfold landingHold
    dsimp only
    rw [if_neg (by omega), State.reg_onLand]
  · rw [State.sendHold, State.pushFrame, State.board_setReg, State.board_onLand, State.board_onLand]
  · rw [reg_finish, State.sendHold, State.reg_setReg_same, BitVec.toNat_ofNat, Nat.mod_eq_of_lt hlt]
  · rw [land_finish, State.sendHold, State.pushFrame, State.land_setReg, State.land_onLand_same, State.land_onLand_same]

theorem completes_landingRelease (h : s.serves b k 0x504 = true) (hl : s.arg b k 0x10 1 < 8)
    (hm : (s.land (s.arg b k 0x10 1)).hostHold &&& BitVec.ofNat 32 (s.arg b k 0x14 4) ≠ 0) (hj : s.job.st < 3) :
    Completes (.landingRelease b k) s (fun t =>
      (t.land (s.arg b k 0x10 1)).hostHold = (s.land (s.arg b k 0x10 1)).hostHold &&& ~~~(BitVec.ofNat 32 (s.arg b k 0x14 4)) ∧
      t.reg (landReg (s.arg b k 0x10 1) 8) = (s.reg (landReg (s.arg b k 0x10 1) 8) &&& ~~~(BitVec.ofNat 32 (s.arg b k 0x14 4))) |||
        (t.land (s.arg b k 0x10 1)).hostHold ∧ Finished b k 0 [] t) := by
  generalize hl' : s.arg b k 0x10 1 = l at *
  generalize hm' : (BitVec.ofNat 32 (s.arg b k 0x14 4) : W32) = m at *
  have hold (v : Nat) : (((s.onLand l (fun x => { x with hostHold := x.hostHold &&& ~~~m })).sendHold l v 3 0).land l).hostHold =
      (s.land l).hostHold &&& ~~~m := by
    rw [State.sendHold, State.pushFrame, State.land_setReg, State.land_onLand_same, State.land_onLand_same]
  refine completes_done (t := (s.onLand l (fun x => { x with hostHold := x.hostHold &&& ~~~m })).sendHold l
    ((s.reg (landReg l 8) &&& ~~~m) ||| ((s.land l).hostHold &&& ~~~m)).toNat 3 0) rfl h ?_ ?_ fun hfin => ⟨?_, ?_, hfin⟩
  · unfold landingRelease
    dsimp only
    rw [hl', hm', if_neg (by omega), if_neg hm, State.reg_onLand, State.land_onLand_same, State.job_onLand, if_neg (by omega)]
    simp
  · rw [State.sendHold, State.pushFrame, State.board_setReg, State.board_onLand, State.board_onLand]
  · rw [land_finish, hold]
  · rw [reg_finish, land_finish, hold, State.sendHold, State.reg_setReg_same, BitVec.ofNat_toNat, BitVec.setWidth_eq]

/-- What LANDING_RETRAIN leaves: the groups out of service, and the link untrained when fewer than four are left. -/
theorem landingRetrain_spec (hl : s.arg b k 0x10 1 < 8) : ∃ t : State, landingRetrain b k s = t.done 0 ∧ (t.board b).mbx = (s.board b).mbx ∧
    ∀ i, i < 17 → bit (t.reg (landReg (s.arg b k 0x10 1) 4)).toNat i =
      (bit ((s.dropGroups (s.arg b k 0x10 1) (s.arg b k 0x12 2)).reg (landReg (s.arg b k 0x10 1) 4)).toNat i &&
        (i != 16 || decide (4 ≤ (s.dropGroups (s.arg b k 0x10 1) (s.arg b k 0x12 2)).groupsUp (s.arg b k 0x10 1)))) := by
  have hmbx := mbx_dropGroups s (s.arg b k 0x10 1) (s.arg b k 0x12 2) b
  unfold landingRetrain
  dsimp only
  rw [if_neg (by omega), ← State.dropGroups]
  generalize s.arg b k 0x10 1 = l at *
  generalize s.dropGroups l (s.arg b k 0x12 2) = u at *
  split
  · next h =>
    obtain ⟨hfew, htrained⟩ := h
    have stops : Within containing (u.setFld (landReg l 4) 16 16 0) (if s.landWorks l then (u.setFld (landReg l 4) 16 16 0).landingStopped l
        else (u.setFld (landReg l 4) 16 16 0).endOfService) := .ite (fun _ => .landingStopped .refl l) fun _ => .endOfService .refl
    refine ⟨_, rfl, ?_, fun i hi => ?_⟩
    · rw [stops.mbx, State.board_setFld, hmbx]
    · rw [stops.reg _ (not_containReg_landStatus hl), State.reg_setFld, if_pos rfl, bit_setField _ _ _ _ (by decide)]
      by_cases e : i = 16
      · rw [e, if_pos (by decide), decide_eq_false (by omega)]
        simp
      · rw [if_neg (by omega)]
        simp [e]
  · next h =>
    refine ⟨u, rfl, hmbx, fun i hi => ?_⟩
    by_cases e : i = 16
    · subst e
      by_cases hup : 4 ≤ u.groupsUp l
      · simp [hup]
      · have : bit (u.reg (landReg l 4)).toNat 16 = false := by
          have := fun hb => h ⟨by omega, hb⟩
          simpa using this
        simp [this]
    · simp [e]

theorem completes_landingRetrain (h : s.serves b k 0x505 = true) (hl : s.arg b k 0x10 1 < 8) :
    Completes (.landingRetrain b k) s (fun t =>
      (∀ g, g < 16 → bit (t.reg (landReg (s.arg b k 0x10 1) 4)).toNat g =
        (bit (s.reg (landReg (s.arg b k 0x10 1) 4)).toNat g && !bit (s.arg b k 0x12 2) g)) ∧
      bit (t.reg (landReg (s.arg b k 0x10 1) 4)).toNat 16 =
        (bit (s.reg (landReg (s.arg b k 0x10 1) 4)).toNat 16 && decide (4 ≤ t.groupsUp (s.arg b k 0x10 1))) ∧ Finished b k 0 [] t) := by
  obtain ⟨t, ht, hmbx, hbits⟩ := landingRetrain_spec (s := s) (b := b) (k := k) hl
  have hgroup : ∀ g, g < 16 → bit (t.reg (landReg (s.arg b k 0x10 1) 4)).toNat g =
      bit ((s.dropGroups (s.arg b k 0x10 1) (s.arg b k 0x12 2)).reg (landReg (s.arg b k 0x10 1) 4)).toNat g := fun g hg => by
    rw [hbits g (by omega)]
    simp [show g ≠ 16 by omega]
  refine completes_done rfl h ht hmbx fun hfin => ⟨fun g hg => ?_, ?_, hfin⟩
  · rw [reg_finish, hgroup g hg, bit_dropGroups]
    simp [hg]
  · rw [reg_finish, groupsUp_finish, hbits 16 (by decide), groupsUp_congr hgroup, bit_dropGroups]
    simp

end

end Sys2Proof.Machine
end

section
/-! The commands on power, and the obligation on all commands of units (R463). -/

namespace Sys2Proof.Machine

/-! ## The pace of a bay (R463, R464) -/

section Pace

variable (s : State)

theorem repace_reg_ne {y r : Nat} (ceil : Nat) (h : r ≠ paceStat y) : (s.repace y ceil).reg r = s.reg r := by
  unfold State.repace
  dsimp only
  split
  · rw [State.reg_onBay]
  · rw [State.reg_onBay, State.reg_setFld_ne _ _ _ _ h, State.reg_onBay]

/-- A change toward the ceilings leaves the pace and the ceilings that PACE_STATUS shows. -/
theorem repace_ceilings (y ceil : Nat) {hi : Nat} (lo : Nat) (h : hi < 10) : (s.repace y ceil).fld (paceStat y) hi lo = s.fld (paceStat y) hi lo := by
  unfold State.repace
  dsimp only
  split
  · rw [State.fld, State.reg_onBay, ← State.fld]
  · rw [State.fld, State.reg_onBay, State.reg_setFld, if_pos rfl, field_setField_apart _ _ _ _ _ _ (by decide) (.inl h), State.reg_onBay, ← State.fld]

theorem cores_repace (y ceil : Nat) : (s.repace y ceil).cores = s.cores := by
  unfold State.repace
  dsimp only
  split
  · rw [State.cores_onBay]
  · rw [State.cores_onBay, State.cores_setFld, State.cores_onBay]

theorem board_repace (y ceil i : Nat) : (s.repace y ceil).board i = s.board i := by
  unfold State.repace
  dsimp only
  split
  · rw [State.board_onBay]
  · rw [State.board_onBay, State.board_setFld, State.board_onBay]

theorem paceStat_ne {y z : Nat} (h : y ≠ z) : paceStat y ≠ paceStat z := hubReg_ne_of_bay (by decide) (by decide) h

theorem setCeil_reg_ne {y r : Nat} (lo ceil v : Nat) (h : r ≠ paceStat y) : (s.setCeil y lo ceil v).reg r = s.reg r := by
  unfold State.setCeil
  split
  · rfl
  · rw [repace_reg_ne _ _ h, State.reg_setFld_ne _ _ _ _ h]

theorem fld_setCeil (y ceil : Nat) {lo v : Nat} (hl : lo < 9) (hv : v < 4) : (s.setCeil y lo ceil v).fld (paceStat y) (lo + 1) lo = v := by
  unfold State.setCeil
  split
  · next h => exact h
  · rw [repace_ceilings _ _ _ _ (by omega), fld_setFld _ _ (by omega) (by omega) (by rwa [show lo + 1 + 1 - lo = 2 by omega])]

theorem cores_setCeil (y lo ceil v : Nat) : (s.setCeil y lo ceil v).cores = s.cores := by
  unfold State.setCeil
  split
  · rfl
  · rw [cores_repace, State.cores_setFld]

theorem board_setCeil (y lo ceil v i : Nat) : (s.setCeil y lo ceil v).board i = s.board i := by
  unfold State.setCeil
  split
  · rfl
  · rw [board_repace, State.board_setFld]

/-- After the job pace is set in the bays below n, each shows it. -/
theorem fld_upTo_setCeil {v : Nat} (hv : v < 4) (n : Nat) : ∀ y < n, (upTo n (fun b s => s.setCeil b 2 0 v) s).fld (paceStat y) 3 2 = v := by
  induction n with
  | zero => exact fun y hy => absurd hy (Nat.not_lt_zero y)
  | succ n ih =>
    intro y hy
    have hstep : upTo (n + 1) (fun b s => s.setCeil b 2 0 v) s = (upTo n (fun b s => s.setCeil b 2 0 v) s).setCeil n 2 0 v := by
      simp only [upTo, List.range_succ, List.foldl_append, List.foldl_cons, List.foldl_nil]
    rw [hstep]
    by_cases e : y = n
    · rw [e]
      exact fld_setCeil _ _ _ (by decide) hv
    · rw [State.fld, setCeil_reg_ne _ _ _ _ (paceStat_ne e), ← State.fld, ih y (by omega)]

theorem cores_setJobPace (v : Nat) : (s.setJobPace v).cores = s.cores := State.upTo_keeps State.cores _ _ _ fun _ _ => cores_setCeil _ _ _ _ _

theorem board_setJobPace (v i : Nat) : (s.setJobPace v).board i = s.board i :=
  State.upTo_keeps (fun u => u.board i) _ _ _ fun _ _ => board_setCeil _ _ _ _ _ _

end Pace

/-! ## The commands -/

section

variable {s : State} {b k : Nat}

theorem completes_powerPace (h : s.serves b k 0x601 = true) (hv : s.arg b k 0x10 1 ≤ 3) : Completes (.powerPace b k) s (fun t =>
    (∀ y, y < 60 → t.fld (paceStat y) 3 2 = s.arg b k 0x10 1) ∧ t.cores = s.cores ∧ Finished b k 0 [] t) := by
  refine completes_done (t := s.setJobPace (s.arg b k 0x10 1)) rfl h ?_ (by rw [board_setJobPace]) fun hfin => ⟨fun y hy => ?_, ?_, hfin⟩
  · unfold powerPace
    dsimp only
    rw [if_neg (by omega)]
  · rw [fld_finish]
    exact fld_upTo_setCeil s (by omega) 60 y hy
  · rw [cores_finish, cores_setJobPace]

theorem completes_powerCeiling (h : s.serves b k 0x602 = true) (hy : s.arg b k 0x10 1 < 60) (hv : s.arg b k 0x11 1 ≤ 3)
    (hb : s.bayBusy (s.arg b k 0x10 1) = false) : Completes (.powerCeiling b k) s (fun t =>
      t.fld (paceCtrl (s.arg b k 0x10 1)) 1 0 = s.arg b k 0x11 1 ∧ t.cores = s.cores ∧ Finished b k 0 [] t) := by
  have hne : paceCtrl (s.arg b k 0x10 1) ≠ paceStat (s.arg b k 0x10 1) := hubReg_ne_of_off (by decide) (by decide) (by decide)
  refine completes_done (t := (s.fldBy (8 + k) (paceCtrl (s.arg b k 0x10 1)) 1 0 (s.arg b k 0x11 1)).repace (s.arg b k 0x10 1) 1) rfl h ?_
    (by rw [board_repace, board_fldBy]) fun hfin => ⟨?_, ?_, hfin⟩
  · unfold powerCeiling
    dsimp only
    rw [if_neg (by omega), hb, if_neg (by decide)]
  · rw [fld_finish, State.fld, repace_reg_ne _ _ hne, ← State.fld, fld_fldBy _ _ _ (by decide) (by decide) (by omega)]
  · rw [cores_finish, cores_repace, cores_fldBy]

theorem completes_powerLimit (h : s.serves b k 0x603 = true) (hv : s.arg b k 0x10 2 ≤ 25000) : Completes (.powerLimit b k) s (fun t =>
    t.fld (gloReg 0x604) 15 0 = s.arg b k 0x10 2 ∧ (∀ r, r ≠ gloReg 0x604 → t.reg r = s.reg r) ∧ Finished b k 0 [] t) := by
  refine completes_done (t := s.fldBy (8 + k) (gloReg 0x604) 15 0 (s.arg b k 0x10 2)) rfl h ?_ (by rw [board_fldBy])
    fun hfin => ⟨?_, fun r hr => ?_, hfin⟩
  · unfold powerLimit
    dsimp only
    rw [if_neg (by omega)]
  · rw [fld_finish, fld_fldBy _ _ _ (by decide) (by decide) (by omega)]
  · rw [reg_finish, reg_fldBy_ne _ _ _ _ _ hr]

end

/-- Settles O54: every command leaves the mailboxes alone until it completes, and its meaning is followed through the registers, fences and stack
bytes that the statement reads; a command whose unit is busy answers nothing. -/
theorem unitCommands : Obligations.unit_commands := by
  intro s b k
  exact ⟨completes_coreFence,
    fun h hv hc hb => completes_waiting rfl h (coreFence_waits hv hc hb),
    fun h hy hv hb => completes_waiting rfl h (baySpares_waits hy hv hb),
    fun h hy hc hb => completes_waiting rfl h (stackMapout_waits hy hc hb),
    fun h hy hv hb => completes_waiting rfl h (powerCeiling_waits hy hv hb),
    completes_baySpares,
    completes_stackMapout,
    completes_landingAccept,
    completes_landingRetake,
    completes_landingHold,
    completes_landingRelease,
    completes_landingRetrain,
    completes_powerPace,
    completes_powerCeiling,
    completes_powerLimit⟩

end Sys2Proof.Machine
end

section
/-! What an issue depends on and what the sequences around it leave alone: the fault of a landing, and the view of the state from which plank
orders and issue positions are read (R22, R39, R340, R443). -/

namespace Sys2Proof.Machine

/-- What another value of a landing's record shares with it, every landing keeps. -/
theorem land_setLand_keeps {β : Type} (g : Landing → β) (s : State) {l : Nat} {x : Landing} (h : g x = g (s.land l)) (j : Nat) :
    g ((s.setLand l x).land j) = g (s.land j) := by
  rw [State.land_setLand]
  split
  · next e => rw [e, h]
  · rfl

/-- Requests change only the planks of a landing and its request position. -/
theorem newRequests_keeps {β : Type} (g : Landing → β) (hg : ∀ x ps k, g { x with planks := ps, reqIdx := k } = g x) (s : State) (l role : Nat)
    (es : List MEnt) (n : Nat) (x : Landing) : g (s.newRequests l role es n x).1 = g x := by
  induction n generalizing x with
  | zero => rfl
  | succ n ih =>
    have skip : g (s.newRequests l role es n { x with reqIdx := x.reqIdx + 1 }).1 = g x := (ih _).trans (hg x x.planks _)
    unfold State.newRequests
    split
    · rfl
    · dsimp only
      split
      · exact skip
      · split
        · rfl
        · split
          · rfl
          · exact (ih _).trans (hg x _ _)

/-! ## Faults of landings (R347, R443) -/

/-- The landings' faults. -/
def State.faults (s : State) (l : Nat) : Bool := (s.land l).faulted

theorem faults_setLand {s : State} {l : Nat} {x : Landing} (h : x.faulted = (s.land l).faulted) : (s.setLand l x).faults = s.faults :=
  funext fun j => land_setLand_keeps Landing.faulted s h j

theorem faults_onLand (s : State) (l : Nat) {f : Landing → Landing} (h : ∀ x, (f x).faulted = x.faulted) : (s.onLand l f).faults = s.faults :=
  faults_setLand (h _)

theorem faults_pushFrame (s : State) (l : Nat) (f : Frame) : (s.pushFrame l f).faults = s.faults := faults_onLand s l fun _ => rfl

theorem faults_setReg (s : State) (a : Nat) (v : W32) : (s.setReg a v).faults = s.faults := rfl

theorem faults_sendHold (s : State) (l m k bayByte : Nat) : (s.sendHold l m k bayByte).faults = s.faults := by
  unfold State.sendHold
  rw [faults_setReg, faults_pushFrame]

theorem faults_fldMp (s : State) (a hi lo v : Nat) : (s.fldMp a hi lo v).faults = s.faults := rfl

theorem faults_raise (s : State) (code : Nat) (fs : List (Nat × Nat)) : (s.raise code fs).faults = s.faults :=
  eq_of_unevented State.faults (fun _ => rfl) (unevented_raise s code fs)

theorem faults_holdAll (s : State) (m k : Nat) : (s.holdAll m k).faults = s.faults := by
  unfold State.holdAll
  split
  · rfl
  · refine State.upTo_keeps State.faults _ _ _ fun l u => ?_
    split
    · exact faults_sendHold _ _ _ _ _
    · rfl

theorem faults_stopCores (s : State) : s.stopCores.faults = s.faults := by
  refine State.upTo_keeps State.faults _ _ _ fun p u => ?_
  split
  · exact faults_fldMp _ _ _ _ _
  · rfl

theorem faults_abortAttempt (s : State) : s.abortAttempt.faults = s.faults := by
  unfold State.abortAttempt
  split
  · rfl
  · dsimp only
    rw [faults_raise, State.upTo_keeps State.faults]
    · exact State.forAll_keeps State.faults _ _ _ fun l u => faults_pushFrame u l _
    · intro l u
      split
      · rw [faults_onLand, faults_setReg, faults_setReg]
        exact fun _ => rfl
      · rfl

theorem faults_contain (s : State) : s.contain.faults = s.faults := by
  unfold State.contain
  split
  · rw [faults_holdAll, faults_stopCores, faults_abortAttempt]
  · rfl

theorem faults_replayStep (s : State) : s.replayStep.faults = s.faults := by
  unfold State.replayStep
  split <;> rfl

theorem faults_endOfService (s : State) : s.endOfService.faults = s.faults := by
  unfold State.endOfService State.floorCheck
  split
  · dsimp only
    split
    · rfl
    · split
      · rfl
      · exact faults_raise _ _ _
  · rfl

theorem faults_askAlternate (s : State) (names : List (Nat × Nat)) : (s.askAlternate names).faults = s.faults := by
  have ask : ((s.raise 0x010A names).holdAll 15 2).faults = s.faults := by rw [faults_holdAll, faults_raise]
  unfold State.askAlternate
  dsimp only
  split <;> exact ask

theorem faults_seekPlace (s : State) (restore : Bool) (names : List (Nat × Nat)) : (s.seekPlace restore names).faults = s.faults := by
  have again : (if restore then s.want 2 else s.replayStep).faults = s.faults := by
    split
    · rfl
    · exact faults_replayStep s
  unfold State.seekPlace
  split
  · rfl
  · split
    · rw [faults_askAlternate, again]
    · split
      · exact again
      · dsimp only
        split
        · rfl
        · exact faults_replayStep _

theorem faults_mpPlace (s : State) (restore : Bool) (names : List (Nat × Nat)) : (s.mpPlace restore names).faults = s.faults := by
  unfold State.mpPlace
  split
  · exact faults_seekPlace s restore names
  · rfl

/-- A landing that has stopped stays faulted through what its stop starts. -/
theorem faults_landingStopped (s : State) (l : Nat) : (s.landingStopped l).faults = s.faults := by
  unfold State.landingStopped
  split
  · exact faults_endOfService s
  · dsimp only
    rw [faults_endOfService]
    split
    · rw [faults_mpPlace, faults_contain]
      rfl
    · split
      · rw [faults_replayStep, faults_abortAttempt]
        rfl
      · rfl

/-! ## What plank orders and issue positions are read from (R22, R39, R340) -/

/-- The girts, the mark ticks, the cores, the stacks, and all that plank orders and issue positions depend on. -/
structure IssueView where
  flights : List Flight
  sn : List Token
  cores : SMap Core
  stack : Mem
  loaded : Option Loaded
  crossing : Option Nat
  joins : SMap Nat
  takes : Nat → Bool
  issueIdx : Nat → Nat

def State.issueView (s : State) : IssueView :=
  { flights := s.flights, sn := s.sn, cores := s.cores, stack := s.stack, loaded := s.job.loaded, crossing := s.job.crossing, joins := s.joins,
    takes := fun l => (s.land l).takes, issueIdx := fun l => (s.land l).issueIdx }

theorem issueView_setLand {s : State} {l : Nat} {x : Landing} (ht : x.takes = (s.land l).takes) (hi : x.issueIdx = (s.land l).issueIdx) :
    (s.setLand l x).issueView = s.issueView := by
  have takes : (fun j => ((s.setLand l x).land j).takes) = fun j => (s.land j).takes := funext (land_setLand_keeps Landing.takes s ht)
  have idx : (fun j => ((s.setLand l x).land j).issueIdx) = fun j => (s.land j).issueIdx := funext (land_setLand_keeps Landing.issueIdx s hi)
  unfold State.issueView
  rw [takes, idx]
  rfl

section

variable {s t : State}

theorem flights_of_view (h : t.issueView = s.issueView) : t.flights = s.flights := congrArg IssueView.flights h
theorem sn_of_view (h : t.issueView = s.issueView) : t.sn = s.sn := congrArg IssueView.sn h
theorem cores_of_view (h : t.issueView = s.issueView) : t.cores = s.cores := congrArg IssueView.cores h
theorem stack_of_view (h : t.issueView = s.issueView) : t.stack = s.stack := congrArg IssueView.stack h
theorem loaded_of_view (h : t.issueView = s.issueView) : t.job.loaded = s.job.loaded := congrArg IssueView.loaded h
theorem crossing_of_view (h : t.issueView = s.issueView) : t.job.crossing = s.job.crossing := congrArg IssueView.crossing h
theorem joins_of_view (h : t.issueView = s.issueView) : t.joins = s.joins := congrArg IssueView.joins h
theorem takes_of_view (h : t.issueView = s.issueView) (l : Nat) : (t.land l).takes = (s.land l).takes := congrFun (congrArg IssueView.takes h) l
theorem issueIdx_of_view (h : t.issueView = s.issueView) (l : Nat) : (t.land l).issueIdx = (s.land l).issueIdx :=
  congrFun (congrArg IssueView.issueIdx h) l

/-- A landing's list of planks depends on the orders loaded, the crossing, the joins in force and which landings take over their pair's. -/
theorem merged_congr (hl : t.job.loaded = s.job.loaded) (hc : t.job.crossing = s.job.crossing) (hj : t.joins = s.joins)
    (ht : ∀ l, (t.land l).takes = (s.land l).takes) (l role : Nat) : t.merged l role = s.merged l role := by
  have order : t.orderOf = s.orderOf := by
    funext l role
    simp only [State.orderOf, hl]
  have union : t.union = s.union := by
    funext l role
    simp only [State.union, order, ht]
  have join : t.joinOf = s.joinOf := by
    funext r role
    simp only [State.joinOf, State.joinPlan, hc, hj, union, ht]
  simp only [State.merged, union, join]

theorem merged_of_view (h : t.issueView = s.issueView) (l role : Nat) : t.merged l role = s.merged l role :=
  merged_congr (loaded_of_view h) (crossing_of_view h) (joins_of_view h) (takes_of_view h) l role

theorem issuePos_of_view (h : t.issueView = s.issueView) (l role : Nat) : t.issuePos l role = s.issuePos l role := by
  simp only [State.issuePos, State.planksOf, merged_of_view h, issueIdx_of_view h, loaded_of_view h]

end

theorem issueView_setReg (s : State) (a : Nat) (v : W32) : (s.setReg a v).issueView = s.issueView := rfl

theorem issueView_onLand (s : State) (l : Nat) {f : Landing → Landing} (ht : ∀ x, (f x).takes = x.takes) (hi : ∀ x, (f x).issueIdx = x.issueIdx) :
    (s.onLand l f).issueView = s.issueView := issueView_setLand (ht _) (hi _)

theorem issueView_pushFrame (s : State) (l : Nat) (f : Frame) : (s.pushFrame l f).issueView = s.issueView :=
  issueView_onLand s l (fun _ => rfl) fun _ => rfl

theorem issueView_sendHold (s : State) (l m k bayByte : Nat) : (s.sendHold l m k bayByte).issueView = s.issueView := by
  unfold State.sendHold
  rw [issueView_setReg, issueView_pushFrame]

end Sys2Proof.Machine
end

section
/-! The issue of a plank by a landing (R26, R39, R333, R335, R347). -/

namespace Sys2Proof.Machine

/-! ## Girt schedules (R347) -/

theorem issueView_schedCheck (s : State) (l h role plank variant : Nat) : (s.schedCheck l h role plank variant).issueView = s.issueView := by
  unfold State.schedCheck
  split
  · rfl
  · rw [issueView_onLand]
    · exact issueView_setReg _ _ _
    · exact fun _ => rfl
    · exact fun _ => rfl

theorem faulted_schedCheck {s : State} {l h role plank variant : Nat} (hm : s.schedMatch l h role plank variant = false) :
    ((s.schedCheck l h role plank variant).land l).faulted = true := by
  unfold State.schedCheck
  rw [hm, if_neg (by decide), State.land_onLand_same]

theorem schedCheck_keeps_faulted {s : State} {l : Nat} (hf : (s.land l).faulted = true) (h role plank variant : Nat) :
    ((s.schedCheck l h role plank variant).land l).faulted = true := by
  unfold State.schedCheck
  split
  · exact hf
  · rw [State.land_onLand_same]

/-- The tap sequencers of the halves that a plank goes to compare it with their schedules. -/
def State.schedChecks (s : State) (l role plank variant : Nat) (hs : List Nat) : State := forAll hs (fun h s => s.schedCheck l h role plank variant) s

theorem issueView_schedChecks (s : State) (l role plank variant : Nat) (hs : List Nat) :
    (s.schedChecks l role plank variant hs).issueView = s.issueView :=
  State.forAll_keeps State.issueView _ _ _ fun h u => issueView_schedCheck u l h role plank variant

theorem schedChecks_keeps_faulted (l role plank variant : Nat) (hs : List Nat) {s : State} (hf : (s.land l).faulted = true) :
    ((s.schedChecks l role plank variant hs).land l).faulted = true := by
  induction hs generalizing s with
  | nil => exact hf
  | cons h hs ih => exact ih (schedCheck_keeps_faulted hf h role plank variant)

theorem schedCheck_of_match {s : State} {l h role plank variant : Nat} (hm : s.schedMatch l h role plank variant = true) :
    s.schedCheck l h role plank variant = s := if_pos hm

section

variable {s : State} {l role plank variant : Nat} {hs : List Nat}

theorem schedChecks_cons (h : Nat) :
    s.schedChecks l role plank variant (h :: hs) = (s.schedCheck l h role plank variant).schedChecks l role plank variant hs := rfl

/-- A plank that every schedule expects passes the checks. -/
theorem schedChecks_of_match (hm : hs.all (fun h => s.schedMatch l h role plank variant) = true) : s.schedChecks l role plank variant hs = s := by
  induction hs with
  | nil => rfl
  | cons h hs ih =>
    obtain ⟨hh, hm⟩ := Bool.and_eq_true_iff.1 (List.all_cons ▸ hm)
    rw [schedChecks_cons, schedCheck_of_match hh, ih hm]

/-- A plank that some schedule does not expect is a fault of the landing: the checks that it passes before change nothing, and those after
keep the fault. -/
theorem faulted_schedChecks (hm : hs.all (fun h => s.schedMatch l h role plank variant) = false) :
    ((s.schedChecks l role plank variant hs).land l).faulted = true := by
  induction hs with
  | nil => cases hm
  | cons h hs ih =>
    rw [schedChecks_cons]
    cases hh : s.schedMatch l h role plank variant with
    | false => exact schedChecks_keeps_faulted l role plank variant hs (faulted_schedCheck hh)
    | true =>
      rw [List.all_cons, hh, Bool.true_and] at hm
      rw [schedCheck_of_match hh, ih hm]

end

/-! ## After the issue (R39, R44, R261) -/

/-- The slip of a landing's last entry, and the landing done with the crossing. -/
def State.noteSlip (s : State) (l role i : Nat) (e : Entry) : State :=
  if (s.merged l role).length ≤ i + 1 then
    let slip := s.time - s.job.crossStart - e.offset / 11
    let s := if s.job.slipMax ≤ slip then s.onJob (fun j => { j with slipMax := slip, slipLanding := l }) else s
    s.onJob (fun j => { j with crossDone := insNat j.crossDone l, bwdIssued := if role = 1 then insNat j.bwdIssued l else j.bwdIssued })
  else s

/-- The landing's next plank is entry i, and both root hubs hear of its position. -/
def State.tickAt (s : State) (l role i : Nat) : State := (s.onLand l (fun x => { x with issueIdx := i })).markTick l role

theorem afterIssue_eq (s : State) (l role i : Nat) (e : Entry) :
    s.afterIssue l role i e = (((s.tickAt l role (i + 1)).progress l 0).noteSlip l role i e).fillRequests l := rfl

theorem issueView_progress (s : State) (l vc : Nat) : (s.progress l vc).issueView = s.issueView := by
  unfold State.progress
  dsimp only
  split
  · exact issueView_sendHold _ _ _ _ _
  · rfl

theorem faults_progress (s : State) (l vc : Nat) : (s.progress l vc).faults = s.faults := by
  unfold State.progress
  dsimp only
  split
  · exact faults_sendHold _ _ _ _ _
  · rfl

theorem noteSlip_job (s : State) (l role i : Nat) (e : Entry) : ∃ j : Job, s.noteSlip l role i e = { s with job := j } ∧
    j.loaded = s.job.loaded ∧ j.crossing = s.job.crossing := by
  unfold State.noteSlip
  split
  · dsimp only
    split <;> exact ⟨_, rfl, rfl, rfl⟩
  · exact ⟨_, rfl, rfl, rfl⟩

theorem issueView_noteSlip (s : State) (l role i : Nat) (e : Entry) : (s.noteSlip l role i e).issueView = s.issueView := by
  obtain ⟨j, hj, hl, hc⟩ := noteSlip_job s l role i e
  simp only [State.issueView, hj, hl, hc]
  rfl

theorem faults_noteSlip (s : State) (l role i : Nat) (e : Entry) : (s.noteSlip l role i e).faults = s.faults := by
  obtain ⟨j, hj, -⟩ := noteSlip_job s l role i e
  rw [hj]
  rfl

theorem issueView_fillRequests (s : State) (l : Nat) : (s.fillRequests l).issueView = s.issueView := by
  unfold State.fillRequests
  split
  · rfl
  · dsimp only
    rw [State.forAll_keeps State.issueView _ _ _ fun k u => issueView_pushFrame u l _]
    exact issueView_setLand (newRequests_keeps Landing.takes (fun _ _ _ => rfl) _ _ _ _ _ _)
      (newRequests_keeps Landing.issueIdx (fun _ _ _ => rfl) _ _ _ _ _ _)

theorem faults_fillRequests (s : State) (l : Nat) : (s.fillRequests l).faults = s.faults := by
  unfold State.fillRequests
  split
  · rfl
  · dsimp only
    rw [State.forAll_keeps State.faults _ _ _ fun k u => faults_pushFrame u l _]
    exact faults_setLand (newRequests_keeps Landing.faulted (fun _ _ _ => rfl) _ _ _ _ _ _)

theorem issueView_afterIssue (s : State) (l role i : Nat) (e : Entry) : (s.afterIssue l role i e).issueView = (s.tickAt l role (i + 1)).issueView := by
  rw [afterIssue_eq, issueView_fillRequests, issueView_noteSlip, issueView_progress]

theorem faults_afterIssue (s : State) (l role i : Nat) (e : Entry) : (s.afterIssue l role i e).faults = s.faults := by
  rw [afterIssue_eq, faults_fillRequests, faults_noteSlip, faults_progress]
  exact faults_setLand rfl

/-! ## The issue of a full plank -/

/-- The plank in buffer b goes on its girts, and the buffer is freed. -/
def State.putFull (s : State) (l : Nat) (m : MEnt) (b : PlankBuf) : State :=
  (s.putFlight l m false 256 b.data).onLand l (fun x => { x with planks := x.planks.filter (fun y => y != b) })

/-- The plank in buffer b goes on its girts, and the landing's position steps. -/
def State.issueFull (s : State) (l role : Nat) (m : MEnt) (b : PlankBuf) : State := (s.putFull l m b).afterIssue l role (s.land l).issueIdx m.e

theorem issueIdx_schedChecks (s : State) (l role plank variant : Nat) (hs : List Nat) :
    ((s.schedChecks l role plank variant hs).land l).issueIdx = (s.land l).issueIdx := issueIdx_of_view (issueView_schedChecks s l role plank variant hs) l

section

variable (s : State) (l role : Nat) (m : MEnt) (b : PlankBuf)

theorem faults_putFull : (s.putFull l m b).faults = s.faults := by
  unfold State.putFull
  rw [faults_onLand]
  · change (s.onLand l (fun x => { x with ihCount := _ })).faults = s.faults
    exact faults_onLand s l fun _ => rfl
  · exact fun _ => rfl

theorem faults_issueFull : (s.issueFull l role m b).faults = s.faults := by
  unfold State.issueFull
  rw [faults_afterIssue, faults_putFull]

theorem flights_putFull : ∃ f : Flight, (s.putFull l m b).flights = s.flights ++ [f] ∧ f.landing = l ∧ f.plank = m.e.plank ∧ f.near = m.near ∧
    f.far = m.far ∧ f.green = false ∧ f.data = b.data := ⟨_, rfl, rfl, rfl, rfl, rfl, rfl, rfl⟩

theorem sn_putFull : (s.putFull l m b).sn = s.sn := rfl
theorem cores_putFull : (s.putFull l m b).cores = s.cores := rfl
theorem stack_putFull : (s.putFull l m b).stack = s.stack := rfl

theorem flights_tickAt (i : Nat) : (s.tickAt l role i).flights = s.flights := rfl
theorem cores_tickAt (i : Nat) : (s.tickAt l role i).cores = s.cores := rfl
theorem stack_tickAt (i : Nat) : (s.tickAt l role i).stack = s.stack := rfl
theorem sn_tickAt (i : Nat) : (s.tickAt l role i).sn = s.sn ++ [{ typ := 1, head := l, a := role, b := (s.tickAt l role i).issuePos l role }] := rfl
theorem issueIdx_tickAt (i : Nat) : ((s.tickAt l role i).land l).issueIdx = i := by
  change ((s.onLand l (fun x => { x with issueIdx := i })).land l).issueIdx = i
  rw [State.land_onLand_same]

theorem issueView_issueFull : (s.issueFull l role m b).issueView = ((s.putFull l m b).tickAt l role ((s.land l).issueIdx + 1)).issueView :=
  issueView_afterIssue _ _ _ _ _

end

section

variable {s : State} {l role : Nat} {m : MEnt} {b : PlankBuf}

/-- Landing l may issue and has issued none of the planks it holds; its next plank is a with-grain one, which it holds whole in buffer b and has
credit for in every half that it goes to. -/
structure State.HoldsNext (s : State) (l role : Nat) (m : MEnt) (b : PlankBuf) : Prop where
  issues : s.mayIssuePlank l = true
  next : (s.merged l role)[(s.land l).issueIdx]? = some m
  straight : m.e.grain = 0
  unissued : (s.land l).planks.all (fun y => !y.issued) = true
  held : (s.land l).planks.find? (fun y => y.idx == (s.land l).issueIdx && y.role == role) = some b
  whole : b.full = true
  credit : (maskHalves l m.near m.far).all (s.hasCredit l) = true

/-- The next plank of such a landing is checked and issued (R26, R335, R347). -/
theorem plankIssue_of_holdsNext (hc : s.job.crossing = some role) (h : s.HoldsNext l role m b) :
    plankIssue l s = (s.schedChecks l role m.e.plank m.e.variant (maskHalves l m.near m.far)).issueFull l role m b := by
  unfold plankIssue
  rw [hc]
  simp only [h.issues, Bool.not_true, Bool.false_eq_true, if_false]
  split
  · next y hy =>
    have unissued : y.issued = false := by simpa using List.all_eq_true.1 h.unissued y (List.mem_of_find?_eq_some hy)
    have denied := List.find?_some hy
    rw [unissued] at denied
    cases denied
  · simp only [h.next, h.held, h.credit, h.straight, h.whole, State.issueFull, issueIdx_schedChecks]
    rfl

end

/-! ## PLANK_ISSUE -/

/-- A working landing is present in a bay that runs, and no fault of it has been reported. -/
theorem landWorks_parts {s : State} {l : Nat} (h : s.landWorks l = true) :
    (s.land l).present = true ∧ s.bayUp (landingBay l) = true ∧ (s.land l).faulted = false := by
  simp only [State.landWorks, State.linkLive, State.linkUp, Bool.and_eq_true, Bool.not_eq_true'] at h
  obtain ⟨⟨⟨⟨⟨hp, -⟩, hb⟩, -⟩, -⟩, hf⟩ := h
  exact ⟨hp, hb, hf⟩

theorem landEvent_present {s : State} {l : Nat} (hl : l < 8) (hp : (s.land l).present = true) (hb : s.bayUp (landingBay l) = true)
    (f : State → State) : landEvent l f s = .next (f s) := by
  unfold landEvent
  rw [if_neg (by omega), hp, hb]
  rfl

theorem landWorks_of_mayIssuePlank {s : State} {l : Nat} (h : s.mayIssuePlank l = true) : s.landWorks l = true := by
  simp only [State.mayIssuePlank, Bool.and_eq_true] at h
  obtain ⟨⟨⟨⟨hw, -⟩, -⟩, -⟩, -⟩ := h
  exact hw

/-- PLANK_ISSUE at a landing that may issue: a fault that the issue makes stops the landing. -/
theorem exec_plankIssue {s : State} {l : Nat} (hl : l < 8) (h : s.mayIssuePlank l = true) :
    exec (.plankIssue l) s = .next (if ((plankIssue l s).land l).faulted = true then (plankIssue l s).landingStopped l else plankIssue l s) := by
  obtain ⟨hp, hb, hf⟩ := landWorks_parts (landWorks_of_mayIssuePlank h)
  have dispatch : exec (.plankIssue l) s = execPlankIssue l s := rfl
  rw [dispatch, execPlankIssue, landEvent_present hl hp hb]
  simp only [hf, Bool.not_false, Bool.and_true]

/-- Whether every half that an entry's plank goes to expects it next (R347). -/
def State.expects (s : State) (l role : Nat) (m : MEnt) : Bool :=
  (maskHalves l m.near m.far).all (fun h => s.schedMatch l h role m.e.plank m.e.variant)

section

variable {s : State} {l role : Nat} {m : MEnt} {b : PlankBuf}

/-- A plank that a schedule does not expect is a fault of its landing (R347). -/
theorem completes_plankIssue_unexpected (hc : s.job.crossing = some role) (hl : l < 8) (h : s.HoldsNext l role m b)
    (hm : s.expects l role m = false) : Completes (.plankIssue l) s (fun t => (t.land l).faulted = true) := by
  have hf : (plankIssue l s).faults l = true := by
    rw [plankIssue_of_holdsNext hc h, faults_issueFull]
    exact faulted_schedChecks hm
  refine ⟨(plankIssue l s).landingStopped l, ?_, ?_⟩
  · rw [exec_plankIssue hl h.issues]
    exact congrArg _ (if_pos hf)
  · exact (congrFun (faults_landingStopped _ l) l).trans hf

/-- A plank that every schedule expects goes on its girts, with a mark tick of the landing's next position (R39, R333). -/
theorem completes_plankIssue_expected (hc : s.job.crossing = some role) (hl : l < 8) (h : s.HoldsNext l role m b)
    (hm : s.expects l role m = true) : Completes (.plankIssue l) s (fun t =>
      (∃ f, t.flights = s.flights ++ [f] ∧ f.landing = l ∧ f.plank = m.e.plank ∧ f.near = m.near ∧ f.far = m.far ∧ f.green = false ∧ f.data = b.data) ∧
      (t.land l).issueIdx = (s.land l).issueIdx + 1 ∧ t.sn = s.sn ++ [{ typ := 1, head := l, a := role, b := t.issuePos l role }] ∧
      t.cores = s.cores ∧ t.stack = s.stack) := by
  have he := plankIssue_of_holdsNext hc h
  rw [schedChecks_of_match hm] at he
  have hf : (plankIssue l s).faults l = false := by
    rw [he, faults_issueFull]
    exact (landWorks_parts (landWorks_of_mayIssuePlank h.issues)).2.2
  have view := issueView_issueFull s l role m b
  refine ⟨s.issueFull l role m b, ?_, ?_, ?_, ?_, ?_, ?_⟩
  · rw [exec_plankIssue hl h.issues, ← he]
    exact congrArg _ (if_neg (Bool.eq_false_iff.1 hf))
  · rw [flights_of_view view, flights_tickAt]
    exact flights_putFull s l m b
  · rw [issueIdx_of_view view, issueIdx_tickAt]
  · rw [sn_of_view view, issuePos_of_view view, sn_tickAt, sn_putFull]
  · rw [cores_of_view view, cores_tickAt, cores_putFull]
  · rw [stack_of_view view, stack_tickAt, stack_putFull]

end

end Sys2Proof.Machine
end

section
/-! Planks read from bay stacks, release counts, and the obligation on issued planks (R28, R326, R335, R336, R403, R412). -/

namespace Sys2Proof.Machine

/-! ## What a given plank leaves alone -/

theorem upTo_succ (n : Nat) (f : Nat → State → State) (s : State) : upTo (n + 1) f s = f n (upTo n f s) := by
  simp only [upTo, List.range_succ, List.foldl_append, List.foldl_cons, List.foldl_nil]

/-- A landing's record without the planks that it holds. -/
def Landing.bare (x : Landing) : Landing := { x with planks := [] }

/-- All but the planks that landings hold and the bytes that bandwidth windows count. -/
def State.bare (s : State) : State × (Nat → Landing) := ({ s with lands := [], bwAcc := [] }, fun l => (s.land l).bare)

theorem bare_setPlanks (s : State) (l : Nat) (ps : List PlankBuf) : (s.setLand l { s.land l with planks := ps }).bare = s.bare :=
  congrArg (Prod.mk _) (funext (land_setLand_keeps Landing.bare s (x := { s.land l with planks := ps }) rfl))

/-- A hub's count of bytes changes only what bandwidth windows have counted (R522). -/
theorem hubCount_keeps {β : Type} (g : State → β) (hg : ∀ (u : State) (w : SMap Nat), g { u with bwAcc := w } = g u) (s : State) (port a n : Nat) :
    g (s.hubCount port a n) = g s := by
  unfold State.hubCount
  split
  · rfl
  · refine State.forAll_keeps g _ _ _ fun i u => ?_
    unfold State.bwCount
    dsimp only
    split
    · exact hg u _
    · rfl

section

variable {s t : State} (h : t.bare = s.bare)
include h

theorem eq_of_bare {β : Type} (g : State → β) (hg : ∀ (u : State), g { u with lands := [], bwAcc := [] } = g u) : g t = g s :=
  (hg t).symm.trans ((congrArg (fun v => g v.1) h).trans (hg s))

theorem merged_of_bare (l role : Nat) : t.merged l role = s.merged l role := by
  have job : t.job = s.job := eq_of_bare h State.job fun _ => rfl
  exact merged_congr (congrArg Job.loaded job) (congrArg Job.crossing job) (eq_of_bare h State.joins fun _ => rfl)
    (fun j => congrArg (fun v => (v.2 j).takes) h) l role

theorem fromStore_of_bare : t.fromStore = s.fromStore := eq_of_bare h State.fromStore fun _ => rfl

theorem landWorks_of_bare (l : Nat) : t.landWorks l = s.landWorks l := by
  have link : ∀ a, t.reg a = s.reg a := fun a => eq_of_bare h (State.reg · a) fun _ => rfl
  have bay : ∀ b, t.bayUp b = s.bayUp b := fun b => eq_of_bare h (State.bayUp · b) fun _ => rfl
  have present : (t.land l).present = (s.land l).present := congrArg (fun v => (v.2 l).present) h
  have sits : (t.land l).sits = (s.land l).sits := congrArg (fun v => (v.2 l).sits) h
  have faulted : (t.land l).faulted = (s.land l).faulted := congrArg (fun v => (v.2 l).faulted) h
  simp only [State.landWorks, State.linkLive, State.linkUp, link, bay, present, sits, faulted]

end

/-! ## STACK_PLANK_READ -/

/-- The buffer in which a landing holds entry i of its order, read from a stack. -/
def State.stackBuf (s : State) (role i : Nat) (m : MEnt) : PlankBuf :=
  { role := role, idx := i, object := m.e.object, frames := 256, data := s.stackPlank m.e, full := true, version := s.job.version, stack := true }

theorem stackBuf_of_bare {s t : State} (h : t.bare = s.bare) (role i : Nat) (m : MEnt) : t.stackBuf role i m = s.stackBuf role i m :=
  eq_of_bare h (State.stackBuf · role i m) fun _ => rfl

/-- Whether an entry is the stack-sourced one of a plank. -/
def State.stackSourced (s : State) (plank : Nat) (m : MEnt) : Bool := m.e.plank == plank && !s.fromStore m.e

theorem stackSourced_of_bare {s t : State} (h : t.bare = s.bare) (plank : Nat) : t.stackSourced plank = s.stackSourced plank := by
  funext m
  simp only [State.stackSourced, fromStore_of_bare h]

/-- A landing takes a plank read from a stack if its order names it, it has neither issued nor holds it, and it has room for it. -/
def State.givePass (role plank l : Nat) (s : State) : State :=
  match (s.merged l role).findIdx? (s.stackSourced plank) with
  | none => s
  | some i =>
    if i < (s.land l).issueIdx ∨ (s.land l).planks.any (fun b => b.idx == i && b.role == role) ∨ !s.landWorks l ∨ !groupRoom (s.merged l role) (s.land l) i
    then s
    else match (s.merged l role)[i]? with
      | none => s
      | some m => s.onLand l (fun x => { x with planks := x.planks ++ [s.stackBuf role i m] })

/-- The hub counts the bytes of a plank's image. -/
def State.countPlank (s : State) (e : Entry) : State := (s.hubCount 0 (s.plankAt e) 65536).hubCount 0 (s.plankAt e + 65536) (scaleArea e.fmt)

section

variable {s : State} {role plank l i : Nat} {m : MEnt}

theorem bare_givePass : (State.givePass role plank l s).bare = s.bare := by
  unfold State.givePass
  split
  · rfl
  · split
    · rfl
    · split
      · rfl
      · exact bare_setPlanks s l _

theorem land_givePass_ne {j : Nat} (h : j ≠ l) : (State.givePass role plank l s).land j = s.land j := by
  unfold State.givePass
  split
  · rfl
  · split
    · rfl
    · split
      · rfl
      · exact State.land_onLand_ne s _ h

/-- Landing l works, its entry i is the stack-sourced one of the plank, which it has neither issued nor holds, and it has room for it. -/
structure State.Wants (s : State) (role plank l i : Nat) (m : MEnt) : Prop where
  works : s.landWorks l = true
  found : (s.merged l role).findIdx? (s.stackSourced plank) = some i
  entry : (s.merged l role)[i]? = some m
  ahead : (s.land l).issueIdx ≤ i
  lacks : (s.land l).planks.all (fun b => b.idx != i || b.role != role) = true
  room : groupRoom (s.merged l role) (s.land l) i = true

/-- A landing that wants a plank takes it. -/
theorem givePass_of_wants (h : s.Wants role plank l i m) :
    State.givePass role plank l s = s.onLand l (fun x => { x with planks := x.planks ++ [s.stackBuf role i m] }) := by
  have held : (s.land l).planks.any (fun b => b.idx == i && b.role == role) = false := by
    rw [← Bool.not_eq_true', List.not_any_eq_all_not, ← h.lacks]
    simp only [Bool.not_and, bne]
  unfold State.givePass
  rw [h.found]
  dsimp only
  rw [if_neg, h.entry]
  simp only [held, h.works, h.room, Bool.not_true, Bool.false_eq_true, or_false]
  exact Nat.not_lt.2 h.ahead

/-- What a landing wants does not change while others are given the plank. -/
theorem State.Wants.of_bare {t : State} (h : s.Wants role plank l i m) (hb : t.bare = s.bare) (hl : t.land l = s.land l) : t.Wants role plank l i m where
  works := (landWorks_of_bare hb l).trans h.works
  found := by rw [merged_of_bare hb, stackSourced_of_bare hb, h.found]
  entry := (merged_of_bare hb l role).symm ▸ h.entry
  ahead := hl ▸ h.ahead
  lacks := hl ▸ h.lacks
  room := by rw [merged_of_bare hb, hl, h.room]

theorem bare_upTo_givePass (n : Nat) : (upTo n (State.givePass role plank) s).bare = s.bare :=
  State.upTo_keeps State.bare _ _ _ fun _ _ => bare_givePass

theorem land_upTo_givePass_before {n : Nat} (h : n ≤ l) : (upTo n (State.givePass role plank) s).land l = s.land l := by
  induction n with
  | zero => rfl
  | succ n ih => rw [upTo_succ, land_givePass_ne (by omega), ih (by omega)]

/-- A landing that wants the plank has it once its turn has come, and keeps it. -/
theorem planks_upTo_givePass (h : s.Wants role plank l i m) {n : Nat} (hn : l < n) :
    ((upTo n (State.givePass role plank) s).land l).planks = (s.land l).planks ++ [s.stackBuf role i m] := by
  induction n with
  | zero => exact absurd hn (Nat.not_lt_zero l)
  | succ n ih =>
    rw [upTo_succ]
    by_cases e : n = l
    · subst e
      have before := land_upTo_givePass_before (s := s) (role := role) (plank := plank) (Nat.le_refl n)
      have bare := bare_upTo_givePass (s := s) (role := role) (plank := plank) n
      rw [givePass_of_wants (h.of_bare bare before), State.land_onLand_same, before, stackBuf_of_bare bare]
    · rw [land_givePass_ne (Ne.symm e), ih (by omega)]

theorem stackEntry_of_found (hl : l < 8) (h : (s.merged l role).findIdx? (s.stackSourced plank) = some i) : ∃ e, s.stackEntry role plank = some e := by
  refine Option.isSome_iff_exists.1 (List.findSome?_isSome_iff.2 ⟨l, List.mem_range.2 hl, ?_⟩)
  rw [Option.isSome_map, List.find?_isSome]
  exact List.any_eq_true.1 (List.findIdx?_isSome.symm.trans (h ▸ rfl))

theorem bare_countPlank (s : State) (e : Entry) : (s.countPlank e).bare = s.bare := by
  unfold State.countPlank
  rw [hubCount_keeps State.bare fun _ _ => rfl, hubCount_keeps State.bare fun _ _ => rfl]

theorem land_countPlank (s : State) (e : Entry) (l : Nat) : (s.countPlank e).land l = s.land l := by
  unfold State.countPlank
  rw [hubCount_keeps (State.land · l) fun _ _ => rfl, hubCount_keeps (State.land · l) fun _ _ => rfl]

/-- A plank that the hub does not hold back is offered to every landing in turn (R28). -/
theorem stackPlankRead_free {e : Entry} (hc : s.job.crossing = some role) (he : s.stackEntry role plank = some e)
    (hh : s.hubHolds (e.stackAddr / 2 ^ 36) = false) :
    stackPlankRead role plank s = upTo 8 (State.givePass role plank) (s.countPlank e) := by
  unfold stackPlankRead State.givePlank
  rw [he]
  dsimp only
  rw [hh, if_neg (not_not_intro hc)]
  rfl

/-- The read of a plank whose hub holds accesses waits there, once (R403, R412). -/
theorem stackPlankRead_held {e : Entry} (he : s.stackEntry role plank = some e) (hh : s.hubHolds (e.stackAddr / 2 ^ 36) = true)
    (hq : ∀ r ∈ (s.bay (e.stackAddr / 2 ^ 36)).q, r.kind ≠ 4) :
    stackPlankRead role plank s =
      s.hubQueue (e.stackAddr / 2 ^ 36) { core := role, wr := false, addr := e.stackAddr, spad := plank, data := [], kind := 4 } := by
  have fresh : (s.bay (e.stackAddr / 2 ^ 36)).q.any (fun r => r.kind == 4 && r.core == role && r.spad == plank) = false :=
    List.any_eq_false.2 fun r hr => by simp [hq r hr]
  unfold stackPlankRead
  rw [he]
  dsimp only
  rw [hh, fresh]
  rfl

theorem exec_stackPlankRead : exec (.stackPlankRead role plank) s = .next (stackPlankRead role plank s) := rfl

theorem completes_stackPlankRead_free (hc : s.job.crossing = some role) (hl : l < 8) (h : s.Wants role plank l i m)
    (hh : ∀ e, s.stackEntry role plank = some e → s.hubHolds (e.stackAddr / 2 ^ 36) = false) :
    Completes (.stackPlankRead role plank) s (fun t =>
      (∃ b, (t.land l).planks = (s.land l).planks ++ [b] ∧ b.idx = i ∧ b.role = role ∧ b.object = m.e.object ∧ b.full = true ∧ b.frames = 256 ∧
        b.data = s.stackPlank m.e) ∧ t.stack = s.stack ∧ t.cores = s.cores) := by
  obtain ⟨e, he⟩ := stackEntry_of_found hl h.found
  have counted := bare_countPlank s e
  have land := land_countPlank s e l
  have given : (upTo 8 (State.givePass role plank) (s.countPlank e)).bare = s.bare := (bare_upTo_givePass 8).trans counted
  refine ⟨upTo 8 (State.givePass role plank) (s.countPlank e), ?_, ⟨s.stackBuf role i m, ?_, rfl, rfl, rfl, rfl, rfl, rfl⟩, ?_, ?_⟩
  · rw [exec_stackPlankRead, stackPlankRead_free hc he (hh e he)]
  · rw [planks_upTo_givePass (h.of_bare counted land) hl, land, stackBuf_of_bare counted]
  · exact eq_of_bare given State.stack fun _ => rfl
  · exact eq_of_bare given State.cores fun _ => rfl

theorem q_hubQueue (s : State) (b : Nat) (r : SReq) : ((s.hubQueue b r).bay b).q = (s.bay b).q ++ [r] := by
  unfold State.hubQueue
  rw [State.bay_onBay_same]

theorem completes_stackPlankRead_held {e : Entry} (he : s.stackEntry role plank = some e) (hh : s.hubHolds (e.stackAddr / 2 ^ 36) = true)
    (hq : ∀ r ∈ (s.bay (e.stackAddr / 2 ^ 36)).q, r.kind ≠ 4) :
    Completes (.stackPlankRead role plank) s (fun t =>
      (∃ r, (t.bay (e.stackAddr / 2 ^ 36)).q = (s.bay (e.stackAddr / 2 ^ 36)).q ++ [r] ∧ r.kind = 4 ∧ r.core = role ∧ r.spad = plank) ∧
      t.lands = s.lands ∧ t.stack = s.stack) := by
  refine ⟨_, by rw [exec_stackPlankRead, stackPlankRead_held he hh hq], ⟨_, q_hubQueue s _ _, rfl, rfl, rfl⟩, ?_, ?_⟩
  · exact State.lands_onBay s _ _
  · exact State.stack_onBay s _ _

end

/-! ## RELEASE_COUNT_UPDATE -/

theorem coreHalf_lt (p : Nat) : coreHalf p < 96 := by
  have bay : bayY (coreBay p) ≤ 7 := by
    unfold bayY
    split
    · omega
    · split <;> omega
  have row : coreRow p < 48 := by
    simp only [coreRow, coreIdx]
    omega
  unfold coreHalf
  split <;> omega

/-- A release count that a core has reached raises the count its landing has seen (R335, R336). -/
theorem completes_releaseCountUpdate {s : State} {l p n : Nat} (hl : l < 8) (hp : p < 2880) (hpr : (s.land l).present = true)
    (hb : s.bayUp (landingBay l) = true) (hn : n ≤ (s.core p).releases) :
    Completes (.releaseCountUpdate l (coreHalf p) p n) s (fun t =>
      SMap.get 0 (t.land l).relSeen p = max n (SMap.get 0 (s.land l).relSeen p) ∧
      (∀ q, q ≠ p → SMap.get 0 (t.land l).relSeen q = SMap.get 0 (s.land l).relSeen q) ∧ t.cores = s.cores ∧ t.flights = s.flights) := by
  have half := coreHalf_lt p
  have dispatch : exec (.releaseCountUpdate l (coreHalf p) p n) s = execReleaseCountUpdate l (coreHalf p) p n s := rfl
  refine ⟨s.onLand l (fun x => { x with relSeen := SMap.set 0 x.relSeen p (max n (SMap.get 0 x.relSeen p)) }), ?_, ?_, fun q hq => ?_, ?_, ?_⟩
  · rw [dispatch, execReleaseCountUpdate, if_neg (by omega), landEvent_present hl hpr hb, releaseCountUpdate, if_pos ⟨rfl, hn⟩]
  · rw [State.land_onLand_same, SMap.get_set_same]
  · rw [State.land_onLand_same, SMap.get_set_ne _ _ _ hq]
  · exact State.cores_onLand s _ _
  · exact State.flights_onLand s _ _

/-- Settles O24: an issue is followed through the view that plank orders are read from, which its bookkeeping keeps; a plank read from a stack
reaches a landing in its turn, as no other landing's turn changes what it wants. -/
theorem planksAreIssued : Obligations.planks_are_issued := by
  intro s role hc
  refine ⟨fun l m b hl hi hm hg hn hb hf hr => ?_, fun l plank i m hl hw hi hm ha hn hg hh => ?_, fun plank e he hh hq => ?_, fun l p n => ?_⟩
  · have holds : s.HoldsNext l role m b := ⟨hi, hm, hg, hn, hb, hf, hr⟩
    exact ⟨completes_plankIssue_unexpected hc hl holds, completes_plankIssue_expected hc hl holds⟩
  · exact completes_stackPlankRead_free hc hl ⟨hw, hi, hm, ha, hn, hg⟩ hh
  · exact completes_stackPlankRead_held he hh hq
  · exact completes_releaseCountUpdate

end Sys2Proof.Machine
end

section
/-! The issue of a vector operation at a calm core: its operands, its post-increments, the result it queues, and what it leaves alone (R148,
R150, R172, R182, R183). -/

namespace Sys2Proof.Machine

/-! ## Operands at a calm core -/

theorem issues_calm {s : State} {p : Nat} {h : Hdr} {a : Act} (hi : s.issues p h a = true) : s.calm p = true := by
  simp only [State.issues, Bool.and_eq_true] at hi
  obtain ⟨⟨⟨⟨⟨⟨hcalm, -⟩, -⟩, -⟩, -⟩, -⟩, -⟩ := hi
  exact hcalm

theorem issues_noFault {s : State} {p : Nat} {h : Hdr} {a : Act} (hi : s.issues p h a = true) : a.fault = none := by
  simp only [State.issues, Bool.and_eq_true, Option.isNone_iff_eq_none] at hi
  obtain ⟨⟨⟨⟨⟨-, hfault⟩, -⟩, -⟩, -⟩, -⟩ := hi
  exact hfault

theorem calm_vpipe {s : State} {p : Nat} (h : s.calm p = true) : (s.core p).vpipe = [] := by
  obtain ⟨-, -, -, -, hfeet, -⟩ := (calm_iff s p).1 h
  obtain ⟨-, -, -, -, hv, -⟩ := feet_parts hfeet
  exact hv

theorem slotMask_calm {c : Core} (h : c.seasoned = true) (a n : Nat) : c.slotMask a n = 0 := by
  obtain ⟨-, -, -, -, hgg, -⟩ := seasoned_parts h
  have hm := memMask_nil h a n
  rwa [Core.memMask, hgg, List.foldl_nil] at hm

/-- Nothing that a calm core reads from its scratchpad is green. -/
theorem readMask_calm {s : State} {p : Nat} (h : s.calm p = true) (rs : List (Nat × Nat)) : (s.core p).readMask rs = 0 := by
  obtain ⟨-, -, -, -, hfeet, hsea⟩ := (calm_iff s p).1 h
  obtain ⟨-, -, -, -, hgg, -⟩ := seasoned_parts hsea
  obtain ⟨h1, h2, h3, h4, h5, h6, h7, -, h9⟩ := feet_parts hfeet
  have hfly : (s.core p).flying = [] := by simp [Core.flying, h1, h2, h3, h4, h5, h6, h7, h9]
  simp only [Core.readMask, hgg, hfly, List.map_nil, List.flatMap_nil, List.append_nil, List.filter_nil, List.foldl_nil, slotMask_calm hsea]
  induction rs with
  | nil => rfl
  | cons r rs ih => exact ih

theorem spadView_calm {s : State} {p : Nat} (h : s.calm p = true) (eng : Nat) : (s.core p).spadView eng = (s.core p).spad := by
  rw [Core.spadView, calm_vpipe h, List.foldl_nil]

/-- Operand b as the act reads it is operand b of Table 7.8 where the operation takes MS. -/
theorem vxB_calm {s : State} {p : Nat} (h : s.calm p = true) (f : VxF) {takes : Bool} (ht : takes = true) :
    (if f.ms && takes then Mem.readNat ((s.core p).spadView 2) ((s.core p).xreg (f.vs2.toNat % 16)).toNat 256
      else ((s.core p).vreg f.vs2.toNat).toNat) = (s.core p).vxB f := by
  rw [spadView_calm h, ht, Bool.and_true, Core.vxB]

/-! ## Post-increments -/

/-- A post-increment writes one address register and its mask. -/
theorem bumpX_eq (c : Core) (x n : Nat) (m : Mask) : c.bumpX x n m =
    { c with gv := SMap.set 0 c.gv (idX x) (c.regMask (idX x) ||| m), x := SMap.set 0 c.x x (BitVec.ofNat 64 ((c.xreg x).toNat + n)) } := by
  simp only [Core.bumpX, Core.setId]
  rw [if_neg (by simp only [idX]; omega), if_neg (by simp only [idX]; omega), idX, Nat.add_sub_cancel_left]

theorem xreg_bumpX (c : Core) (x n : Nat) (m : Mask) (y : Nat) :
    (c.bumpX x n m).xreg y = if y = x then c.xreg x + BitVec.ofNat 64 n else c.xreg y := by
  rw [bumpX_eq, Core.xreg, SMap.get_set, BitVec.ofNat_add, BitVec.ofNat_toNat, BitVec.setWidth_eq]
  rfl

theorem incEach_cons (x : Nat) (xs : List Nat) (n : Nat) (m : Mask) (c : Core) :
    incEach (x :: xs) n m c = incEach (xs.filter (fun y => !y == x)) n m (c.bumpX x n m) := by
  simp only [incEach, List.eraseDups_cons, List.foldl_cons]

/-- Post-increments write address registers and their masks, and nothing else. -/
theorem incEach_keeps (xs : List Nat) (n : Nat) (m : Mask) (c : Core) :
    incEach xs n m c = { c with gv := (incEach xs n m c).gv, x := (incEach xs n m c).x } := by
  unfold incEach
  induction xs.eraseDups generalizing c with
  | nil => rfl
  | cons x xs ih => rw [List.foldl_cons, ih, bumpX_eq c]

/-- Each register named is incremented once, however often it is named. -/
theorem xreg_incEach (xs : List Nat) (n : Nat) (m : Mask) (c : Core) (y : Nat) :
    (incEach xs n m c).xreg y = c.xreg y + if y ∈ xs then BitVec.ofNat 64 n else 0 := by
  match xs with
  | [] => simp [incEach]
  | x :: xs =>
    rw [incEach_cons, xreg_incEach (xs.filter (fun y => !y == x)), xreg_bumpX]
    by_cases hy : y = x <;> simp [hy]
termination_by xs.length
decreasing_by exact Nat.lt_succ_of_le (List.length_filter_le _ _)

/-- The address registers that a VX operation post-increments (Table 7.8). -/
def vxIncs (f : VxF) (ms md : Bool) : List Nat :=
  if f.inc then ((if ms then [f.vs2.toNat % 16] else []) ++ (if md then [f.vd.toNat % 16] else [])) else []

theorem mem_vxIncs (f : VxF) (ms md : Bool) (x : Nat) :
    x ∈ vxIncs f ms md ↔ (f.inc && ((ms && x == f.vs2.toNat % 16) || (md && x == f.vd.toNat % 16))) = true := by
  cases hinc : f.inc <;> simp [vxIncs, hinc]

theorem xreg_incEach_vxIncs (f : VxF) (ms md : Bool) (m : Mask) (c : Core) (x : Nat) :
    (incEach (vxIncs f ms md) 256 m c).xreg x = c.xreg x +
      (if f.inc && ((ms && x == f.vs2.toNat % 16) || (md && x == f.vd.toNat % 16)) then 256 else 0) := by
  rw [xreg_incEach]
  simp only [mem_vxIncs]
  rfl

/-! ## The result on its way -/

/-- The core with result r of the vector engine on its way, under mask m. -/
def Core.queueRes (r : VRes) (m : Mask) (c : Core) : Core := { c with vpipe := c.vpipe ++ [{ r with mask := m, pt := c.ptSeq }] }

/-- The effect of act a at core p is that result r is on its way, with the act's footprint. -/
def Act.Queues (a : Act) (p : Nat) (r : VRes) : Prop := ∀ m u, a.eff m u = u.onCore p (Core.queueRes { r with foot := a.foot } m)

/-- Bookkeeping leaves registers, memories and the results on their way alone. -/
theorem BookOnly.same {c d : Core} (h : BookOnly c d) : d.v = c.v ∧ d.s = c.s ∧ d.x = c.x ∧ SameMem c d ∧ d.vpipe = c.vpipe :=
  ⟨(congrArg Core.v h).trans rfl, (congrArg Core.s h).trans rfl, (congrArg Core.x h).trans rfl,
    ⟨(congrArg Core.spad h).trans rfl, (congrArg Core.sill h).trans rfl, (congrArg Core.istore h).trans rfl⟩, (congrArg Core.vpipe h).trans rfl⟩

/-- A result put on its way after post-increments leaves data registers, memories and loop state as they were. -/
theorem queueRes_incEach_same (r : VRes) (m : Mask) (xs : List Nat) (n : Nat) (k : Mask) (c : Core) :
    let d := Core.queueRes r m (incEach xs n k c)
    d.v = c.v ∧ d.s = c.s ∧ SameMem c d ∧ d.vpipe = c.vpipe ++ [{ r with mask := m, pt := c.ptSeq }] ∧
      d.endHold = c.endHold ∧ d.loops = c.loops := by
  rw [incEach_keeps]
  exact ⟨rfl, rfl, ⟨rfl, rfl, rfl⟩, rfl, rfl, rfl⟩

/-- A VX operation that issues and queues a result has issued with that result. -/
theorem issued_of_queues {s : State} {p : Nat} {h : Hdr} {f : VxF} {op : Nat} {r : VRes} {ms md : Bool}
    (hi : s.issues p h (actVx op f s p) = true) (hq : (actVx op f s p).Queues p r) (hms : (f.ms && vxB op) = ms) (hmd : (f.md && vxDst op) = md) :
    ∃ t, issue p h (actVx op f) s = .next t ∧ VxIssued p f ms md r.regs r.spad r.fl s t := by
  subst hms hmd
  have hc := issues_calm hi
  obtain ⟨t, ht, hbook, hbut, hnext⟩ := issue_core (g := incEach (vxIncs f (f.ms && vxB op) (f.md && vxDst op)) 256 0)
    hi (readMask_calm hc _) rfl (hq 0) rfl
  obtain ⟨hv, hs, hx, ⟨hspad, hsill, histore⟩, hpipe⟩ := hbook.same
  obtain ⟨dv, ds, ⟨dspad, dsill, distore⟩, dpipe, dend, dloops⟩ :=
    queueRes_incEach_same { r with foot := (actVx op f s p).foot } 0 (vxIncs f (f.ms && vxB op) (f.md && vxDst op)) 256 0 (s.core p)
  rw [calm_vpipe hc, List.nil_append] at dpipe
  refine ⟨t, ht, ⟨_, hpipe.trans dpipe, rfl, rfl, rfl⟩, fun x _ => ?_, hv.trans dv, hs.trans ds,
    ⟨hspad.trans dspad, hsill.trans dsill, histore.trans distore⟩, hbut, hnext (dend.trans (calm_endHold hc)) dloops⟩
  rw [Core.xreg, hx]
  exact xreg_incEach_vxIncs f _ _ 0 (s.core p) x

/-! ## One register of result -/

/-- A result of one register image, which MD sends to scratchpad at X[VD] (Table 7.8). -/
def Core.imageRes (c : Core) (f : VxF) (v : Nat × Fl) : VRes :=
  { regs := if f.md then [] else [(f.vd.toNat, v.1)],
    spad := if f.md then [((c.xreg (f.vd.toNat % 16)).toNat, leBytes 256 v.1)] else [], fl := v.2 }

/-- A VX operation with one register of result that issues and queues that image has issued with it. -/
theorem result_of_queues {s : State} {p : Nat} {h : Hdr} {f : VxF} {op : Nat} {v : Nat × Fl} {ms : Bool}
    (hi : s.issues p h (actVx op f s p) = true) (hq : (actVx op f s p).Queues p ((s.core p).imageRes f v)) (hms : (f.ms && vxB op) = ms)
    (hd : vxDst op = true) : ∃ t, issue p h (actVx op f) s = .next t ∧ VxResult p f ms v s t :=
  issued_of_queues hi hq hms (by rw [hd, Bool.and_true])

end Sys2Proof.Machine
end

section
/-! Elementwise vector operations (R138 to R141, R149, R184). -/

namespace Sys2Proof.Machine

theorem vxMap_eq (op ty : Nat) (m : Rnd) (cond a b c : Nat) : vxMap op ty m cond a b c = vxLanes (fun k => laneOp op k m cond) ty a b c := rfl

/-- An elementwise operation queues the image of its lanes (R138 to R141, R184). -/
theorem queues_each {s : State} {p : Nat} {f : VxF} {op : Nat} (hc : s.calm p = true) (hb : vxB op = true) (hd : vxDst op = true)
    (ho : 2 ≤ op ∧ op ≤ 0xD) :
    (actVx op f s p).Queues p ((s.core p).imageRes f (vxMap op f.ty.toNat (Rnd.ofCode f.rnd.toNat) (f.vs3.toNat % 8)
      ((s.core p).vreg f.vs1.toNat).toNat ((s.core p).vxB f) ((s.core p).vreg f.vs3.toNat).toNat)) := by
  obtain ⟨hlo, hhi⟩ := ho
  have hhor : vxHor op = false := by simp only [vxHor, decide_eq_false_iff_not]; omega
  have hvar : vxVar op = false := by simp only [vxVar, Bool.or_eq_false_iff, beq_eq_false_iff_ne]; omega
  have hrec : vxRec op = false := by simp only [vxRec, Bool.or_eq_false_iff, beq_eq_false_iff_ne]; omega
  have hcvt : (op == 0x12) = false := by rw [beq_eq_false_iff_ne]; omega
  rw [← vxB_calm hc f hb]
  intro m u
  simp only [Core.imageRes, actVx, hhor, hvar, hrec, hcvt, hd, if_neg (show op ≠ 1 by omega), if_neg (show op ≠ 0x11 by omega),
    if_neg (show op ≠ 0x17 by omega), if_neg (show op ≠ 0x18 by omega), if_neg (show op ≠ 0x19 by omega), if_neg (show op ≠ 0x1A by omega)]
  cases f.md
  · rfl
  · rfl

/-- Every elementwise operation takes operand b and has one register of result (Table 7.9). -/
theorem each_forms {op : Nat} (ho : 2 ≤ op ∧ op ≤ 0xD) : vxB op = true ∧ vxDst op = true := by
  simp only [vxB, vxDst, vxHor, vxRec, Bool.not_eq_true', Bool.and_eq_true, Bool.or_eq_false_iff, beq_eq_false_iff_ne, decide_eq_false_iff_not]
  omega

/-- The elementwise operation with opcode op issues as the lane operation g that laneOp gives it. -/
theorem completes_each {s : State} {p : Nat} {h : Hdr} {f : VxF} {op : Nat} {g : Fmt → Nat → Nat → Nat → FR}
    (hi : s.issues p h (actVx op f s p) = true) (ho : 2 ≤ op ∧ op ≤ 0xD)
    (hg : (fun k => laneOp op k (Rnd.ofCode f.rnd.toNat) (f.vs3.toNat % 8)) = g) :
    ∃ t, issue p h (actVx op f) s = .next t ∧ VxEach p f g s t := by
  obtain ⟨hb, hd⟩ := each_forms ho
  have hq := queues_each (f := f) (issues_calm hi) hb hd ho
  rw [vxMap_eq, hg] at hq
  exact result_of_queues hi hq (by rw [hb, Bool.and_true]) hd

/-- Settles O8: each operation is one lane operation of the model, applied to the lanes of TY. -/
theorem vectorElementwiseResults : Obligations.vector_elementwise_results := by
  intro s p h f m runs
  refine ⟨?_, ?_, ?_, ?_, ?_, ?_, ?_, ?_, ?_, ?_, ?_, ?_⟩
  all_goals exact fun hi => completes_each hi (by decide) rfl

end Sys2Proof.Machine
end

section
/-! Vector conversions, record operations and variances (R142 to R145, R156 to R160, R185). -/

namespace Sys2Proof.Machine

/-! ## Conversions -/

theorem firstFault_none {fs : List (Bool × Nat)} : firstFault fs = none ↔ ∀ x ∈ fs, x.1 = false := by
  simp [firstFault]

theorem cvt_allowed {s : State} {p : Nat} {h : Hdr} {f : VxF} (hi : s.issues p h (actVx 0x12 f s p) = true) :
    cvtBad (f.vs1.toNat % 16) (f.vs3.toNat % 16) f.ty.toNat = false :=
  firstFault_none.1 (issues_noFault hi) (cvtBad _ _ _, fBadFormat) (List.mem_cons_of_mem _ List.mem_cons_self)

/-- The formats up to INT8, which a conversion may write, have elements of whole bytes (Table 5.3). -/
theorem fmtBits_target : ∀ tgt < 6, fmtBits tgt % 8 = 0 := by decide

theorem cvt_bytes {s : State} {p : Nat} {h : Hdr} {f : VxF} (hi : s.issues p h (actVx 0x12 f s p) = true) :
    fmtBits (f.vs3.toNat % 16) % 8 = 0 := by
  have hbad := cvt_allowed hi
  simp only [cvtBad, Bool.or_eq_false_iff, decide_eq_false_iff_not, Nat.not_lt] at hbad
  obtain ⟨⟨⟨-, htgt⟩, -⟩, -⟩ := hbad
  exact fmtBits_target _ (Nat.lt_succ_of_le htgt)

/-- The 64 codes and the flags of a conversion (R142 to R145). -/
def Core.converted (c : Core) (f : VxF) : List Nat × Fl :=
  vxConvert (f.vs1.toNat % 16) (f.vs3.toNat % 16) f.ty.toNat (Rnd.ofCode f.rnd.toNat) (c.vxB f) (c.sreg f.sx.toNat).toNat

/-- The result of a conversion to V[VD]: one group of its elements replaced by the codes v (R185). -/
def Core.cvtRegister (c : Core) (f : VxF) (v : List Nat × Fl) : VRes :=
  { regs := [(f.vd.toNat, putGroup (c.vreg f.vd.toNat).toNat (fmtBits (f.vs3.toNat % 16)) (if f.vs3.toNat % 16 = 0 then 0 else 64 * f.ty.toNat) v.1)],
    fl := v.2 }

/-- The result of a conversion to scratchpad: the bytes of the codes v, in their group's place of a register image at X[VD] (R185). -/
def Core.cvtSpad (c : Core) (f : VxF) (v : List Nat × Fl) : VRes :=
  { spad := [((c.xreg (f.vd.toNat % 16)).toNat + (if f.vs3.toNat % 16 = 0 then 0 else 8 * fmtBits (f.vs3.toNat % 16) * f.ty.toNat),
      leBytes (8 * fmtBits (f.vs3.toNat % 16)) (unlanes (fmtBits (f.vs3.toNat % 16)) v.1))],
    fl := v.2 }

theorem queues_cvtRegister {s : State} {p : Nat} {f : VxF} (hc : s.calm p = true) (hmd : f.md = false) :
    (actVx 0x12 f s p).Queues p ((s.core p).cvtRegister f ((s.core p).converted f)) := by
  intro m u
  simp only [actVx, hmd, Bool.false_and, Core.cvtRegister, Core.converted, ← vxB_calm hc f (takes := vxB 0x12) rfl]
  rfl

theorem queues_cvtSpad {s : State} {p : Nat} {f : VxF} (hc : s.calm p = true) (hmd : f.md = true) (hw : fmtBits (f.vs3.toNat % 16) % 8 = 0) :
    (actVx 0x12 f s p).Queues p ((s.core p).cvtSpad f ((s.core p).converted f)) := by
  intro m u
  have hlen : 8 * fmtBits (f.vs3.toNat % 16) = 64 * (fmtBits (f.vs3.toNat % 16) / 8) := by omega
  have hoff : ∀ tgt n : Nat, (if tgt = 0 then 0 else n) = if tgt != 0 then n else 0 := fun tgt n => by by_cases h : tgt = 0 <;> simp [h]
  simp only [Core.cvtSpad, hlen, hoff, actVx, hmd, Core.converted, ← vxB_calm hc f (takes := vxB 0x12) rfl]
  rfl

/-! ## Records -/

/-- A record o to V[VD], V[VD + 1] and S[SX], with its VEC_STATUS bits: MODE_IGNORED where RND names a mode other than RNE (R156, R160). -/
def recRes (f : VxF) (o : (Nat × Nat × Nat) × Fl × Nat) : VRes :=
  { regs := [(f.vd.toNat, o.1.2.1), (f.vd.toNat + 1, o.1.2.2), (idS f.sx.toNat, o.1.1)], fl := o.2.1,
    vs := o.2.2 ||| (if f.rnd != 0 then vsMode else 0) }

theorem queues_vrupd {s : State} {p : Nat} {f : VxF} (hc : s.calm p = true) :
    let c := s.core p
    (actVx 0x13 f s p).Queues p (recRes f (recCombine ((c.sreg f.sx.toNat).toNat % 2 ^ 32) (c.vreg f.vd.toNat).toNat (c.vreg (f.vd.toNat + 1)).toNat
      1 (c.vxB f) 0)) := by
  intro c m u
  simp only [c, ← vxB_calm hc f (takes := vxB 0x13) rfl]
  rfl

theorem queues_vrcmb (s : State) (p : Nat) (f : VxF) :
    let c := s.core p
    (actVx 0x14 f s p).Queues p (recRes f (recCombine ((c.sreg f.sx.toNat).toNat % 2 ^ 32) (c.vreg f.vd.toNat).toNat (c.vreg (f.vd.toNat + 1)).toNat
      ((c.sreg (f.vs3.toNat % 32)).toNat % 2 ^ 32) (c.vreg f.vs1.toNat).toNat (c.vreg (f.vs1.toNat + 1)).toNat)) := fun _ _ => rfl

/-- VVARP (sub 0) and VVARS (sub 1) queue the image of the variances (R158). -/
theorem queues_variance (s : State) (p : Nat) (f : VxF) {sub : Nat} (hs : sub < 2) :
    let c := s.core p
    let r := vxVariance (Rnd.ofCode f.rnd.toNat) (c.vreg (f.vs1.toNat + 1)).toNat ((c.sreg f.sx.toNat).toNat % 2 ^ 32) sub
    (actVx (0x15 + sub) f s p).Queues p { c.imageRes f (r.1, r.2.1) with vs := r.2.2 } := by
  intro c r m u
  have h : sub = 0 ∨ sub = 1 := by omega
  obtain rfl | rfl := h
  all_goals
    simp only [actVx, Core.imageRes]
    cases f.md
    · rfl
    · rfl

theorem completes_record {s : State} {p : Nat} {h : Hdr} {f : VxF} {op : Nat} {o : (Nat × Nat × Nat) × Fl × Nat} {ms : Bool}
    (hi : s.issues p h (actVx op f s p) = true) (hq : (actVx op f s p).Queues p (recRes f o)) (hms : (f.ms && vxB op) = ms)
    (hd : vxDst op = false) :
    ∃ t, issue p h (actVx op f) s = .next t ∧
      VxIssued p f ms false [(f.vd.toNat, o.1.2.1), (f.vd.toNat + 1, o.1.2.2), (idS f.sx.toNat, o.1.1)] [] o.2.1 s t :=
  issued_of_queues hi hq hms (by rw [hd, Bool.and_false])

/-- Settles O11: conversions, records and variances each queue their own result. -/
theorem vectorConvertAndRecordResults : Obligations.vector_convert_and_record_results := by
  intro s p h f c m vd sv old tgt cv rec' var runs
  exact ⟨fun hi hmd => issued_of_queues (r := c.cvtRegister f cv) hi (queues_cvtRegister (issues_calm hi) hmd) (Bool.and_true _) (by rw [hmd]; rfl),
    fun hi hmd => issued_of_queues (r := c.cvtSpad f cv) hi (queues_cvtSpad (issues_calm hi) hmd (cvt_bytes hi)) (Bool.and_true _) (by rw [hmd]; rfl),
    fun hi => completes_record hi (queues_vrupd (issues_calm hi)) (Bool.and_true _) rfl,
    fun hi => completes_record hi (queues_vrcmb s p f) (Bool.and_false _) rfl,
    fun hi => issued_of_queues hi (queues_variance s p f (sub := 0) (by decide)) (Bool.and_false _) (Bool.and_true _),
    fun hi => issued_of_queues hi (queues_variance s p f (sub := 1) (by decide)) (Bool.and_false _) (Bool.and_true _)⟩

end Sys2Proof.Machine
end

section
/-! Horizontal vector operations (R152, R153). -/

namespace Sys2Proof.Machine

/-- Lane type 0 is FP32, read as a field or as its number (R184). -/
theorem ite_ty_zero {α : Type} (f : VxF) (x y : α) : (if f.ty = 0 then x else y) = if f.ty.toNat = 0 then x else y := by
  by_cases h : f.ty = 0
  · rw [if_pos h, if_pos (show f.ty.toNat = 0 from congrArg BitVec.toNat h)]
  · rw [if_neg h, if_neg (show ¬ f.ty.toNat = 0 from fun e => h (BitVec.eq_of_toNat_eq e))]

/-- Every horizontal operation takes operand b and has no register that MD could send to scratchpad (Table 7.9). -/
theorem horizontal_forms {op : Nat} (ho : 0xE ≤ op ∧ op ≤ 0x10) : vxHor op = true ∧ vxB op = true ∧ vxDst op = false := by
  have hhor : vxHor op = true := decide_eq_true ho
  refine ⟨hhor, ?_, by rw [vxDst, hhor]; rfl⟩
  simp only [vxB, Bool.not_eq_true', Bool.or_eq_false_iff, beq_eq_false_iff_ne]
  omega

/-- A horizontal operation queues the foot of its tree for S[SX] (R152, R153). -/
theorem queues_horizontal {s : State} {p : Nat} {f : VxF} {op : Nat} (hc : s.calm p = true) (ho : 0xE ≤ op ∧ op ≤ 0x10) :
    let r := vxHorizontal op f.ty.toNat (Rnd.ofCode f.rnd.toNat) ((s.core p).vxB f)
    (actVx op f s p).Queues p { regs := [(idS f.sx.toNat, r.1)], fl := r.2 } := by
  obtain ⟨hhor, hb, -⟩ := horizontal_forms ho
  intro r m u
  simp only [r, actVx, if_pos hhor, ← vxB_calm hc f hb]
  rfl

/-- A horizontal operation issues with the foot of the tree t that vxHorizontal gives it, MD or not. -/
theorem completes_horizontal {s : State} {p : Nat} {h : Hdr} {f : VxF} {op : Nat} {t : List Nat × Fl}
    (hi : s.issues p h (actVx op f s p) = true) (ho : 0xE ≤ op ∧ op ≤ 0x10)
    (ht : vxHorizontal op f.ty.toNat (Rnd.ofCode f.rnd.toNat) ((s.core p).vxB f) = (t.1.headD 0, t.2)) :
    ∃ u, issue p h (actVx op f) s = .next u ∧ VxIssued p f f.ms false [(idS f.sx.toNat, t.1.headD 0)] [] t.2 s u := by
  obtain ⟨-, hb, hd⟩ := horizontal_forms ho
  have hq := queues_horizontal (f := f) (issues_calm hi) ho
  rw [ht] at hq
  exact issued_of_queues hi hq (by rw [hb, Bool.and_true]) (by rw [hd, Bool.and_false])

/-- Settles O10: each operation is one tree of the model over the lanes of TY, and MD changes nothing. -/
theorem vectorHorizontalResults : Obligations.vector_horizontal_results := by
  intro s p h f m b xs k add sq ends runs
  have hxs : xs = if f.ty.toNat = 0 then lanes 32 64 b else (lanes 16 128 b).map bf16To32 := ite_ty_zero f _ _
  have hk : k = if f.ty.toNat = 0 then 6 else 7 := ite_ty_zero f _ _
  simp only [ends, sq, hxs, hk]
  refine ⟨?_, ?_, ?_⟩
  all_goals exact fun hi => completes_horizontal hi (by decide) rfl

end Sys2Proof.Machine
end

section
/-! Results that land and stack accesses that are performed: the core's registers and memories after a result of the vector engine or of SLD and
SST, and the stack, the scratchpads and the bay's list after an access (R150, R401, R403, R412, R447). -/

namespace Sys2Proof.Machine

/-! ## The writes of a core that holds no rollback point -/

section

variable {c : Core} (hpt : c.point = none)
include hpt

/-- A result lands as a plain register write, as there is no shadow to keep (R430). -/
theorem landId_unlogged (pt id v : Nat) (m : Mask) : c.landId pt id v m = c.setId id v m := by
  have none_kept : (c.setId id v m).point.map (fun q => q.shadow id v) = (c.setId id v m).point := by
    rw [Core.point_setId, hpt]
    rfl
  unfold Core.landId
  dsimp only
  rw [none_kept, ite_self]

theorem logLines_unlogged (sill : Bool) (a n : Nat) : c.logLines sill a n = c := by
  unfold Core.logLines
  rw [hpt]

theorem keepLines_unlogged (pt : Nat) (sill : Bool) (a n : Nat) : c.keepLines pt sill a n = c := by
  unfold Core.keepLines
  rw [hpt]

/-- Scratchpad bytes land as a plain write, as there is no log to keep; beside them only granule masks change (R203, R422). -/
theorem putSpad_unlogged (pt a : Nat) (bs : List Byte) (m : Mask) :
    ∃ gg, c.putSpad pt a bs m = { c with spad := Mem.write c.spad a bs, gg := gg } := by
  simp only [Core.putSpad, logLines_unlogged hpt]
  exact ⟨_, keepLines_unlogged (by exact hpt) pt false a bs.length⟩

end

theorem setId_vector {id : Nat} (h : id < 64) (c : Core) (v : Nat) (m : Mask) :
    c.setId id v m = { c with v := SMap.set 0 c.v id (BitVec.ofNat 2048 v), gv := SMap.set 0 c.gv id m } := if_pos h

/-! ## RESULT_LANDS -/

/-- The core with the registers and the scratchpad bytes of result r written. -/
def VRes.land (r : VRes) (c : Core) : Core :=
  r.spad.foldl (fun c w => c.putSpad r.pt w.1 w.2 r.mask) (r.regs.foldl (fun c w => c.landId r.pt w.1 w.2 r.mask) c)

theorem land_vector {r : VRes} {c : Core} {id v : Nat} (hpt : c.point = none) (hr : r.regs = [(id, v)]) (hs : r.spad = []) :
    r.land c = c.setId id v r.mask := by
  rw [VRes.land, hr, hs]
  exact landId_unlogged hpt r.pt id v r.mask

theorem land_spad {r : VRes} {c : Core} {a : Nat} {bs : List Byte} (hpt : c.point = none) (hr : r.regs = []) (hs : r.spad = [(a, bs)]) :
    ∃ gg, r.land c = { c with spad := Mem.write c.spad a bs, gg := gg } := by
  rw [VRes.land, hr, hs]
  exact putSpad_unlogged hpt r.pt a bs r.mask

/-- The flags of result r added to FP_STATUS and VEC_STATUS of core p (R134, R165). -/
def State.noteFlags (s : State) (p : Nat) (r : VRes) : State :=
  let u := if r.fl = 0 then s else s.orReg (coreReg p 2 0x80) (r.fl.setWidth 32)
  if r.vs = 0 then u else u.orReg (coreReg p 2 0x84) (BitVec.ofNat 32 r.vs)

theorem cores_noteFlags (s : State) (p : Nat) (r : VRes) : (s.noteFlags p r).cores = s.cores := by
  unfold State.noteFlags
  simp only [apply_ite State.cores, State.cores_orReg, ite_self]

theorem coreReg_ne_of_off {p q b c o x : Nat} (ho : o < 65536) (hx : x < 65536) (h : o ≠ x) : coreReg p b o ≠ coreReg q c x := fun e =>
  h (by rw [← aOff_coreReg (p := p) (blk := b) ho, e, aOff_coreReg hx])

theorem reg_noteFlags (s : State) (p : Nat) (r : VRes) :
    (s.noteFlags p r).reg (coreReg p 2 0x80) = s.reg (coreReg p 2 0x80) ||| r.fl.setWidth 32 := by
  have apart : coreReg p 2 0x80 ≠ coreReg p 2 0x84 := coreReg_ne_of_off (by decide) (by decide) (by decide)
  simp only [State.noteFlags, apply_ite (fun u : State => u.reg (coreReg p 2 0x80)), State.reg_orReg, if_neg apart, ite_self, if_pos]
  split
  · next h => simp [h]
  · rfl

section

variable {s : State} {p : Nat} {r : VRes} {rest : List VRes}

/-- The oldest result leaves the pipe, is written, and its flags are noted (R150). -/
theorem resultLands_eq (h : (s.core p).vpipe = r :: rest) :
    resultLands p s = (s.onCore p (fun c => r.land { c with vpipe := rest })).noteFlags p r := by
  unfold resultLands
  rw [h]
  rfl

theorem core_resultLands (h : (s.core p).vpipe = r :: rest) : (resultLands p s).core p = r.land { s.core p with vpipe := rest } := by
  rw [resultLands_eq h, State.core, cores_noteFlags]
  exact State.core_onCore_same s p _

theorem completes_resultLands {P : State → Prop} (hp : p < 2880) (hu : s.coreUp p = true) (hP : P (resultLands p s)) :
    Completes (.resultLands p) s P := by
  have dispatch : exec (.resultLands p) s = coreEvent p (resultLands p) s := rfl
  exact ⟨_, by rw [dispatch, coreEvent, if_neg (by omega), if_pos hu], hP⟩

theorem flag_resultLands {i : Nat} (h : (s.core p).vpipe = r :: rest) (hi : i < 8) (hf : r.fl.getLsbD i = true) :
    bit ((resultLands p s).reg (coreReg p 2 0x80)).toNat i = true := by
  have noted : bit (r.fl.setWidth 32).toNat i = true := by
    rw [bit_eq_testBit, BitVec.testBit_toNat, BitVec.getLsbD_setWidth, hf, Bool.and_true, decide_eq_true_eq]
    omega
  rw [resultLands_eq h, reg_noteFlags, bit_or, noted, Bool.or_true]

/-- A result of one V register writes that register and no other, and leaves the pipe. -/
theorem completes_resultLands_vector {id v : Nat} (hp : p < 2880) (hu : s.coreUp p = true) (h : (s.core p).vpipe = r :: rest)
    (hpt : (s.core p).point = none) (hr : r.regs = [(id, v)]) (hs : r.spad = []) (hid : id < 64) : Completes (.resultLands p) s (fun t =>
      (t.core p).vreg id = BitVec.ofNat 2048 v ∧ (∀ q, q < 64 → q ≠ id → (t.core p).vreg q = (s.core p).vreg q) ∧
      (t.core p).s = (s.core p).s ∧ (t.core p).vpipe = rest ∧ SameMem (s.core p) (t.core p)) := by
  refine completes_resultLands hp hu ?_
  rw [core_resultLands h, land_vector (c := { s.core p with vpipe := rest }) hpt hr hs]
  refine ⟨?_, fun q hq hne => ?_, ?_⟩
  · rw [Core.vreg_setId _ _ _ _ _ hid, if_pos rfl]
  · rw [Core.vreg_setId _ _ _ _ _ hq, if_neg hne]
    rfl
  · rw [setId_vector hid]
    exact ⟨rfl, rfl, rfl, rfl, rfl⟩

/-- A result of scratchpad bytes writes those bytes and no others, and leaves the pipe. -/
theorem completes_resultLands_spad {a : Nat} {bs : List Byte} (hp : p < 2880) (hu : s.coreUp p = true) (h : (s.core p).vpipe = r :: rest)
    (hpt : (s.core p).point = none) (hr : r.regs = []) (hs : r.spad = [(a, bs)]) : Completes (.resultLands p) s (fun t =>
      (∀ i, i < bs.length → Mem.byte (t.core p).spad (a + i) = bs.getD i 0) ∧
      (∀ x, x < a ∨ a + bs.length ≤ x → Mem.byte (t.core p).spad x = Mem.byte (s.core p).spad x) ∧
      (t.core p).v = (s.core p).v ∧ (t.core p).s = (s.core p).s ∧ (t.core p).vpipe = rest ∧ (t.core p).sill = (s.core p).sill) := by
  obtain ⟨gg, landed⟩ := land_spad (c := { s.core p with vpipe := rest }) hpt hr hs
  refine completes_resultLands hp hu ?_
  rw [core_resultLands h, landed]
  exact ⟨Mem.byte_write_inside _ _ _, Mem.byte_write_outside _ _ _, rfl, rfl, rfl, rfl⟩

end

/-! ## Accesses performed -/

/-- A write of a stack counts its bytes and stores them; nothing else changes (R522). -/
theorem stackPut_keeps {β : Type} (g : State → β) (hg : ∀ (u : State) (w : SMap Nat), g { u with bwAcc := w } = g u)
    (hs : ∀ (u : State) (m : Mem), g { u with stack := m } = g u) (s : State) (a : Nat) (bs : List Byte) : g (s.stackPut a bs) = g s :=
  (hs _ _).trans (hubCount_keeps g hg s 1 a bs.length)

/-- The core with its oldest transfer one line nearer its end (R188). -/
def Core.lineDone (c : Core) : Core := match c.xfers with
  | x :: rest => { c with xfers := { x with left := x.left - 1 } :: rest }
  | [] => c

theorem spad_lineDone (c : Core) : c.lineDone.spad = c.spad := by
  unfold Core.lineDone
  split
  · rfl
  · rfl

section

variable {s : State} {r : SReq}

theorem lineAccess_write (hw : r.wr = true) : s.lineAccess r = (s.stackPut r.addr r.data).setCore r.core (s.core r.core).lineDone := by
  simp only [State.lineAccess, if_pos hw]
  rfl

theorem lineAccess_read (hw : r.wr = false) : ∃ pt m, s.lineAccess r =
    (s.hubCount 0 r.addr 64).setCore r.core ((s.core r.core).putSpad pt r.spad (Mem.read s.stack r.addr 64) m).lineDone := by
  simp only [State.lineAccess, hw]
  exact ⟨_, _, rfl⟩

theorem perform_line (hk : r.kind = 0) : s.perform r = s.lineAccess r := by
  rw [State.perform, hk]
  rfl

/-- A line or a write by another master stores its bytes in the stack; bays and scratchpads stay as they are. -/
theorem perform_write (hk : r.kind ≤ 1) (hw : r.wr = true) :
    (s.perform r).stack = Mem.write s.stack r.addr r.data ∧ (s.perform r).bays = s.bays ∧ ∀ q, ((s.perform r).core q).spad = (s.core q).spad := by
  have bays : (s.stackPut r.addr r.data).bays = s.bays := stackPut_keeps State.bays (fun _ _ => rfl) (fun _ _ => rfl) s r.addr r.data
  have core : ∀ q, (s.stackPut r.addr r.data).core q = s.core q := fun q =>
    stackPut_keeps (State.core · q) (fun _ _ => rfl) (fun _ _ => rfl) s r.addr r.data
  obtain hk | hk : r.kind = 0 ∨ r.kind = 1 := by omega
  · rw [perform_line hk, lineAccess_write hw]
    refine ⟨rfl, bays, fun q => ?_⟩
    rw [State.core_setCore]
    split
    · next e => rw [e, spad_lineDone]
    · rw [core]
  · have done : s.perform r = s.stackPut r.addr r.data := by
      rw [State.perform, hk]
      rfl
    rw [done]
    exact ⟨rfl, bays, fun q => by rw [core]⟩

/-- A line read lands in the scratchpad of its core; stack and bays stay as they are. -/
theorem perform_lineRead (hk : r.kind = 0) (hw : r.wr = false) (hpt : (s.core r.core).point = none) :
    ((s.perform r).core r.core).spad = Mem.write (s.core r.core).spad r.spad (Mem.read s.stack r.addr 64) ∧
      (s.perform r).stack = s.stack ∧ (s.perform r).bays = s.bays := by
  obtain ⟨pt, m, read⟩ := lineAccess_read (s := s) hw
  obtain ⟨gg, landed⟩ := putSpad_unlogged hpt pt r.spad (Mem.read s.stack r.addr 64) m
  rw [perform_line hk, read]
  refine ⟨?_, hubCount_keeps State.stack (fun _ _ => rfl) s 0 r.addr 64, hubCount_keeps State.bays (fun _ _ => rfl) s 0 r.addr 64⟩
  rw [State.core_setCore_same, spad_lineDone, landed]

/-- A host's read answers with the stack's bytes; stack, cores and bays stay as they are. -/
theorem perform_hostRead (hk : r.kind = 2) :
    (s.perform r).back = { data := Mem.read s.stack r.addr r.spad } ∧ (s.perform r).stack = s.stack ∧ (s.perform r).cores = s.cores ∧
      (s.perform r).bays = s.bays := by
  have done : s.perform r = { s.hubCount 0 r.addr r.spad with back := { data := Mem.read s.stack r.addr r.spad } } := by
    rw [State.perform, hk]
    rfl
  rw [done]
  exact ⟨rfl, hubCount_keeps State.stack (fun _ _ => rfl) s 0 r.addr r.spad, hubCount_keeps State.cores (fun _ _ => rfl) s 0 r.addr r.spad,
    hubCount_keeps State.bays (fun _ _ => rfl) s 0 r.addr r.spad⟩

end

/-! ## STACK_ACCESS -/

/-- The state with access r taken from the list of bay b. -/
def State.unqueue (s : State) (b : Nat) (r : SReq) : State := s.onBay b (fun y => { y with q := y.q.erase r })

section

variable {s : State} {b ch : Nat} {r : SReq}

/-- Nothing is performed while accesses are held, at a bay that is down, or for a channel that nothing waits for (R403, R412). -/
theorem stackAccess_idle (h : s.bayWaits b = true ∨ s.bayUp b = false ∨ s.nextAccess b ch = none) : stackAccess b ch 0 s = s := by
  unfold stackAccess
  split
  · rfl
  · next free =>
    obtain h | h | h := h
    · exact absurd (Or.inl h) free
    · exact absurd (Or.inr (by rw [h]; rfl)) free
    · simp only [if_pos, h]

/-- The access that its channel comes to waits if it writes into a guarded block, and is performed otherwise (R401, R447). -/
theorem stackAccess_next (hu : s.bayUp b = true) (hw : s.bayWaits b = false) (hn : s.nextAccess b ch = some r) :
    stackAccess b ch 0 s = if r.wr = true ∧ (blocksOf r.addr r.span).any s.job.guard.contains = true then s else (s.unqueue b r).perform r := by
  unfold stackAccess
  rw [if_neg (by rw [hu, hw]; decide)]
  simp only [if_pos, hn]
  rfl

theorem completes_stackAccess {P : State → Prop} (hb : b < 60) (hc : ch < 32) (hP : P (stackAccess b ch 0 s)) :
    Completes (.stackAccess b ⟨ch, 0⟩) s P := by
  have dispatch : exec (.stackAccess b ⟨ch, 0⟩) s = execStackAccess b ⟨ch, 0⟩ s := rfl
  exact ⟨_, by rw [dispatch, execStackAccess, if_neg (by dsimp only; omega)], hP⟩

theorem completes_performed {P : State → Prop} (hb : b < 60) (hc : ch < 32) (hu : s.bayUp b = true) (hw : s.bayWaits b = false)
    (hn : s.nextAccess b ch = some r) (hg : r.wr = false ∨ (blocksOf r.addr r.span).any s.job.guard.contains = false)
    (hP : P ((s.unqueue b r).perform r)) : Completes (.stackAccess b ⟨ch, 0⟩) s P := by
  refine completes_stackAccess hb hc ?_
  rwa [stackAccess_next hu hw hn, if_neg]
  rintro ⟨hwr, hgu⟩
  obtain h | h := hg
  · exact absurd (hwr.symm.trans h) (by decide)
  · exact absurd (hgu.symm.trans h) (by decide)

/-- An access that leaves the bays alone has left the list of its bay. -/
theorem q_of_bays {t : State} (h : t.bays = (s.unqueue b r).bays) : (t.bay b).q = (s.bay b).q.erase r := by
  rw [State.bay, h]
  exact congrArg Bay.q (State.bay_onBay_same s b _)

end

/-- Settles O21: a result is written as its parts say, and an access is taken from its bay's list and performed by its kind. -/
theorem resultsAndLinesLand : Obligations.results_and_lines_land := by
  refine ⟨fun s p r rest hp hu h hpt => ⟨fun id v => completes_resultLands_vector hp hu h hpt,
    fun a bs => completes_resultLands_spad hp hu h hpt, completes_resultLands hp hu fun i => flag_resultLands h⟩,
    fun s b ch hb hc => ⟨fun h => ?_, fun r hu hw hn => ⟨fun hk hwr hg => ?_, fun hwr hg => ?_, fun hk hrd hpt => ?_, fun hk hrd => ?_⟩⟩⟩
  · exact completes_stackAccess hb hc (stackAccess_idle h)
  · obtain ⟨stack, bays, spads⟩ := perform_write (s := s.unqueue b r) hk hwr
    refine completes_performed hb hc hu hw hn (.inr hg) ⟨?_, ?_, q_of_bays bays, spads⟩
    · rw [stack]
      exact Mem.byte_write_inside _ _ _
    · rw [stack]
      exact Mem.byte_write_outside _ _ _
  · exact completes_stackAccess hb hc (by rw [stackAccess_next hu hw hn]; exact if_pos ⟨hwr, hg⟩)
  · obtain ⟨spad, stack, bays⟩ := perform_lineRead (s := s.unqueue b r) hk hrd hpt
    refine completes_performed hb hc hu hw hn (.inl hrd) ⟨fun i hi => ?_, fun a ha => ?_, stack, q_of_bays bays⟩
    · rw [spad, Mem.byte_write_inside _ _ _ _ (by rwa [Mem.read_length]), Mem.read_getD _ _ _ _ hi]
      rfl
    · rw [spad, Mem.byte_write_outside _ _ _ _ (by rwa [Mem.read_length])]
      rfl
  · obtain ⟨back, stack, cores, bays⟩ := perform_hostRead (s := s.unqueue b r) hk
    exact completes_performed hb hc hu hw hn (.inl hrd) ⟨back, stack, cores, q_of_bays bays⟩

end Sys2Proof.Machine
end
